-- ==== Sys2Proof/Word.lean ====
section
/-!
DEFINITION. The word types of the TV-48 and their plainest arithmetic (spec/00_scope.md R3 to R5).
-/

namespace Sys2Proof

/-- A scalar register, a virtual address, a state register: 64 bits (R106, R62). -/
abbrev Word := BitVec 64

/-- One byte of memory (R5). -/
abbrev Byte := BitVec 8

/-- An instruction word (R21). -/
abbrev IWord := BitVec 32

/-- The number of one of 32 scalar registers, vector names or predicate names (R23). -/
abbrev Reg := Fin 32

/-- The mask of an instruction: `some m` is ME = 1 with predicate p[m], `none` is ME = 0 (R23). -/
abbrev Mask := Option (Fin 32)

/-- The word that holds a natural number modulo 2^64. -/
abbrev wd (n : Nat) : Word := BitVec.ofNat 64 n

end Sys2Proof
end

