-- ==== Sys2Proof/Config.lean ====
section
/-!
DEFINITION. What the specification fixes for every TV-48, and the values it leaves open: each open value is an opaque constant,
a function of what it may depend on, which no proof can see into (notes/assumptions names each).
-/

namespace Sys2Proof.Config

/-- Clusters of a part with no retirement, and cores of a cluster (R9, R11). -/
def clusters : Nat := 12
def cores : Nat := 24

/-- The number that stands for the MCC where a core number is meant; PLACE shows it for a control strand (R116). -/
def mccCore : Nat := 31

/-- The key under which device-wide events are queued, and the number that stands for no cluster (R300).
DESIGN CHOICE, log entry 28. -/
def deviceQueue : Nat := 12
def noCluster : Nat := 255

/-- Channels of a part with no retirement, and bytes of a channel (R41, R42). -/
def channels : Nat := 384
def channelBytes : Nat := 2 ^ 31

/-- Lines of 64 bytes that a cluster cache (16 MiB, R92), an instruction cache (128 KiB, R10) and a channel's slice of the
memory-side cache (512 KiB, R41) hold. -/
def cacheLines : Nat := 2 ^ 18
def icacheLines : Nat := 2 ^ 11
def homeLines : Nat := 2 ^ 13

/-- Sprinloth ports (R320). -/
def ports : Nat := 18

/-- The compute die that owns a stack, and the one that holds a cluster (R9, R41). -/
def dieOfStack (s : Nat) : Nat := s / 3
def dieOfCluster (c : Nat) : Nat := c / 3

/-- The place, among the lines that a full cache may give up, of the one that it evicts, by step (R48, R92): the specification names no
order of replacement. DESIGN CHOICE, log entry 60. -/
opaque victim : Nat → List Nat → Nat

/-- Bits [63:29] of a cluster-window address (R16): the window starts at 0x007F_FF00_0000_0000. -/
def winBase : Nat := 0x7FFF0000000000 / 2 ^ 29

/-- IDENT (R314). -/
def ident : Nat := 0x54560030

/-- The physical address of the device-side mailbox area, MBXDEV (R314): 16 KiB aligned; which is set at boot, and not stated. DESIGN
CHOICE, log entry 16. -/
opaque mbxPage : Nat → BitVec 38
def mbxdev (boot : Nat) : BitVec 64 := (mbxPage boot).setWidth 64 <<< 14

/-- Cycles of the 1.25 GHz clock that step `k` takes (R115). DESIGN CHOICE, log entry 3. -/
opaque stepCycles : Nat → Nat

/-- A byte of host memory, and of a peer's memory, that this device has not written (R65, R93). DESIGN CHOICE, log entry 10. -/
opaque hostByte : Nat → Nat → BitVec 8
opaque peerByte : Nat → Nat → BitVec 8

/-- What a byte of local HBM reads as under a key that it was not written with (R66, R327). DESIGN CHOICE, log entry 8. -/
opaque foreignByte : Nat → Nat → BitVec 8

/-- Errors that a channel's ECC corrected since they were last counted, by channel and step (R49, R324).
DESIGN CHOICE, log entry 37. -/
opaque correctedErrors : Nat → Nat → Nat

/-- The high half of a handle (R91, R295): identity only. DESIGN CHOICE, log entry 13. -/
opaque handleBits : Nat → BitVec 32

/-- An accumulator element computed from poisoned data (R236). DESIGN CHOICE, log entry 48. -/
opaque poisonedValue : Nat → BitVec 64

/-- A byte of the internal part of a save area (R303), by save and offset. DESIGN CHOICE, log entry 33. -/
opaque saveByte : Nat → Nat → BitVec 8

/-- What Tollhouse's boot finds: whether the firmware verifies, the digests of the firmware, the supervisor image and the
configuration, for each boot (R323). DESIGN CHOICE, log entry 16. -/
opaque bootVerifies : Nat → Bool
opaque bootDigest : Nat → Nat → BitVec 512

/-- The place of a floating-point VSTXADD of a strip among the others of its strip: their order is not specified (R254).
DESIGN CHOICE, log entry 62. -/
opaque addRank : Nat → Nat → Nat

/-- The fuse seed, and the public key of the identity pair that FIPS 204 derives from its seed (R323). DESIGN CHOICE, log entry 16. -/
opaque fuseSeed : List (BitVec 8)
opaque identityKey : BitVec 256 → List (BitVec 8)

/-- Whether a token is the vendor's ML-DSA-87 signature over a digest (R326); the digest of the debug-unlocked event.
DESIGN CHOICE, log entry 38. -/
opaque vendorSigned : List (BitVec 8) → BitVec 512 → Bool
opaque debugDigest : Nat → BitVec 512

/-- The errors behind the change of a port's width or of a channel to FAILED, by object and Milepost record (R328): not stated where they
are counted. DESIGN CHOICE, log entry 37. -/
opaque errorsBehind : Nat → Nat → BitVec 32

/-- The bytes of an ML-DSA-87 signature under the identity key (R324): for each signed text and use.
DESIGN CHOICE, log entry 36. -/
opaque signatureByte : List (BitVec 8) → Nat → Nat → BitVec 8

end Sys2Proof.Config
end

