-- ==== Sys2Proof/Syntax.lean ====
section
/-!
DEFINITION. The operations and events of the TV-48, one constructor of `Instr` for each row of spec/opcode_table.json,
and the small types their operands have (spec/02_instruction_words.md R22 to R27; spec/95_what_each_step_holds.md).
-/

namespace Sys2Proof

/-- The type codes 0 to 12 of R24; 13 to 15 are reserved and are no type. -/
inductive Ty where
  | i8 | i16 | i32 | i64 | f16 | bf16 | f32 | f64 | e4m3 | e5m2 | e2m1 | ch8 | ch4
  deriving DecidableEq, Repr, Inhabited

/-- The scopes of ATOM, fences and groups (R25, R263). -/
inductive Scope where
  | core | clu | dev | sys
  deriving DecidableEq, Repr, Inhabited

/-- The order field of ATOM (R25). -/
inductive Order where
  | rlx | acq | rel | acqrel
  deriving DecidableEq, Repr, Inhabited

/-- The size bit of ATOM: a word of 32 bits or a dword of 64 (R25). -/
inductive Size where
  | w | d
  deriving DecidableEq, Repr, Inhabited

/-- The P bit of scalar floating point: f32 or f64 (R125). -/
inductive Prec where
  | s | d
  deriving DecidableEq, Repr, Inhabited

/-- The integer conditions of VCMP and VCMPX (R206). -/
inductive ICond where
  | eq | ne | lt | le | gt | ge | ltu | leu | gtu | geu
  deriving DecidableEq, Repr, Inhabited

/-- The floating-point conditions of VCMP and VCMPX (R206). -/
inductive FCond where
  | eq | ne | lt | le | gt | ge | un | ord
  deriving DecidableEq, Repr, Inhabited

/-- The read-modify-write members of ATOM (R277). -/
inductive AmoOp where
  | swap | add | and | or | xor | min | max | minu | maxu | cas | fadd
  deriving DecidableEq, Repr, Inhabited

/-- Where the scheduler puts a strand: a core with the lane groups of one part, or a slot of an MCC (R290). -/
structure Spot where
  cluster : Nat
  core : Nat
  slot : Nat
  lgs : BitVec 4
  mcc : Bool
  deriving DecidableEq, Repr, Inhabited

/-- A turn of a copy job: its handle, and for how many units of its data, or to its end (R83). -/
structure JobTurn where
  handle : Nat
  units : Option Nat
  deriving DecidableEq, Repr, Inhabited

/-- A turn of a matrix operation: the targets that fail their checks, and for how many k-blocks, or to its end (R242, R245). -/
structure MmaTurn where
  bad : BitVec 24
  blocks : Option Nat
  deriving DecidableEq, Repr, Inhabited

/-- A bank of a channel of a stack, and a row of it (R51). -/
structure BankAt where
  ch : Nat
  bank : Nat
  deriving DecidableEq, Repr, Inhabited

structure RowAt where
  ch : Nat
  bank : Nat
  row : Nat
  deriving DecidableEq, Repr, Inhabited

/-- An offset in a BAR of a function (R313 to R315). -/
structure BarAt where
  fn : Bool
  off : Nat
  deriving DecidableEq, Repr, Inhabited

/-- What a register write carries: its size in bytes, and its value (R314). -/
structure RegVal where
  len : Nat
  v : Word
  deriving DecidableEq, Repr, Inhabited

/-- A write of the launch port of a function (R284). -/
structure PortVal where
  fn : Bool
  pa : Word
  deriving DecidableEq, Repr, Inhabited

/-- A context named at CTXACT of a function (R319). -/
structure CtxVal where
  fn : Bool
  num : BitVec 8
  deriving DecidableEq, Repr, Inhabited

/-- The two sides of the Tollhouse mailbox (R324). -/
inductive Side where
  | host | supervisor
  deriving DecidableEq, Repr, Inhabited

/-- What a peer asks of this device over Sprinloth (R272), the write-back of a range to the array among it (R48). -/
inductive PeerOp where
  | load (pa : BitVec 52) (len : Nat)
  | store (pa : BitVec 52) (bytes : List Byte)
  | atom (op : AmoOp) (pa : BitVec 52) (z : Size) (b c : Word)
  | writeBack (pa : BitVec 52) (len : Nat)
  deriving DecidableEq, Repr, Inhabited

/-- Every row of spec/opcode_table.json: the words of the instruction set, then the events of the device, which no word
encodes. Each comment names the rule the row cites. -/
inductive Instr where
  | nop  -- NOP (R310)
  | rte  -- RTE (R310)
  | wait  -- WAIT (R310)
  | waitTimeout  -- WAIT_TIMEOUT (R310)
  | exit  -- EXIT (R310)
  | brk  -- BREAK (R310)
  | force  -- FORCE (R169)
  | convoy  -- CONVOY (R169)
  | vsync  -- VSYNC (R169)
  | vdrop (vd : Reg)  -- VDROP (R169)
  | launch (d a : Reg)  -- LAUNCH (R295)
  | tlbi (a b : Reg)  -- TLBI (R312)
  | cachewb (a b : Reg)  -- CACHEWB (R312)
  | ifence  -- IFENCE (R310)
  | trap (i : BitVec 16)  -- TRAP (R311)
  | mfs (d : Reg) (n : BitVec 11)  -- MFS (R117)
  | mts (a : Reg) (n : BitVec 11)  -- MTS (R117)
  | add (d a b : Reg)  -- ADD (R118)
  | sub (d a b : Reg)  -- SUB (R118)
  | and (d a b : Reg)  -- AND (R118)
  | or (d a b : Reg)  -- OR (R118)
  | xor (d a b : Reg)  -- XOR (R118)
  | andn (d a b : Reg)  -- ANDN (R118)
  | sll (d a b : Reg)  -- SLL (R118)
  | srl (d a b : Reg)  -- SRL (R118)
  | sra (d a b : Reg)  -- SRA (R118)
  | ror (d a b : Reg)  -- ROR (R118)
  | slt (d a b : Reg)  -- SLT (R118)
  | sltu (d a b : Reg)  -- SLTU (R118)
  | min (d a b : Reg)  -- MIN (R118)
  | max (d a b : Reg)  -- MAX (R118)
  | minu (d a b : Reg)  -- MINU (R118)
  | maxu (d a b : Reg)  -- MAXU (R118)
  | clz (d a : Reg)  -- CLZ (R118)
  | ctz (d a : Reg)  -- CTZ (R118)
  | popc (d a : Reg)  -- POPC (R118)
  | sextb (d a : Reg)  -- SEXTB (R118)
  | sexth (d a : Reg)  -- SEXTH (R118)
  | sextw (d a : Reg)  -- SEXTW (R118)
  | zextb (d a : Reg)  -- ZEXTB (R118)
  | zexth (d a : Reg)  -- ZEXTH (R118)
  | zextw (d a : Reg)  -- ZEXTW (R118)
  | bswap (d a : Reg)  -- BSWAP (R118)
  | mul (d a b : Reg)  -- MUL (R119)
  | mulh (d a b : Reg)  -- MULH (R119)
  | mulhu (d a b : Reg)  -- MULHU (R119)
  | div (d a b : Reg)  -- DIV (R119)
  | divu (d a b : Reg)  -- DIVU (R119)
  | rem (d a b : Reg)  -- REM (R119)
  | remu (d a b : Reg)  -- REMU (R119)
  | addi (d a : Reg) (i : BitVec 16)  -- ADDI (R120)
  | andi (d a : Reg) (i : BitVec 14)  -- ANDI (R120)
  | ori (d a : Reg) (i : BitVec 14)  -- ORI (R120)
  | xori (d a : Reg) (i : BitVec 14)  -- XORI (R120)
  | slli (d a : Reg) (n : BitVec 6)  -- SLLI (R120)
  | srli (d a : Reg) (n : BitVec 6)  -- SRLI (R120)
  | srai (d a : Reg) (n : BitVec 6)  -- SRAI (R120)
  | rori (d a : Reg) (n : BitVec 6)  -- RORI (R120)
  | ldz (d : Reg) (k : BitVec 2) (i : BitVec 16)  -- LDZ (R121)
  | ldk (d : Reg) (k : BitVec 2) (i : BitVec 16)  -- LDK (R121)
  | slti (d a : Reg) (i : BitVec 14)  -- SLTI (R120)
  | sltiu (d a : Reg) (i : BitVec 14)  -- SLTIU (R120)
  | ldb (d a : Reg) (i : BitVec 13)  -- LDB (R122)
  | ldbu (d a : Reg) (i : BitVec 13)  -- LDBU (R122)
  | ldh (d a : Reg) (i : BitVec 13)  -- LDH (R122)
  | ldhu (d a : Reg) (i : BitVec 13)  -- LDHU (R122)
  | ldw (d a : Reg) (i : BitVec 13)  -- LDW (R122)
  | ldwu (d a : Reg) (i : BitVec 13)  -- LDWU (R122)
  | ldd (d a : Reg) (i : BitVec 13)  -- LDD (R122)
  | stb (d a : Reg) (i : BitVec 13)  -- STB (R122)
  | sth (d a : Reg) (i : BitVec 13)  -- STH (R122)
  | stw (d a : Reg) (i : BitVec 13)  -- STW (R122)
  | std (d a : Reg) (i : BitVec 13)  -- STD (R122)
  | beqz (a : Reg) (o : BitVec 18)  -- BEQZ (R124)
  | bnez (a : Reg) (o : BitVec 18)  -- BNEZ (R124)
  | bltz (a : Reg) (o : BitVec 18)  -- BLTZ (R124)
  | bgez (a : Reg) (o : BitVec 18)  -- BGEZ (R124)
  | bgtz (a : Reg) (o : BitVec 18)  -- BGTZ (R124)
  | blez (a : Reg) (o : BitVec 18)  -- BLEZ (R124)
  | beq (a b : Reg) (o : BitVec 13)  -- BEQ (R124)
  | bne (a b : Reg) (o : BitVec 13)  -- BNE (R124)
  | blt (a b : Reg) (o : BitVec 13)  -- BLT (R124)
  | bge (a b : Reg) (o : BitVec 13)  -- BGE (R124)
  | bltu (a b : Reg) (o : BitVec 13)  -- BLTU (R124)
  | bgeu (a b : Reg) (o : BitVec 13)  -- BGEU (R124)
  | b (o : BitVec 25)  -- B (R124)
  | bl (o : BitVec 25)  -- BL (R124)
  | jr (a : Reg)  -- JR (R124)
  | jlr (d a : Reg)  -- JLR (R124)
  | amoswap (d a b : Reg) (s : Scope) (o : Order) (z : Size)  -- AMOSWAP (R277)
  | amoadd (d a b : Reg) (s : Scope) (o : Order) (z : Size)  -- AMOADD (R277)
  | amoand (d a b : Reg) (s : Scope) (o : Order) (z : Size)  -- AMOAND (R277)
  | amoor (d a b : Reg) (s : Scope) (o : Order) (z : Size)  -- AMOOR (R277)
  | amoxor (d a b : Reg) (s : Scope) (o : Order) (z : Size)  -- AMOXOR (R277)
  | amomin (d a b : Reg) (s : Scope) (o : Order) (z : Size)  -- AMOMIN (R277)
  | amomax (d a b : Reg) (s : Scope) (o : Order) (z : Size)  -- AMOMAX (R277)
  | amominu (d a b : Reg) (s : Scope) (o : Order) (z : Size)  -- AMOMINU (R277)
  | amomaxu (d a b : Reg) (s : Scope) (o : Order) (z : Size)  -- AMOMAXU (R277)
  | amocas (d a b : Reg) (s : Scope) (o : Order) (z : Size)  -- AMOCAS (R277)
  | amofadd (d a b : Reg) (s : Scope) (o : Order) (z : Size)  -- AMOFADD (R277)
  | lda (d a : Reg) (s : Scope) (o : Order) (z : Size)  -- LDA (R277)
  | stl (a b : Reg) (s : Scope) (o : Order) (z : Size)  -- STL (R277)
  | fadd (d a b : Reg) (p : Prec)  -- FADD (R128)
  | fsub (d a b : Reg) (p : Prec)  -- FSUB (R128)
  | fmul (d a b : Reg) (p : Prec)  -- FMUL (R128)
  | fdiv (d a b : Reg) (p : Prec)  -- FDIV (R128)
  | fsqrt (d a : Reg) (p : Prec)  -- FSQRT (R128)
  | fmin (d a b : Reg) (p : Prec)  -- FMIN (R128)
  | fmax (d a b : Reg) (p : Prec)  -- FMAX (R128)
  | feq (d a b : Reg) (p : Prec)  -- FEQ (R128)
  | flt (d a b : Reg) (p : Prec)  -- FLT (R128)
  | fle (d a b : Reg) (p : Prec)  -- FLE (R128)
  | fcvti (d a : Reg) (p : Prec) (u : Bool)  -- FCVTI (R128)
  | fcvtf (d a : Reg) (p : Prec) (u : Bool)  -- FCVTF (R128)
  | fcvtp (d a : Reg) (p : Prec)  -- FCVTP (R128)
  | fabs (d a : Reg) (p : Prec)  -- FABS (R128)
  | fneg (d a : Reg) (p : Prec)  -- FNEG (R128)
  | fclass (d a : Reg) (p : Prec)  -- FCLASS (R128)
  | fmac (d a b : Reg) (p : Prec)  -- FMAC (R129)
  | fnmac (d a b : Reg) (p : Prec)  -- FNMAC (R129)
  | strip (d a p : Reg) (k : BitVec 2) (z : BitVec 8)  -- STRIP (R140)
  | setvl (d a : Reg)  -- SETVL (R139)
  | setrows (d a : Reg)  -- SETROWS (R139)
  | vld (vd a : Reg) (m : Mask) (t : Ty)  -- VLD (R142)
  | vldFf (vd a : Reg) (m : Mask) (t : Ty)  -- VLD_FF (R142)
  | vldSeg (vd a b : Reg) (m : Mask) (t : Ty)  -- VLD_SEG (R142)
  | vldRow (vd a : Reg) (m : Mask) (t : Ty)  -- VLD_ROW (R142)
  | vldCol (vd a : Reg) (m : Mask) (t : Ty)  -- VLD_COL (R142)
  | vlds (vd a b : Reg) (m : Mask) (t : Ty)  -- VLDS (R143)
  | vldt (vd a b : Reg) (m : Mask) (t : Ty)  -- VLDT (R143)
  | vldx (vd a b : Reg) (m : Mask) (t : Ty)  -- VLDX (R145)
  | vldtd (vd a b : Reg) (m : Mask) (t : Ty)  -- VLDTD (R146)
  | vldz (vd a b : Reg) (m : Mask) (t : Ty)  -- VLDZ (R147)
  | vst (vs a : Reg) (q : Bool) (m : Mask) (t : Ty)  -- VST (R251)
  | vstSeg (vs a b : Reg) (q : Bool) (m : Mask) (t : Ty)  -- VST_SEG (R251)
  | vsts (vs a b : Reg) (q : Bool) (m : Mask) (t : Ty)  -- VSTS (R251)
  | vstt (vs a b : Reg) (q : Bool) (m : Mask) (t : Ty)  -- VSTT (R251)
  | vstx (vs a b : Reg) (q : Bool) (m : Mask) (t : Ty)  -- VSTX (R253)
  | vstxadd (vs a b : Reg) (q : Bool) (m : Mask) (t : Ty)  -- VSTXADD (R254)
  | vsttd (vs a b : Reg) (q : Bool) (m : Mask) (t : Ty)  -- VSTTD (R255)
  | vstc (vs a b : Reg) (q : Bool) (m : Mask) (t : Ty)  -- VSTC (R257)
  | vstcmp (vs a b : Reg) (q : Bool) (m : Mask) (t : Ty)  -- VSTCMP (R256)
  | vadd (vd va vb : Reg) (m : Mask)  -- VADD (R203)
  | vsub (vd va vb : Reg) (m : Mask)  -- VSUB (R203)
  | vmul (vd va vb : Reg) (m : Mask)  -- VMUL (R203)
  | vmulh (vd va vb : Reg) (m : Mask)  -- VMULH (R203)
  | vmulhu (vd va vb : Reg) (m : Mask)  -- VMULHU (R203)
  | vand (vd va vb : Reg) (m : Mask)  -- VAND (R203)
  | vor (vd va vb : Reg) (m : Mask)  -- VOR (R203)
  | vxor (vd va vb : Reg) (m : Mask)  -- VXOR (R203)
  | vsll (vd va vb : Reg) (m : Mask)  -- VSLL (R203)
  | vsrl (vd va vb : Reg) (m : Mask)  -- VSRL (R203)
  | vsra (vd va vb : Reg) (m : Mask)  -- VSRA (R203)
  | vmin (vd va vb : Reg) (m : Mask)  -- VMIN (R203)
  | vmax (vd va vb : Reg) (m : Mask)  -- VMAX (R203)
  | vminu (vd va vb : Reg) (m : Mask)  -- VMINU (R203)
  | vmaxu (vd va vb : Reg) (m : Mask)  -- VMAXU (R203)
  | vadds (vd va vb : Reg) (m : Mask)  -- VADDS (R203)
  | vaddsu (vd va vb : Reg) (m : Mask)  -- VADDSU (R203)
  | vsubs (vd va vb : Reg) (m : Mask)  -- VSUBS (R203)
  | vsubsu (vd va vb : Reg) (m : Mask)  -- VSUBSU (R203)
  | vabs (vd va : Reg) (m : Mask)  -- VABS (R203)
  | vneg (vd va : Reg) (m : Mask)  -- VNEG (R203)
  | vnot (vd va : Reg) (m : Mask)  -- VNOT (R203)
  | vpopc (vd va : Reg) (m : Mask)  -- VPOPC (R203)
  | vclz (vd va : Reg) (m : Mask)  -- VCLZ (R203)
  | vaddVintx (vd va vb : Reg) (m : Mask)  -- VADD_VINTX (R203)
  | vsubVintx (vd va vb : Reg) (m : Mask)  -- VSUB_VINTX (R203)
  | vmulVintx (vd va vb : Reg) (m : Mask)  -- VMUL_VINTX (R203)
  | vmulhVintx (vd va vb : Reg) (m : Mask)  -- VMULH_VINTX (R203)
  | vmulhuVintx (vd va vb : Reg) (m : Mask)  -- VMULHU_VINTX (R203)
  | vandVintx (vd va vb : Reg) (m : Mask)  -- VAND_VINTX (R203)
  | vorVintx (vd va vb : Reg) (m : Mask)  -- VOR_VINTX (R203)
  | vxorVintx (vd va vb : Reg) (m : Mask)  -- VXOR_VINTX (R203)
  | vsllVintx (vd va vb : Reg) (m : Mask)  -- VSLL_VINTX (R203)
  | vsrlVintx (vd va vb : Reg) (m : Mask)  -- VSRL_VINTX (R203)
  | vsraVintx (vd va vb : Reg) (m : Mask)  -- VSRA_VINTX (R203)
  | vminVintx (vd va vb : Reg) (m : Mask)  -- VMIN_VINTX (R203)
  | vmaxVintx (vd va vb : Reg) (m : Mask)  -- VMAX_VINTX (R203)
  | vminuVintx (vd va vb : Reg) (m : Mask)  -- VMINU_VINTX (R203)
  | vmaxuVintx (vd va vb : Reg) (m : Mask)  -- VMAXU_VINTX (R203)
  | vaddsVintx (vd va vb : Reg) (m : Mask)  -- VADDS_VINTX (R203)
  | vaddsuVintx (vd va vb : Reg) (m : Mask)  -- VADDSU_VINTX (R203)
  | vsubsVintx (vd va vb : Reg) (m : Mask)  -- VSUBS_VINTX (R203)
  | vsubsuVintx (vd va vb : Reg) (m : Mask)  -- VSUBSU_VINTX (R203)
  | vfadd (vd va vb : Reg) (m : Mask)  -- VFADD (R204)
  | vfsub (vd va vb : Reg) (m : Mask)  -- VFSUB (R204)
  | vfmul (vd va vb : Reg) (m : Mask)  -- VFMUL (R204)
  | vfdiv (vd va vb : Reg) (m : Mask)  -- VFDIV (R204)
  | vfmin (vd va vb : Reg) (m : Mask)  -- VFMIN (R204)
  | vfmax (vd va vb : Reg) (m : Mask)  -- VFMAX (R204)
  | vfabs (vd va : Reg) (m : Mask)  -- VFABS (R204)
  | vfneg (vd va : Reg) (m : Mask)  -- VFNEG (R204)
  | vfsqrt (vd va : Reg) (m : Mask)  -- VFSQRT (R204)
  | vfrcp (vd va : Reg) (m : Mask)  -- VFRCP (R204)
  | vfrsq (vd va : Reg) (m : Mask)  -- VFRSQ (R204)
  | vfexp2 (vd va : Reg) (m : Mask)  -- VFEXP2 (R204)
  | vflog2 (vd va : Reg) (m : Mask)  -- VFLOG2 (R204)
  | vfsgnj (vd va vb : Reg) (m : Mask)  -- VFSGNJ (R204)
  | vfrint (vd va : Reg) (m : Mask)  -- VFRINT (R204)
  | vfaddVfpx (vd va vb : Reg) (m : Mask)  -- VFADD_VFPX (R204)
  | vfsubVfpx (vd va vb : Reg) (m : Mask)  -- VFSUB_VFPX (R204)
  | vfmulVfpx (vd va vb : Reg) (m : Mask)  -- VFMUL_VFPX (R204)
  | vfdivVfpx (vd va vb : Reg) (m : Mask)  -- VFDIV_VFPX (R204)
  | vfminVfpx (vd va vb : Reg) (m : Mask)  -- VFMIN_VFPX (R204)
  | vfmaxVfpx (vd va vb : Reg) (m : Mask)  -- VFMAX_VFPX (R204)
  | vfsgnjVfpx (vd va vb : Reg) (m : Mask)  -- VFSGNJ_VFPX (R204)
  | vfma (vd va vb vc : Reg) (m : Mask)  -- VFMA (R205)
  | vfms (vd va vb vc : Reg) (m : Mask)  -- VFMS (R205)
  | vfnma (vd va vb vc : Reg) (m : Mask)  -- VFNMA (R205)
  | vfnms (vd va vb vc : Reg) (m : Mask)  -- VFNMS (R205)
  | vcmpInt (pd va vb : Reg) (m : Mask) (c : ICond)  -- VCMP_INT (R206)
  | vcmpFp (pd va vb : Reg) (m : Mask) (c : FCond)  -- VCMP_FP (R206)
  | vcmpxInt (pd va vb : Reg) (m : Mask) (c : ICond)  -- VCMPX_INT (R206)
  | vcmpxFp (pd va vb : Reg) (m : Mask) (c : FCond)  -- VCMPX_FP (R206)
  | vcvtRnd (vd va : Reg) (t : Ty) (m : Mask)  -- VCVT_RND (R207)
  | vcvtSr (vd va : Reg) (t : Ty) (m : Mask)  -- VCVT_SR (R207)
  | vcvtRtz (vd va : Reg) (t : Ty) (m : Mask)  -- VCVT_RTZ (R207)
  | vcvtSat (vd va : Reg) (t : Ty) (m : Mask)  -- VCVT_SAT (R207)
  | vcvtF4 (vd va : Reg) (m : Mask)  -- VCVT_F4 (R207)
  | vcvtF4sr (vd va : Reg) (m : Mask)  -- VCVT_F4SR (R207)
  | vmov (vd va : Reg) (m : Mask)  -- VMOV (R208)
  | vbcast (vd : Reg) (t : Ty) (b : Reg) (m : Mask)  -- VBCAST (R208)
  | vsel (vd va vb : Reg) (m : Reg)  -- VSEL (R209)
  | vslide (vd va vb : Reg) (m : Mask)  -- VSLIDE (R222)
  | vperm (vd va vb : Reg) (m : Mask)  -- VPERM (R222)
  | vscansum (vd va : Reg) (m : Mask)  -- VSCANSUM (R223)
  | vreint (vd va : Reg) (t : Ty) (m : Mask)  -- VREINT (R208)
  | vrand (vd : Reg) (m : Mask)  -- VRAND (R196)
  | vrandf (vd : Reg) (m : Mask)  -- VRANDF (R196)
  | vidx (vd : Reg) (start : BitVec 11) (step : BitVec 10)  -- VIDX (R210)
  | pand (pd pa pb : Reg)  -- PAND (R224)
  | por (pd pa pb : Reg)  -- POR (R224)
  | pxor (pd pa pb : Reg)  -- PXOR (R224)
  | pandn (pd pa pb : Reg)  -- PANDN (R224)
  | pnot (pd pa : Reg)  -- PNOT (R224)
  | pset (pd : Reg)  -- PSET (R224)
  | pclr (pd : Reg)  -- PCLR (R224)
  | pmov (pd pa : Reg)  -- PMOV (R224)
  | vredsum (d va : Reg) (m : Mask) (q : Bool)  -- VREDSUM (R214)
  | vredsumt (d va : Reg) (m : Mask) (q : Bool)  -- VREDSUMT (R216)
  | vredmax (d va : Reg) (m : Mask) (q : Bool)  -- VREDMAX (R215)
  | vredmin (d va : Reg) (m : Mask) (q : Bool)  -- VREDMIN (R215)
  | vredmaxu (d va : Reg) (m : Mask) (q : Bool)  -- VREDMAXU (R215)
  | vredminu (d va : Reg) (m : Mask) (q : Bool)  -- VREDMINU (R215)
  | vredand (d va : Reg) (m : Mask) (q : Bool)  -- VREDAND (R215)
  | vredor (d va : Reg) (m : Mask) (q : Bool)  -- VREDOR (R215)
  | vredxor (d va : Reg) (m : Mask) (q : Bool)  -- VREDXOR (R215)
  | vredrow (d va : Reg) (m : Mask) (q : Bool)  -- VREDROW (R219)
  | vredrowmax (d va : Reg) (m : Mask) (q : Bool)  -- VREDROWMAX (R219)
  | vffs (d va : Reg) (m : Mask) (q : Bool)  -- VFFS (R218)
  | vpop (d va : Reg) (m : Mask) (q : Bool)  -- VPOP (R218)
  | mma (d a b : Reg)  -- MMA (R245)
  | mzero (d b : Reg)  -- MZERO (R246)
  | msync (d a : Reg)  -- MSYNC (R246)
  | mtarget (a : Reg)  -- MTARGET (R246)
  | mshape (a b : Reg)  -- MSHAPE (R246)
  | mslot (d a b : Reg)  -- MSLOT (R246)
  | barArrive (g : Fin 4)  -- BAR_ARRIVE (R280)
  | barWait (g : Fin 4)  -- BAR_WAIT (R280)
  | barTest (g : Fin 4)  -- BAR_TEST (R280)
  | fenceC  -- FENCE_C (R279)
  | fenceK  -- FENCE_K (R279)
  | fenceD  -- FENCE_D (R279)
  | fenceS  -- FENCE_S (R279)
  | xcopy (d a : Reg)  -- XCOPY (R91)
  | xwait (d a : Reg)  -- XWAIT (R91)
  | xpoll (d a : Reg)  -- XPOLL (R91)
  | xcancel (a : Reg)  -- XCANCEL (R91)
  | tdinv (a : Reg)  -- TDINV (R188)
  | tdinvall  -- TDINVALL (R188)
  | passStart  -- PASS_START (R152)
  | stripCommit (p : Nat)  -- STRIP_COMMIT (R161)
  | passComplete  -- PASS_COMPLETE (R161)
  | laneError (p core lg lane : Nat)  -- LANE_ERROR (R306)
  | clusterRenumber (c : Nat)  -- CLUSTER_RENUMBER (R308)
  | clusterRetirement (c : Nat)  -- CLUSTER_RETIREMENT (R309)
  | deferredTrap  -- DEFERRED_TRAP (R166)
  | interrupt  -- INTERRUPT (R302)
  | laneRetirementNotice  -- LANE_RETIREMENT_NOTICE (R302)
  | arrivalMarkerFire  -- ARRIVAL_MARKER_FIRE (R274)
  | jobStart (c : Nat) (x : JobTurn)  -- JOB_START (R81)
  | jobComplete (c h : Nat)  -- JOB_COMPLETE (R84)
  | mmaExecute (c : Nat) (x : MmaTurn)  -- MMA_EXECUTE (R245)
  | mmaComplete (c : Nat)  -- MMA_COMPLETE (R239)
  | slotPeriod  -- SLOT_PERIOD (R244)
  | rowActivationAlert (stack : Nat) (x : RowAt)  -- ROW_ACTIVATION_ALERT (R51)
  | backoffEnd (stack : Nat) (x : BankAt)  -- BACKOFF_END (R51)
  | activationWindowRelease (stack : Nat)  -- ACTIVATION_WINDOW_RELEASE (R52)
  | channelPredicted (stack ch : Nat)  -- CHANNEL_PREDICTED (R56)
  | channelFailed (stack ch : Nat)  -- CHANNEL_FAILED (R56)
  | failedChannelRetirement (stack ch : Nat)  -- FAILED_CHANNEL_RETIREMENT (R57)
  | migrationWindowStall (w : Nat)  -- MIGRATION_WINDOW_STALL (R59)
  | migrationWindowSwitch (w : Nat)  -- MIGRATION_WINDOW_SWITCH (R59)
  | launchPortWrite (x : PortVal)  -- LAUNCH_PORT_WRITE (R284)
  | launchAccept  -- LAUNCH_ACCEPT (R283)
  | waitConditionPoll (l : Nat)  -- WAIT_CONDITION_POLL (R285)
  | priorityAging (l : Nat)  -- PRIORITY_AGING (R292)
  | strandPlacement (l : Nat) (places : List Spot)  -- STRAND_PLACEMENT (R290)
  | preemption  -- PREEMPTION (R293)
  | strandRestore (place : Spot)  -- STRAND_RESTORE (R303)
  | launchComplete (l : Nat)  -- LAUNCH_COMPLETE (R286)
  | hostBar2Read (x : BarAt) (len : Nat)  -- HOST_BAR2_READ (R315)
  | hostBar2Write (x : BarAt) (bytes : List Byte)  -- HOST_BAR2_WRITE (R315)
  | ctxactActivate (x : CtxVal)  -- CTXACT_ACTIVATE (R319)
  | ctxactDeactivate (x : CtxVal)  -- CTXACT_DEACTIVATE (R319)
  | registerWrite (x : BarAt) (v : RegVal)  -- REGISTER_WRITE (R314)
  | attest (side : Side)  -- ATTEST (R324)
  | milepost (side : Side)  -- MILEPOST (R324)
  | raslog (side : Side)  -- RASLOG (R324)
  | powermode (side : Side)  -- POWERMODE (R330)
  | tenantkey (side : Side)  -- TENANTKEY (R324)
  | chanret (side : Side)  -- CHANRET (R58)
  | debugunlock (side : Side)  -- DEBUGUNLOCK (R326)
  | mailboxCtxact (side : Side)  -- MAILBOX_CTXACT (R319)
  | extend (side : Side)  -- EXTEND (R323)
  | priResponse (k : Nat) (frame : Option (BitVec 52))  -- PRI_RESPONSE (R316)
  | priTimeout (k : Nat)  -- PRI_TIMEOUT (R316)
  | atsInvalidation (pasid : BitVec 20) (page : Option (BitVec 48))  -- ATS_INVALIDATION (R316)
  | ideInsecure (fn : Bool)  -- IDE_INSECURE (R318)
  | peerAccess (a : PeerOp)  -- PEER_ACCESS (R272)
  | peerErrorCompletion (peer : BitVec 12)  -- PEER_ERROR_COMPLETION (R322)
  | peerTimeout (peer : BitVec 12)  -- PEER_TIMEOUT (R322)
  | linkTraining (domain : BitVec 12)  -- LINK_TRAINING (R320)
  | portWidthChange (port : Nat)  -- PORT_WIDTH_CHANGE (R321)
  | lifecycleFuse (retire : Bool)  -- LIFECYCLE_FUSE (R325)
  | coldReset  -- COLD_RESET (R331)
  | warmReset  -- WARM_RESET (R331)
  | illegalInstruction (w : IWord)  -- ILLEGAL_INSTRUCTION (R29)
  | emulationTrap (w : IWord)  -- EMULATION_TRAP (R30)
  | mccFailure (c : Nat)  -- MCC_FAILURE (R309)
  | hostUnsupportedRequest  -- HOST_UNSUPPORTED_REQUEST (R278)
  | ideKm (fn : Bool) (stream : Fin 5)  -- IDE_KM (R318)
  | debuggerHalt (c core : Nat) (lgs : BitVec 4)  -- DEBUGGER_HALT (R75)
  | powerGating (c core : Nat)  -- POWER_GATING (R75)
  deriving DecidableEq, Repr

end Sys2Proof
end

