-- ==== Sys2Proof/WellFormed.lean ====
section
/-!
DEFINITION. Which terms of `Instr` are instructions: the limits that the encodings of spec/02_instruction_words.md (R23 to R29)
and the entries (R111, R277) put on operands, and the ranges of an event's operands.
-/

namespace Sys2Proof

/-- The number of a type code (R24). -/
def Ty.toNat (t : Ty) : Nat :=
  match t with
  | .i8 => 0 | .i16 => 1 | .i32 => 2 | .i64 => 3 | .f16 => 4 | .bf16 => 5 | .f32 => 6 | .f64 => 7
  | .e4m3 => 8 | .e5m2 => 9 | .e2m1 => 10 | .ch8 => 11 | .ch4 => 12

/-- The type of a code; 13 to 15 are reserved (R24). -/
def Ty.ofCode (n : Nat) : Option Ty :=
  match n with
  | 0 => some .i8 | 1 => some .i16 | 2 => some .i32 | 3 => some .i64 | 4 => some .f16 | 5 => some .bf16 | 6 => some .f32
  | 7 => some .f64 | 8 => some .e4m3 | 9 => some .e5m2 | 10 => some .e2m1 | 11 => some .ch8 | 12 => some .ch4
  | _ => none

/-- A type code as a register field. -/
def Ty.reg (t : Ty) : Reg := Fin.ofNat 32 t.toNat

/-- Types 0 to 10 (R26). -/
def Ty.plain (t : Ty) : Bool := decide (t.toNat ≤ 10)

/-- Types 11 and 12 (R26). -/
def Ty.chanter (t : Ty) : Bool := decide (11 ≤ t.toNat)

/-- Types 0 to 12 (R26). -/
def Ty.any (_ : Ty) : Bool := true

/-- The number of a scope (R25). -/
def Scope.toNat (s : Scope) : Nat :=
  match s with | .core => 0 | .clu => 1 | .dev => 2 | .sys => 3

/-- The scope of a number (R25). -/
def Scope.ofCode (n : Nat) : Scope :=
  match n with | 0 => .core | 1 => .clu | 2 => .dev | _ => .sys

/-- The number of an order (R25). -/
def Order.toNat (o : Order) : Nat :=
  match o with | .rlx => 0 | .acq => 1 | .rel => 2 | .acqrel => 3

/-- The order of a number (R25). -/
def Order.ofCode (n : Nat) : Order :=
  match n with | 0 => .rlx | 1 => .acq | 2 => .rel | _ => .acqrel

/-- LDA takes only .rlx or .acq (R277). -/
def Order.ldaOk (o : Order) : Bool := o == .rlx || o == .acq

/-- STL takes only .rlx or .rel (R277). -/
def Order.stlOk (o : Order) : Bool := o == .rlx || o == .rel

/-- The number of an integer condition (R206). -/
def ICond.toNat (c : ICond) : Nat :=
  match c with
  | .eq => 0 | .ne => 1 | .lt => 2 | .le => 3 | .gt => 4 | .ge => 5 | .ltu => 6 | .leu => 7 | .gtu => 8 | .geu => 9

/-- The integer condition of a number (R206). -/
def ICond.ofCode (n : Nat) : Option ICond :=
  match n with
  | 0 => some .eq | 1 => some .ne | 2 => some .lt | 3 => some .le | 4 => some .gt | 5 => some .ge
  | 6 => some .ltu | 7 => some .leu | 8 => some .gtu | 9 => some .geu | _ => none

/-- The number of a floating-point condition (R206). -/
def FCond.toNat (c : FCond) : Nat :=
  match c with
  | .eq => 0 | .ne => 1 | .lt => 2 | .le => 3 | .gt => 4 | .ge => 5 | .un => 6 | .ord => 7

/-- The floating-point condition of a number (R206). -/
def FCond.ofCode (n : Nat) : Option FCond :=
  match n with
  | 0 => some .eq | 1 => some .ne | 2 => some .lt | 3 => some .le | 4 => some .gt | 5 => some .ge
  | 6 => some .un | 7 => some .ord | _ => none

/-- The state numbers of the table State registers (R110, R111). -/
def stateListed (n : Nat) : Bool := decide (n ≤ 0x011) || (decide (0x100 ≤ n) && decide (n ≤ 0x10F))

/-- The state numbers whose Access is RW (R110, R111). -/
def stateWritable (n : Nat) : Bool :=
  n == 0x003 || (decide (0x005 ≤ n) && decide (n ≤ 0x009)) || (decide (0x100 ≤ n) && decide (n ≤ 0x10F))

/-- A segment of 2 to 8 fields whose last name is at most v31 (R26, R29). -/
def segOk (v b : Reg) : Bool := decide (2 ≤ b.val) && decide (b.val ≤ 8) && decide (v.val + b.val - 1 ≤ 31)

/-- A place that the part has: cluster 0 to 11, core 0 to 23, slot 0 to 3, and for a core the lane groups of one part (R15). -/
def Spot.ok (x : Spot) : Bool :=
  decide (x.cluster < 12) && decide (x.core < 24) && decide (x.slot < 4) &&
  (x.mcc || x.lgs == 15 || x.lgs == 3 || x.lgs == 12 || x.lgs == 1 || x.lgs == 2 || x.lgs == 4 || x.lgs == 8)

/-- The well-formed instructions and events. -/
def wellFormed (i : Instr) : Bool :=
  match i with
  | .nop => true
  | .rte => true
  | .wait => true
  | .waitTimeout => true
  | .exit => true
  | .brk => true
  | .force => true
  | .convoy => true
  | .vsync => true
  | .vdrop _ => true
  | .launch _ _ => true
  | .tlbi _ _ => true
  | .cachewb _ _ => true
  | .ifence => true
  | .trap _ => true
  | .mfs _ n => stateListed n.toNat
  | .mts _ n => stateWritable n.toNat
  | .add _ _ _ => true
  | .sub _ _ _ => true
  | .and _ _ _ => true
  | .or _ _ _ => true
  | .xor _ _ _ => true
  | .andn _ _ _ => true
  | .sll _ _ _ => true
  | .srl _ _ _ => true
  | .sra _ _ _ => true
  | .ror _ _ _ => true
  | .slt _ _ _ => true
  | .sltu _ _ _ => true
  | .min _ _ _ => true
  | .max _ _ _ => true
  | .minu _ _ _ => true
  | .maxu _ _ _ => true
  | .clz _ _ => true
  | .ctz _ _ => true
  | .popc _ _ => true
  | .sextb _ _ => true
  | .sexth _ _ => true
  | .sextw _ _ => true
  | .zextb _ _ => true
  | .zexth _ _ => true
  | .zextw _ _ => true
  | .bswap _ _ => true
  | .mul _ _ _ => true
  | .mulh _ _ _ => true
  | .mulhu _ _ _ => true
  | .div _ _ _ => true
  | .divu _ _ _ => true
  | .rem _ _ _ => true
  | .remu _ _ _ => true
  | .addi _ _ _ => true
  | .andi _ _ _ => true
  | .ori _ _ _ => true
  | .xori _ _ _ => true
  | .slli _ _ _ => true
  | .srli _ _ _ => true
  | .srai _ _ _ => true
  | .rori _ _ _ => true
  | .ldz _ _ _ => true
  | .ldk _ _ _ => true
  | .slti _ _ _ => true
  | .sltiu _ _ _ => true
  | .ldb _ _ _ => true
  | .ldbu _ _ _ => true
  | .ldh _ _ _ => true
  | .ldhu _ _ _ => true
  | .ldw _ _ _ => true
  | .ldwu _ _ _ => true
  | .ldd _ _ _ => true
  | .stb _ _ _ => true
  | .sth _ _ _ => true
  | .stw _ _ _ => true
  | .std _ _ _ => true
  | .beqz _ _ => true
  | .bnez _ _ => true
  | .bltz _ _ => true
  | .bgez _ _ => true
  | .bgtz _ _ => true
  | .blez _ _ => true
  | .beq _ _ _ => true
  | .bne _ _ _ => true
  | .blt _ _ _ => true
  | .bge _ _ _ => true
  | .bltu _ _ _ => true
  | .bgeu _ _ _ => true
  | .b _ => true
  | .bl _ => true
  | .jr _ => true
  | .jlr _ _ => true
  | .amoswap _ _ _ _ _ _ => true
  | .amoadd _ _ _ _ _ _ => true
  | .amoand _ _ _ _ _ _ => true
  | .amoor _ _ _ _ _ _ => true
  | .amoxor _ _ _ _ _ _ => true
  | .amomin _ _ _ _ _ _ => true
  | .amomax _ _ _ _ _ _ => true
  | .amominu _ _ _ _ _ _ => true
  | .amomaxu _ _ _ _ _ _ => true
  | .amocas _ _ _ _ _ _ => true
  | .amofadd _ _ _ _ _ _ => true
  | .lda _ _ _ o _ => o.ldaOk
  | .stl _ _ _ o _ => o.stlOk
  | .fadd _ _ _ _ => true
  | .fsub _ _ _ _ => true
  | .fmul _ _ _ _ => true
  | .fdiv _ _ _ _ => true
  | .fsqrt _ _ _ => true
  | .fmin _ _ _ _ => true
  | .fmax _ _ _ _ => true
  | .feq _ _ _ _ => true
  | .flt _ _ _ _ => true
  | .fle _ _ _ _ => true
  | .fcvti _ _ _ _ => true
  | .fcvtf _ _ _ _ => true
  | .fcvtp _ _ _ => true
  | .fabs _ _ _ => true
  | .fneg _ _ _ => true
  | .fclass _ _ _ => true
  | .fmac _ _ _ _ => true
  | .fnmac _ _ _ _ => true
  | .strip _ _ p k z => p.val + k.toNat ≤ 31 && z.toNat / 4 ^ (k.toNat + 1) == 0
  | .setvl _ _ => true
  | .setrows _ _ => true
  | .vld _ _ _ t => t.plain
  | .vldFf _ _ _ t => t.plain
  | .vldSeg vd _ b _ t => t.plain && segOk vd b
  | .vldRow _ _ _ t => t.plain
  | .vldCol _ _ _ t => t.plain
  | .vlds _ _ _ _ t => t.plain
  | .vldt _ _ _ _ t => t.plain
  | .vldx _ _ _ _ _ => true
  | .vldtd _ _ _ _ _ => true
  | .vldz _ _ _ _ _ => true
  | .vst _ _ _ _ t => t.plain
  | .vstSeg vs _ b _ _ t => t.plain && segOk vs b
  | .vsts _ _ _ _ _ t => t.plain
  | .vstt _ _ _ _ _ t => t.plain
  | .vstx _ _ _ _ _ t => t.plain
  | .vstxadd _ _ _ _ _ t => t.plain
  | .vsttd _ _ _ _ _ t => t.plain
  | .vstc _ _ _ _ _ t => t.chanter
  | .vstcmp _ _ _ _ _ t => t.plain
  | .vadd _ _ _ _ => true
  | .vsub _ _ _ _ => true
  | .vmul _ _ _ _ => true
  | .vmulh _ _ _ _ => true
  | .vmulhu _ _ _ _ => true
  | .vand _ _ _ _ => true
  | .vor _ _ _ _ => true
  | .vxor _ _ _ _ => true
  | .vsll _ _ _ _ => true
  | .vsrl _ _ _ _ => true
  | .vsra _ _ _ _ => true
  | .vmin _ _ _ _ => true
  | .vmax _ _ _ _ => true
  | .vminu _ _ _ _ => true
  | .vmaxu _ _ _ _ => true
  | .vadds _ _ _ _ => true
  | .vaddsu _ _ _ _ => true
  | .vsubs _ _ _ _ => true
  | .vsubsu _ _ _ _ => true
  | .vabs _ _ _ => true
  | .vneg _ _ _ => true
  | .vnot _ _ _ => true
  | .vpopc _ _ _ => true
  | .vclz _ _ _ => true
  | .vaddVintx _ _ _ _ => true
  | .vsubVintx _ _ _ _ => true
  | .vmulVintx _ _ _ _ => true
  | .vmulhVintx _ _ _ _ => true
  | .vmulhuVintx _ _ _ _ => true
  | .vandVintx _ _ _ _ => true
  | .vorVintx _ _ _ _ => true
  | .vxorVintx _ _ _ _ => true
  | .vsllVintx _ _ _ _ => true
  | .vsrlVintx _ _ _ _ => true
  | .vsraVintx _ _ _ _ => true
  | .vminVintx _ _ _ _ => true
  | .vmaxVintx _ _ _ _ => true
  | .vminuVintx _ _ _ _ => true
  | .vmaxuVintx _ _ _ _ => true
  | .vaddsVintx _ _ _ _ => true
  | .vaddsuVintx _ _ _ _ => true
  | .vsubsVintx _ _ _ _ => true
  | .vsubsuVintx _ _ _ _ => true
  | .vfadd _ _ _ _ => true
  | .vfsub _ _ _ _ => true
  | .vfmul _ _ _ _ => true
  | .vfdiv _ _ _ _ => true
  | .vfmin _ _ _ _ => true
  | .vfmax _ _ _ _ => true
  | .vfabs _ _ _ => true
  | .vfneg _ _ _ => true
  | .vfsqrt _ _ _ => true
  | .vfrcp _ _ _ => true
  | .vfrsq _ _ _ => true
  | .vfexp2 _ _ _ => true
  | .vflog2 _ _ _ => true
  | .vfsgnj _ _ _ _ => true
  | .vfrint _ _ _ => true
  | .vfaddVfpx _ _ _ _ => true
  | .vfsubVfpx _ _ _ _ => true
  | .vfmulVfpx _ _ _ _ => true
  | .vfdivVfpx _ _ _ _ => true
  | .vfminVfpx _ _ _ _ => true
  | .vfmaxVfpx _ _ _ _ => true
  | .vfsgnjVfpx _ _ _ _ => true
  | .vfma _ _ _ _ _ => true
  | .vfms _ _ _ _ _ => true
  | .vfnma _ _ _ _ _ => true
  | .vfnms _ _ _ _ _ => true
  | .vcmpInt _ _ _ _ _ => true
  | .vcmpFp _ _ _ _ _ => true
  | .vcmpxInt _ _ _ _ _ => true
  | .vcmpxFp _ _ _ _ _ => true
  | .vcvtRnd _ _ _ _ => true
  | .vcvtSr _ _ _ _ => true
  | .vcvtRtz _ _ _ _ => true
  | .vcvtSat _ _ _ _ => true
  | .vcvtF4 _ _ _ => true
  | .vcvtF4sr _ _ _ => true
  | .vmov _ _ _ => true
  | .vbcast _ _ _ _ => true
  | .vsel _ _ _ _ => true
  | .vslide _ _ _ _ => true
  | .vperm _ _ _ _ => true
  | .vscansum _ _ _ => true
  | .vreint _ _ _ _ => true
  | .vrand _ _ => true
  | .vrandf _ _ => true
  | .vidx _ _ _ => true
  | .pand _ _ _ => true
  | .por _ _ _ => true
  | .pxor _ _ _ => true
  | .pandn _ _ _ => true
  | .pnot _ _ => true
  | .pset _ => true
  | .pclr _ => true
  | .pmov _ _ => true
  | .vredsum _ _ _ _ => true
  | .vredsumt _ _ _ _ => true
  | .vredmax _ _ _ _ => true
  | .vredmin _ _ _ _ => true
  | .vredmaxu _ _ _ _ => true
  | .vredminu _ _ _ _ => true
  | .vredand _ _ _ _ => true
  | .vredor _ _ _ _ => true
  | .vredxor _ _ _ _ => true
  | .vredrow _ _ _ _ => true
  | .vredrowmax _ _ _ _ => true
  | .vffs _ _ _ _ => true
  | .vpop _ _ _ _ => true
  | .mma _ _ _ => true
  | .mzero _ _ => true
  | .msync _ _ => true
  | .mtarget _ => true
  | .mshape _ _ => true
  | .mslot _ _ _ => true
  | .barArrive _ => true
  | .barWait _ => true
  | .barTest _ => true
  | .fenceC => true
  | .fenceK => true
  | .fenceD => true
  | .fenceS => true
  | .xcopy _ _ => true
  | .xwait _ _ => true
  | .xpoll _ _ => true
  | .xcancel _ => true
  | .tdinv _ => true
  | .tdinvall => true
  | .passStart => true
  | .stripCommit _ => true
  | .passComplete => true
  | .laneError _ core lg lane => decide (core < 24) && decide (lg < 4) && decide (lane < 8)
  | .clusterRenumber c => decide (c < 12)
  | .clusterRetirement c => decide (c < 12)
  | .deferredTrap => true
  | .interrupt => true
  | .laneRetirementNotice => true
  | .arrivalMarkerFire => true
  | .jobStart c _ => decide (c < 12)
  | .jobComplete c _ => decide (c < 12)
  | .mmaExecute c _ => decide (c < 12)
  | .mmaComplete c => decide (c < 12)
  | .slotPeriod => true
  | .rowActivationAlert st x => decide (st < 12) && decide (x.ch < 32)
  | .backoffEnd st x => decide (st < 12) && decide (x.ch < 32)
  | .activationWindowRelease st => decide (st < 12)
  | .channelPredicted st ch => decide (st < 12) && decide (ch < 32)
  | .channelFailed st ch => decide (st < 12) && decide (ch < 32)
  | .failedChannelRetirement st ch => decide (st < 12) && decide (ch < 32)
  | .migrationWindowStall _ => true
  | .migrationWindowSwitch _ => true
  | .launchPortWrite _ => true
  | .launchAccept => true
  | .waitConditionPoll _ => true
  | .priorityAging _ => true
  | .strandPlacement _ xs => !xs.isEmpty && xs.all Spot.ok
  | .preemption => true
  | .strandRestore x => x.ok
  | .launchComplete _ => true
  | .hostBar2Read _ len => decide (0 < len)
  | .hostBar2Write _ bs => !bs.isEmpty
  | .ctxactActivate _ => true
  | .ctxactDeactivate _ => true
  | .registerWrite _ _ => true
  | .attest _ => true
  | .milepost _ => true
  | .raslog _ => true
  | .powermode _ => true
  | .tenantkey _ => true
  | .chanret _ => true
  | .debugunlock _ => true
  | .mailboxCtxact _ => true
  | .extend _ => true
  | .priResponse _ _ => true
  | .priTimeout _ => true
  | .atsInvalidation _ _ => true
  | .ideInsecure _ => true
  | .peerAccess _ => true
  | .peerErrorCompletion _ => true
  | .peerTimeout _ => true
  | .linkTraining _ => true
  | .portWidthChange p => decide (p < 18)
  | .lifecycleFuse _ => true
  | .coldReset => true
  | .warmReset => true
  | .illegalInstruction _ => true
  | .emulationTrap _ => true
  | .mccFailure c => decide (c < 12)
  | .hostUnsupportedRequest => true
  | .ideKm _ _ => true
  | .debuggerHalt c k _ => decide (c < 12) && decide (k < 24)
  | .powerGating c k => decide (c < 12) && decide (k < 24)

end Sys2Proof
end

