-- ==== Sys2Proof/Decode.lean ====
section
/-!
DEFINITION. The decoder of instruction words, total, each word that is no instruction refused by name (R29, R30), and after it
the encoder, from the same tables (spec/02_instruction_words.md R22 to R30; spec/07 to spec/18 for the entries' encodings).
-/

namespace Sys2Proof

/-- Why a word is no instruction. Every name but `extension` is a case of R29; `extension n` is R30. -/
inductive DecodeError where
  | reservedMajor | unlistedMember | mustBeZero | reservedType | typeNotAllowed | badForm | lastName
  | targetNotE2m1 | maskRequired | badSlot | badOrder | unlistedState
  | extension (n : Nat)
  | tooShort
  deriving DecidableEq, Repr

/-- A register, vector or predicate number from the low five bits of `n`. -/
def reg (n : Nat) : Reg := Fin.ofNat 32 n

/-- The rest `k`, provided that the register field `x` is zero (MBZ, R29). -/
def mbz (x : Reg) (k : Except DecodeError Instr) : Except DecodeError Instr :=
  if x.val = 0 then k else .error .mustBeZero

/-- The rest `k`, provided that the field `x` is zero. -/
def mbzN (x : Nat) (k : Except DecodeError Instr) : Except DecodeError Instr :=
  if x = 0 then k else .error .mustBeZero

/-- ME and M (R23): with ME = 0, M must be zero. -/
def withMask (me m : Nat) (k : Mask → Except DecodeError Instr) : Except DecodeError Instr :=
  if me = 1 then k (some (reg m)) else if m = 0 then k none else .error .mustBeZero

/-- A group slot in B, 0 to 3 (R29). -/
def withSlot (b : Reg) (k : Fin 4 → Except DecodeError Instr) : Except DecodeError Instr :=
  if h : b.val < 4 then k ⟨b.val, h⟩ else .error .badSlot

/-- SYS (R25, major 0x00). -/
def decSys (d a b : Reg) (f : Nat) : Except DecodeError Instr :=
  match f with
  | 1 => mbz d (mbz a (mbz b (.ok .nop)))
  | 2 => mbz d (mbz a (mbz b (.ok .rte)))
  | 3 => mbz d (mbz a (mbz b (.ok .wait)))
  | 4 => mbz d (mbz a (mbz b (.ok .exit)))
  | 5 => mbz d (mbz a (mbz b (.ok .brk)))
  | 6 => mbz d (mbz a (mbz b (.ok .force)))
  | 7 => mbz d (mbz a (mbz b (.ok .convoy)))
  | 8 => mbz d (mbz a (mbz b (.ok .vsync)))
  | 9 => mbz a (mbz b (.ok (.vdrop d)))
  | 10 => mbz b (.ok (.launch d a))
  | 11 => mbz d (.ok (.tlbi a b))
  | 12 => mbz d (.ok (.cachewb a b))
  | 13 => mbz d (mbz a (mbz b (.ok .ifence)))
  | _ => .error .unlistedMember

/-- ALU (R25, major 0x04). -/
def decAlu (d a b : Reg) (f : Nat) : Except DecodeError Instr :=
  match f with
  | 0 => .ok (.add d a b)
  | 1 => .ok (.sub d a b)
  | 2 => .ok (.and d a b)
  | 3 => .ok (.or d a b)
  | 4 => .ok (.xor d a b)
  | 5 => .ok (.andn d a b)
  | 6 => .ok (.sll d a b)
  | 7 => .ok (.srl d a b)
  | 8 => .ok (.sra d a b)
  | 9 => .ok (.ror d a b)
  | 10 => .ok (.slt d a b)
  | 11 => .ok (.sltu d a b)
  | 12 => .ok (.min d a b)
  | 13 => .ok (.max d a b)
  | 14 => .ok (.minu d a b)
  | 15 => .ok (.maxu d a b)
  | 16 => mbz b (.ok (.clz d a))
  | 17 => mbz b (.ok (.ctz d a))
  | 18 => mbz b (.ok (.popc d a))
  | 19 => mbz b (.ok (.sextb d a))
  | 20 => mbz b (.ok (.sexth d a))
  | 21 => mbz b (.ok (.sextw d a))
  | 22 => mbz b (.ok (.zextb d a))
  | 23 => mbz b (.ok (.zexth d a))
  | 24 => mbz b (.ok (.zextw d a))
  | 25 => mbz b (.ok (.bswap d a))
  | _ => .error .unlistedMember

/-- MULDIV (R25, major 0x05). -/
def decMuldiv (d a b : Reg) (f : Nat) : Except DecodeError Instr :=
  match f with
  | 0 => .ok (.mul d a b)
  | 1 => .ok (.mulh d a b)
  | 2 => .ok (.mulhu d a b)
  | 3 => .ok (.div d a b)
  | 4 => .ok (.divu d a b)
  | 5 => .ok (.rem d a b)
  | 6 => .ok (.remu d a b)
  | _ => .error .unlistedMember

/-- LOGI (R25, major 0x07): SEL in IMM16[15:14]. -/
def decLogi (d a : Reg) (x : Nat) : Except DecodeError Instr :=
  match x / 2 ^ 14 with
  | 0 => .ok (.andi d a (BitVec.ofNat 14 x))
  | 1 => .ok (.ori d a (BitVec.ofNat 14 x))
  | 2 => .ok (.xori d a (BitVec.ofNat 14 x))
  | _ => .error .unlistedMember

/-- SHI (R25, major 0x08): the member in IMM16[7:6], bits [15:8] must be zero. -/
def decShi (d a : Reg) (x : Nat) : Except DecodeError Instr :=
  match x / 2 ^ 6 with
  | 0 => .ok (.slli d a (BitVec.ofNat 6 x))
  | 1 => .ok (.srli d a (BitVec.ofNat 6 x))
  | 2 => .ok (.srai d a (BitVec.ofNat 6 x))
  | 3 => .ok (.rori d a (BitVec.ofNat 6 x))
  | _ => .error .unlistedMember

/-- SLTI (R25, major 0x0A). -/
def decSlti (d a : Reg) (x : Nat) : Except DecodeError Instr :=
  match x / 2 ^ 14 with
  | 0 => .ok (.slti d a (BitVec.ofNat 14 x))
  | 1 => .ok (.sltiu d a (BitVec.ofNat 14 x))
  | _ => .error .unlistedMember

/-- LD (R25, major 0x0B): SZ in bits [15:13]. -/
def decLd (d a : Reg) (x : Nat) : Except DecodeError Instr :=
  match x / 2 ^ 13 with
  | 0 => .ok (.ldb d a (BitVec.ofNat 13 x))
  | 1 => .ok (.ldbu d a (BitVec.ofNat 13 x))
  | 2 => .ok (.ldh d a (BitVec.ofNat 13 x))
  | 3 => .ok (.ldhu d a (BitVec.ofNat 13 x))
  | 4 => .ok (.ldw d a (BitVec.ofNat 13 x))
  | 5 => .ok (.ldwu d a (BitVec.ofNat 13 x))
  | 6 => .ok (.ldd d a (BitVec.ofNat 13 x))
  | _ => .error .unlistedMember

/-- ST (R25, major 0x0C). -/
def decSt (d a : Reg) (x : Nat) : Except DecodeError Instr :=
  match x / 2 ^ 13 with
  | 0 => .ok (.stb d a (BitVec.ofNat 13 x))
  | 1 => .ok (.sth d a (BitVec.ofNat 13 x))
  | 2 => .ok (.stw d a (BitVec.ofNat 13 x))
  | 3 => .ok (.std d a (BitVec.ofNat 13 x))
  | _ => .error .unlistedMember

/-- BR2 (R25, major 0x0E): A in [25:21], B in [20:16]. -/
def decBr2 (d a : Reg) (x : Nat) : Except DecodeError Instr :=
  match x / 2 ^ 13 with
  | 0 => .ok (.beq d a (BitVec.ofNat 13 x))
  | 1 => .ok (.bne d a (BitVec.ofNat 13 x))
  | 2 => .ok (.blt d a (BitVec.ofNat 13 x))
  | 3 => .ok (.bge d a (BitVec.ofNat 13 x))
  | 4 => .ok (.bltu d a (BitVec.ofNat 13 x))
  | 5 => .ok (.bgeu d a (BitVec.ofNat 13 x))
  | _ => .error .unlistedMember

/-- LDZK (R25, major 0x09): K in [20:19], FN3 in [18:16]. -/
def decLdzk (d : Reg) (n : Nat) : Except DecodeError Instr :=
  match n / 2 ^ 16 % 8 with
  | 0 => .ok (.ldz d (BitVec.ofNat 2 (n / 2 ^ 19)) (BitVec.ofNat 16 n))
  | 1 => .ok (.ldk d (BitVec.ofNat 2 (n / 2 ^ 19)) (BitVec.ofNat 16 n))
  | _ => .error .unlistedMember

/-- BZ (R25, major 0x0D): C in [20:18], OFF18 in [17:0]. -/
def decBz (a : Reg) (n : Nat) : Except DecodeError Instr :=
  match n / 2 ^ 18 % 8 with
  | 0 => .ok (.beqz a (BitVec.ofNat 18 n))
  | 1 => .ok (.bnez a (BitVec.ofNat 18 n))
  | 2 => .ok (.bltz a (BitVec.ofNat 18 n))
  | 3 => .ok (.bgez a (BitVec.ofNat 18 n))
  | 4 => .ok (.bgtz a (BitVec.ofNat 18 n))
  | 5 => .ok (.blez a (BitVec.ofNat 18 n))
  | _ => .error .unlistedMember

/-- J (R25, major 0x0F): L in [25], OFF25 in [24:0]. -/
def decJ (n : Nat) : Except DecodeError Instr :=
  match n / 2 ^ 25 % 2 with
  | 0 => .ok (.b (BitVec.ofNat 25 n))
  | _ => .ok (.bl (BitVec.ofNat 25 n))

/-- JR (R25, major 0x10). -/
def decJr (d a b : Reg) (f : Nat) : Except DecodeError Instr :=
  match f with
  | 0 => mbz d (mbz b (.ok (.jr a)))
  | 1 => mbz b (.ok (.jlr d a))
  | _ => .error .unlistedMember

/-- ATOM (R25, major 0x11): the member in FN[10:7], scope [6:5], order [4:3], size [2], [1:0] must be zero. LDA takes only
.rlx or .acq, STL only .rlx or .rel (R277). -/
def decAtom (d a b : Reg) (f : Nat) : Except DecodeError Instr :=
  let s := Scope.ofCode (f / 2 ^ 5 % 4)
  let o := Order.ofCode (f / 2 ^ 3 % 4)
  let z := if f / 2 ^ 2 % 2 = 0 then Size.w else Size.d
  if f % 4 ≠ 0 then .error .mustBeZero else
  match f / 2 ^ 7 with
  | 0 => .ok (.amoswap d a b s o z)
  | 1 => .ok (.amoadd d a b s o z)
  | 2 => .ok (.amoand d a b s o z)
  | 3 => .ok (.amoor d a b s o z)
  | 4 => .ok (.amoxor d a b s o z)
  | 5 => .ok (.amomin d a b s o z)
  | 6 => .ok (.amomax d a b s o z)
  | 7 => .ok (.amominu d a b s o z)
  | 8 => .ok (.amomaxu d a b s o z)
  | 9 => .ok (.amocas d a b s o z)
  | 10 => .ok (.amofadd d a b s o z)
  | 11 => mbz b (if o.ldaOk then .ok (.lda d a s o z) else .error .badOrder)
  | 12 => mbz d (if o.stlOk then .ok (.stl a b s o z) else .error .badOrder)
  | _ => .error .unlistedMember

/-- SFP (R25, major 0x12): P in FN[10], [9:6] must be zero, U in [5], the member in [4:0]. -/
def decSfp (d a b : Reg) (f : Nat) : Except DecodeError Instr :=
  let p := if f / 2 ^ 10 = 0 then Prec.s else Prec.d
  let u := f / 2 ^ 5 % 2
  if f / 2 ^ 6 % 16 ≠ 0 then .error .mustBeZero else
  match f % 32 with
  | 0 => mbzN u (.ok (.fadd d a b p))
  | 1 => mbzN u (.ok (.fsub d a b p))
  | 2 => mbzN u (.ok (.fmul d a b p))
  | 3 => mbzN u (.ok (.fdiv d a b p))
  | 4 => mbzN u (mbz b (.ok (.fsqrt d a p)))
  | 5 => mbzN u (.ok (.fmin d a b p))
  | 6 => mbzN u (.ok (.fmax d a b p))
  | 7 => mbzN u (.ok (.feq d a b p))
  | 8 => mbzN u (.ok (.flt d a b p))
  | 9 => mbzN u (.ok (.fle d a b p))
  | 10 => mbz b (.ok (.fcvti d a p (u == 1)))
  | 11 => mbz b (.ok (.fcvtf d a p (u == 1)))
  | 12 => mbzN u (mbz b (.ok (.fcvtp d a p)))
  | 13 => mbzN u (mbz b (.ok (.fabs d a p)))
  | 14 => mbzN u (mbz b (.ok (.fneg d a p)))
  | 15 => mbzN u (mbz b (.ok (.fclass d a p)))
  | _ => .error .unlistedMember

/-- SFMAC (R25, major 0x13). -/
def decSfmac (d a b : Reg) (f : Nat) : Except DecodeError Instr :=
  let p := if f / 2 ^ 10 = 0 then Prec.s else Prec.d
  if f / 2 ^ 5 % 32 ≠ 0 then .error .mustBeZero else
  match f % 32 with
  | 0 => .ok (.fmac d a b p)
  | 1 => .ok (.fnmac d a b p)
  | _ => .error .unlistedMember

/-- STRIP (R23, major 0x14): K in [10:9], SZ in [8:1], bit 0 must be zero; size codes beyond K must be zero and the last
pointer register is at most s31 (R29). -/
def decStrip (d a p : Reg) (f : Nat) : Except DecodeError Instr :=
  if f % 2 ≠ 0 then .error .mustBeZero else
  let k := BitVec.ofNat 2 (f / 2 ^ 9)
  let z := BitVec.ofNat 8 (f / 2)
  if p.val + k.toNat > 31 then .error .lastName else
  if z.toNat / 4 ^ (k.toNat + 1) ≠ 0 then .error .mustBeZero else .ok (.strip d a p k z)

/-- VSET (R25, major 0x15). -/
def decVset (d a b : Reg) (f : Nat) : Except DecodeError Instr :=
  match f with
  | 0 => mbz b (.ok (.setvl d a))
  | 1 => mbz b (.ok (.setrows d a))
  | _ => .error .unlistedMember

/-- The fields of format VM below B: Q, the mask and T (R22, R26), handed to `k`. -/
def withVm (f : Nat) (k : Bool → Mask → Ty → Except DecodeError Instr) : Except DecodeError Instr :=
  withMask (f / 2 ^ 9 % 2) (f / 2 ^ 4 % 32) fun m =>
  match Ty.ofCode (f % 16) with
  | none => .error .reservedType
  | some t => k (f / 2 ^ 10 == 1) m t

/-- A load of format VM: Q must be zero, and T is in the range `ok` (R26, R29). -/
def decLoad (ok : Ty → Bool) (f : Nat) (k : Mask → Ty → Except DecodeError Instr) : Except DecodeError Instr :=
  withVm f fun q m t => if q then .error .mustBeZero else if ok t then k m t else .error .typeNotAllowed

/-- VLD (R26, R142, major 0x16): B is the form. -/
def decVld (vd a b : Reg) (f : Nat) : Except DecodeError Instr :=
  decLoad Ty.plain f fun m t =>
  if b.val = 0 then .ok (.vld vd a m t)
  else if b.val = 1 then .ok (.vldFf vd a m t)
  else if b.val ≤ 8 then (if vd.val + b.val - 1 > 31 then .error .lastName else .ok (.vldSeg vd a b m t))
  else if b.val = 9 then .ok (.vldRow vd a m t)
  else if b.val = 10 then .ok (.vldCol vd a m t)
  else .error .badForm

/-- A store of format VM (R26, R29). -/
def decStore (ok : Ty → Bool) (f : Nat) (k : Bool → Mask → Ty → Except DecodeError Instr) : Except DecodeError Instr :=
  withVm f fun q m t => if ok t then k q m t else .error .typeNotAllowed

/-- VST (R26, R251, major 0x1C): B is 0, or 2 to 8 for a segment. -/
def decVst (vs a b : Reg) (f : Nat) : Except DecodeError Instr :=
  decStore Ty.plain f fun q m t =>
  if b.val = 0 then .ok (.vst vs a q m t)
  else if 2 ≤ b.val ∧ b.val ≤ 8 then
    (if vs.val + b.val - 1 > 31 then .error .lastName else .ok (.vstSeg vs a b q m t))
  else .error .badForm

/-- VINT (R27, major 0x24). -/
def decVint (vd va vb : Reg) (f : Nat) : Except DecodeError Instr :=
  withMask (f / 2 ^ 10) (f / 2 ^ 5 % 32) fun m =>
  match f % 32 with
  | 0 => .ok (.vadd vd va vb m)
  | 1 => .ok (.vsub vd va vb m)
  | 2 => .ok (.vmul vd va vb m)
  | 3 => .ok (.vmulh vd va vb m)
  | 4 => .ok (.vmulhu vd va vb m)
  | 5 => .ok (.vand vd va vb m)
  | 6 => .ok (.vor vd va vb m)
  | 7 => .ok (.vxor vd va vb m)
  | 8 => .ok (.vsll vd va vb m)
  | 9 => .ok (.vsrl vd va vb m)
  | 10 => .ok (.vsra vd va vb m)
  | 11 => .ok (.vmin vd va vb m)
  | 12 => .ok (.vmax vd va vb m)
  | 13 => .ok (.vminu vd va vb m)
  | 14 => .ok (.vmaxu vd va vb m)
  | 15 => .ok (.vadds vd va vb m)
  | 16 => .ok (.vaddsu vd va vb m)
  | 17 => .ok (.vsubs vd va vb m)
  | 18 => .ok (.vsubsu vd va vb m)
  | 19 => mbz vb (.ok (.vabs vd va m))
  | 20 => mbz vb (.ok (.vneg vd va m))
  | 21 => mbz vb (.ok (.vnot vd va m))
  | 22 => mbz vb (.ok (.vpopc vd va m))
  | 23 => mbz vb (.ok (.vclz vd va m))
  | _ => .error .unlistedMember

/-- VINTX (R27, major 0x25). -/
def decVintx (vd va vb : Reg) (f : Nat) : Except DecodeError Instr :=
  withMask (f / 2 ^ 10) (f / 2 ^ 5 % 32) fun m =>
  match f % 32 with
  | 0 => .ok (.vaddVintx vd va vb m)
  | 1 => .ok (.vsubVintx vd va vb m)
  | 2 => .ok (.vmulVintx vd va vb m)
  | 3 => .ok (.vmulhVintx vd va vb m)
  | 4 => .ok (.vmulhuVintx vd va vb m)
  | 5 => .ok (.vandVintx vd va vb m)
  | 6 => .ok (.vorVintx vd va vb m)
  | 7 => .ok (.vxorVintx vd va vb m)
  | 8 => .ok (.vsllVintx vd va vb m)
  | 9 => .ok (.vsrlVintx vd va vb m)
  | 10 => .ok (.vsraVintx vd va vb m)
  | 11 => .ok (.vminVintx vd va vb m)
  | 12 => .ok (.vmaxVintx vd va vb m)
  | 13 => .ok (.vminuVintx vd va vb m)
  | 14 => .ok (.vmaxuVintx vd va vb m)
  | 15 => .ok (.vaddsVintx vd va vb m)
  | 16 => .ok (.vaddsuVintx vd va vb m)
  | 17 => .ok (.vsubsVintx vd va vb m)
  | 18 => .ok (.vsubsuVintx vd va vb m)
  | _ => .error .unlistedMember

/-- VFP (R27, major 0x26). -/
def decVfp (vd va vb : Reg) (f : Nat) : Except DecodeError Instr :=
  withMask (f / 2 ^ 10) (f / 2 ^ 5 % 32) fun m =>
  match f % 32 with
  | 0 => .ok (.vfadd vd va vb m)
  | 1 => .ok (.vfsub vd va vb m)
  | 2 => .ok (.vfmul vd va vb m)
  | 3 => .ok (.vfdiv vd va vb m)
  | 4 => .ok (.vfmin vd va vb m)
  | 5 => .ok (.vfmax vd va vb m)
  | 6 => mbz vb (.ok (.vfabs vd va m))
  | 7 => mbz vb (.ok (.vfneg vd va m))
  | 8 => mbz vb (.ok (.vfsqrt vd va m))
  | 9 => mbz vb (.ok (.vfrcp vd va m))
  | 10 => mbz vb (.ok (.vfrsq vd va m))
  | 11 => mbz vb (.ok (.vfexp2 vd va m))
  | 12 => mbz vb (.ok (.vflog2 vd va m))
  | 13 => .ok (.vfsgnj vd va vb m)
  | 14 => mbz vb (.ok (.vfrint vd va m))
  | _ => .error .unlistedMember

/-- VFPX (R27, major 0x27). -/
def decVfpx (vd va vb : Reg) (f : Nat) : Except DecodeError Instr :=
  withMask (f / 2 ^ 10) (f / 2 ^ 5 % 32) fun m =>
  match f % 32 with
  | 0 => .ok (.vfaddVfpx vd va vb m)
  | 1 => .ok (.vfsubVfpx vd va vb m)
  | 2 => .ok (.vfmulVfpx vd va vb m)
  | 3 => .ok (.vfdivVfpx vd va vb m)
  | 4 => .ok (.vfminVfpx vd va vb m)
  | 5 => .ok (.vfmaxVfpx vd va vb m)
  | 13 => .ok (.vfsgnjVfpx vd va vb m)
  | _ => .error .unlistedMember

/-- The fused majors (R27, 0x28 to 0x2B): VC in [10:6], ME in [5], M in [4:0]. -/
def decFma (f : Nat) (k : Reg → Mask → Instr) : Except DecodeError Instr :=
  withMask (f / 2 ^ 5 % 2) (f % 32) fun m => .ok (k (reg (f / 2 ^ 6)) m)

/-- VCMP and VCMPX (R27, R206): SUB[4] selects floating point. -/
def decVcmp (f : Nat) (ki : Mask → ICond → Instr) (kf : Mask → FCond → Instr) : Except DecodeError Instr :=
  withMask (f / 2 ^ 10) (f / 2 ^ 5 % 32) fun m =>
  if f / 2 ^ 4 % 2 = 0 then
    (match ICond.ofCode (f % 16) with | some c => .ok (ki m c) | none => .error .unlistedMember)
  else
    (match FCond.ofCode (f % 16) with | some c => .ok (kf m c) | none => .error .unlistedMember)

/-- A type code in a register field whose bit 4 must be zero (R27). -/
def withTy (x : Reg) (k : Ty → Except DecodeError Instr) : Except DecodeError Instr :=
  if 16 ≤ x.val then .error .mustBeZero else
  match Ty.ofCode x.val with
  | none => .error .reservedType
  | some t => k t

/-- VCVT (R27, major 0x2E): VB[3:0] is the target; F4 and F4SR require target 10 (R29). -/
def decVcvt (vd va vb : Reg) (f : Nat) : Except DecodeError Instr :=
  withMask (f / 2 ^ 10) (f / 2 ^ 5 % 32) fun m =>
  match f % 32 with
  | 0 => withTy vb fun t => .ok (.vcvtRnd vd va t m)
  | 1 => withTy vb fun t => .ok (.vcvtSr vd va t m)
  | 2 => withTy vb fun t => .ok (.vcvtRtz vd va t m)
  | 3 => withTy vb fun t => .ok (.vcvtSat vd va t m)
  | 4 => if vb.val = 10 then .ok (.vcvtF4 vd va m) else .error .targetNotE2m1
  | 5 => if vb.val = 10 then .ok (.vcvtF4sr vd va m) else .error .targetNotE2m1
  | _ => .error .unlistedMember

/-- VMISC (R27, major 0x2F): VSEL requires its mask (R29). -/
def decVmisc (vd va vb : Reg) (f : Nat) : Except DecodeError Instr :=
  withMask (f / 2 ^ 10) (f / 2 ^ 5 % 32) fun m =>
  match f % 32 with
  | 0 => mbz vb (.ok (.vmov vd va m))
  | 1 => withTy va fun t => .ok (.vbcast vd t vb m)
  | 2 => (match m with | some p => .ok (.vsel vd va vb p) | none => .error .maskRequired)
  | 3 => .ok (.vslide vd va vb m)
  | 4 => .ok (.vperm vd va vb m)
  | 5 => mbz vb (.ok (.vscansum vd va m))
  | 6 => withTy vb fun t => .ok (.vreint vd va t m)
  | 7 => mbz va (mbz vb (.ok (.vrand vd m)))
  | 8 => mbz va (mbz vb (.ok (.vrandf vd m)))
  | _ => .error .unlistedMember

/-- PRED (R27, major 0x31): ME and M must be zero, so the member is the whole of FN. -/
def decPred (d a b : Reg) (f : Nat) : Except DecodeError Instr :=
  match f with
  | 0 => .ok (.pand d a b)
  | 1 => .ok (.por d a b)
  | 2 => .ok (.pxor d a b)
  | 3 => .ok (.pandn d a b)
  | 4 => mbz b (.ok (.pnot d a))
  | 5 => mbz a (mbz b (.ok (.pset d)))
  | 6 => mbz a (mbz b (.ok (.pclr d)))
  | 7 => mbz b (.ok (.pmov d a))
  | _ => .error .unlistedMember

/-- VRED (R27, major 0x32): SUB[4] is Q, VB must be zero. -/
noncomputable def decVred (d a b : Reg) (f : Nat) : Except DecodeError Instr :=
  withMask (f / 2 ^ 10) (f / 2 ^ 5 % 32) fun m =>
  let q := f / 2 ^ 4 % 2 == 1
  match f % 16 with
  | 0 => mbz b (.ok (.vredsum d a m q))
  | 1 => mbz b (.ok (.vredsumt d a m q))
  | 2 => mbz b (.ok (.vredmax d a m q))
  | 3 => mbz b (.ok (.vredmin d a m q))
  | 4 => mbz b (.ok (.vredmaxu d a m q))
  | 5 => mbz b (.ok (.vredminu d a m q))
  | 6 => mbz b (.ok (.vredand d a m q))
  | 7 => mbz b (.ok (.vredor d a m q))
  | 8 => mbz b (.ok (.vredxor d a m q))
  | 9 => mbz b (.ok (.vredrow d a m q))
  | 10 => mbz b (.ok (.vredrowmax d a m q))
  | 11 => mbz b (.ok (.vffs d a m q))
  | 12 => mbz b (.ok (.vpop d a m q))
  | _ => .error .unlistedMember

/-- MATRIX (R27, R246, major 0x33): register fields a member's line does not name must be zero (R28). -/
noncomputable def decMatrix (d a b : Reg) (f : Nat) : Except DecodeError Instr :=
  match f with
  | 0 => .ok (.mma d a b)
  | 1 => mbz a (.ok (.mzero d b))
  | 2 => mbz b (.ok (.msync d a))
  | 3 => mbz d (mbz b (.ok (.mtarget a)))
  | 4 => mbz d (.ok (.mshape a b))
  | 5 => .ok (.mslot d a b)
  | _ => .error .unlistedMember

/-- SYNC (R27, major 0x34): the group slot of a BAR member is 0 to 3 (R29). -/
noncomputable def decSync (d a b : Reg) (f : Nat) : Except DecodeError Instr :=
  mbz d (mbz a (
    match f with
    | 0 => withSlot b fun g => .ok (.barArrive g)
    | 1 => withSlot b fun g => .ok (.barWait g)
    | 2 => withSlot b fun g => .ok (.barTest g)
    | 3 => mbz b (.ok .fenceC)
    | 4 => mbz b (.ok .fenceK)
    | 5 => mbz b (.ok .fenceD)
    | 6 => mbz b (.ok .fenceS)
    | _ => .error .unlistedMember))

/-- XENG (R27, R91, major 0x35). -/
noncomputable def decXeng (d a b : Reg) (f : Nat) : Except DecodeError Instr :=
  match f with
  | 0 => mbz b (.ok (.xcopy d a))
  | 1 => mbz b (.ok (.xwait d a))
  | 2 => mbz b (.ok (.xpoll d a))
  | 3 => mbz d (mbz b (.ok (.xcancel a)))
  | _ => .error .unlistedMember

/-- TD (R27, R188, major 0x36). -/
noncomputable def decTd (d a b : Reg) (f : Nat) : Except DecodeError Instr :=
  match f with
  | 0 => mbz d (mbz b (.ok (.tdinv a)))
  | 1 => mbz d (mbz a (mbz b (.ok .tdinvall)))
  | _ => .error .unlistedMember

/-- The instruction of a word, decided from the word alone (R25 to R30). The conditions of R29 that need the kind of front
end are decided when the instruction runs. -/
noncomputable def decodeWord (w : IWord) : Except DecodeError Instr :=
  let n := w.toNat
  let d := reg (n / 2 ^ 21)
  let a := reg (n / 2 ^ 16)
  let b := reg (n / 2 ^ 11)
  let f := n % 2 ^ 11
  let x := n % 2 ^ 16
  match n / 2 ^ 26 with
  | 0x00 => decSys d a b f
  | 0x01 => mbz d (mbz a (.ok (.trap (BitVec.ofNat 16 n))))
  | 0x02 => mbz a (mbz b (if stateListed f then .ok (.mfs d (BitVec.ofNat 11 n)) else .error .unlistedState))
  | 0x03 => mbz d (mbz b (if stateWritable f then .ok (.mts a (BitVec.ofNat 11 n)) else .error .unlistedState))
  | 0x04 => decAlu d a b f
  | 0x05 => decMuldiv d a b f
  | 0x06 => .ok (.addi d a (BitVec.ofNat 16 n))
  | 0x07 => decLogi d a x
  | 0x08 => decShi d a x
  | 0x09 => decLdzk d n
  | 0x0A => decSlti d a x
  | 0x0B => decLd d a x
  | 0x0C => decSt d a x
  | 0x0D => decBz d n
  | 0x0E => decBr2 d a x
  | 0x0F => decJ n
  | 0x10 => decJr d a b f
  | 0x11 => decAtom d a b f
  | 0x12 => decSfp d a b f
  | 0x13 => decSfmac d a b f
  | 0x14 => decStrip d a b f
  | 0x15 => decVset d a b f
  | 0x16 => decVld d a b f
  | 0x17 => decLoad Ty.plain f fun m t => .ok (.vlds d a b m t)
  | 0x18 => decLoad Ty.plain f fun m t => .ok (.vldt d a b m t)
  | 0x19 => decLoad Ty.any f fun m t => .ok (.vldx d a b m t)
  | 0x1A => decLoad Ty.any f fun m t => .ok (.vldtd d a b m t)
  | 0x1B => decLoad Ty.any f fun m t => .ok (.vldz d a b m t)
  | 0x1C => decVst d a b f
  | 0x1D => decStore Ty.plain f fun q m t => .ok (.vsts d a b q m t)
  | 0x1E => decStore Ty.plain f fun q m t => .ok (.vstt d a b q m t)
  | 0x1F => decStore Ty.plain f fun q m t => .ok (.vstx d a b q m t)
  | 0x20 => decStore Ty.plain f fun q m t => .ok (.vstxadd d a b q m t)
  | 0x21 => decStore Ty.plain f fun q m t => .ok (.vsttd d a b q m t)
  | 0x22 => decStore Ty.chanter f fun q m t => .ok (.vstc d a b q m t)
  | 0x23 => decStore Ty.plain f fun q m t => .ok (.vstcmp d a b q m t)
  | 0x24 => decVint d a b f
  | 0x25 => decVintx d a b f
  | 0x26 => decVfp d a b f
  | 0x27 => decVfpx d a b f
  | 0x28 => decFma f fun vc m => .vfma d a b vc m
  | 0x29 => decFma f fun vc m => .vfms d a b vc m
  | 0x2A => decFma f fun vc m => .vfnma d a b vc m
  | 0x2B => decFma f fun vc m => .vfnms d a b vc m
  | 0x2C => decVcmp f (fun m c => .vcmpInt d a b m c) (fun m c => .vcmpFp d a b m c)
  | 0x2D => decVcmp f (fun m c => .vcmpxInt d a b m c) (fun m c => .vcmpxFp d a b m c)
  | 0x2E => decVcvt d a b f
  | 0x2F => decVmisc d a b f
  | 0x30 => .ok (.vidx d (BitVec.ofNat 11 (n / 2 ^ 10)) (BitVec.ofNat 10 n))
  | 0x31 => decPred d a b f
  | 0x32 => decVred d a b f
  | 0x33 => decMatrix d a b f
  | 0x34 => decSync d a b f
  | 0x35 => decXeng d a b f
  | 0x36 => decTd d a b f
  | 0x3F => .error (.extension (n / 2 ^ 22 % 16))
  | _ => .error .reservedMajor

/-! The encoder. -/

/-- Format R, and every format with three register fields and eleven bits below (R22). -/
def fmtR (op : Nat) (d a b : Reg) (f : Nat) : Nat :=
  op * 2 ^ 26 + d.val * 2 ^ 21 + a.val * 2 ^ 16 + b.val * 2 ^ 11 + f

/-- Formats I, I2, LS and B2: two register fields and sixteen bits (R22). -/
def fmtI (op : Nat) (d a : Reg) (x : Nat) : Nat :=
  op * 2 ^ 26 + d.val * 2 ^ 21 + a.val * 2 ^ 16 + x

/-- Format K (R22). -/
def fmtK (op : Nat) (d : Reg) (k fn x : Nat) : Nat :=
  op * 2 ^ 26 + d.val * 2 ^ 21 + k * 2 ^ 19 + fn * 2 ^ 16 + x

/-- Format B1 (R22). -/
def fmtB1 (op : Nat) (a : Reg) (c off : Nat) : Nat :=
  op * 2 ^ 26 + a.val * 2 ^ 21 + c * 2 ^ 18 + off

/-- Format J (R22). -/
def fmtJ (op l off : Nat) : Nat :=
  op * 2 ^ 26 + l * 2 ^ 25 + off

/-- Format VX (R22). -/
def fmtX (op : Nat) (vd : Reg) (start step : Nat) : Nat :=
  op * 2 ^ 26 + vd.val * 2 ^ 21 + start * 2 ^ 10 + step

/-- ME and M as six bits (R23). -/
def maskBits (m : Mask) : Nat :=
  match m with
  | some p => 32 + p.val
  | none => 0

/-- FN of ATOM (R25). -/
def atomFn (k : Nat) (s : Scope) (o : Order) (z : Size) : Nat :=
  k * 2 ^ 7 + s.toNat * 2 ^ 5 + o.toNat * 2 ^ 3 + (if z = .d then 4 else 0)

/-- FN of SFP and SFMAC (R25). -/
def sfpFn (p : Prec) (u : Bool) (k : Nat) : Nat :=
  (if p = .d then 2 ^ 10 else 0) + (if u then 2 ^ 5 else 0) + k

/-- The eleven low bits of format VM (R22). -/
def vmFn (q : Bool) (m : Mask) (t : Ty) : Nat :=
  (if q then 2 ^ 10 else 0) + maskBits m * 2 ^ 4 + t.toNat

/-- The eleven low bits of format V (R22). -/
def vFn (m : Mask) (k : Nat) : Nat := maskBits m * 2 ^ 5 + k

/-- The eleven low bits of format V4 (R22). -/
def v4Fn (vc : Reg) (m : Mask) : Nat := vc.val * 2 ^ 6 + maskBits m

/-- The eleven low bits of VRED (R27). -/
def vredFn (q : Bool) (m : Mask) (k : Nat) : Nat :=
  maskBits m * 2 ^ 5 + (if q then 2 ^ 4 else 0) + k

/-- A group slot as a register field. -/
def slotReg (g : Fin 4) : Reg := ⟨g.val, by omega⟩

/-- The word of an instruction, as a number; an event of the device has no word. -/
def encodeNat (i : Instr) : Option Nat :=
  match i with
  | .nop => some (fmtR 0x00 0 0 0 1)
  | .rte => some (fmtR 0x00 0 0 0 2)
  | .wait => some (fmtR 0x00 0 0 0 3)
  | .exit => some (fmtR 0x00 0 0 0 4)
  | .brk => some (fmtR 0x00 0 0 0 5)
  | .force => some (fmtR 0x00 0 0 0 6)
  | .convoy => some (fmtR 0x00 0 0 0 7)
  | .vsync => some (fmtR 0x00 0 0 0 8)
  | .ifence => some (fmtR 0x00 0 0 0 13)
  | .vdrop vd => some (fmtR 0x00 vd 0 0 9)
  | .launch d a => some (fmtR 0x00 d a 0 10)
  | .tlbi a b => some (fmtR 0x00 0 a b 11)
  | .cachewb a b => some (fmtR 0x00 0 a b 12)
  | .trap i => some (fmtI 0x01 0 0 i.toNat)
  | .mfs d n => some (fmtR 0x02 d 0 0 n.toNat)
  | .mts a n => some (fmtR 0x03 0 a 0 n.toNat)
  | .add d a b => some (fmtR 0x04 d a b 0)
  | .sub d a b => some (fmtR 0x04 d a b 1)
  | .and d a b => some (fmtR 0x04 d a b 2)
  | .or d a b => some (fmtR 0x04 d a b 3)
  | .xor d a b => some (fmtR 0x04 d a b 4)
  | .andn d a b => some (fmtR 0x04 d a b 5)
  | .sll d a b => some (fmtR 0x04 d a b 6)
  | .srl d a b => some (fmtR 0x04 d a b 7)
  | .sra d a b => some (fmtR 0x04 d a b 8)
  | .ror d a b => some (fmtR 0x04 d a b 9)
  | .slt d a b => some (fmtR 0x04 d a b 10)
  | .sltu d a b => some (fmtR 0x04 d a b 11)
  | .min d a b => some (fmtR 0x04 d a b 12)
  | .max d a b => some (fmtR 0x04 d a b 13)
  | .minu d a b => some (fmtR 0x04 d a b 14)
  | .maxu d a b => some (fmtR 0x04 d a b 15)
  | .clz d a => some (fmtR 0x04 d a 0 16)
  | .ctz d a => some (fmtR 0x04 d a 0 17)
  | .popc d a => some (fmtR 0x04 d a 0 18)
  | .sextb d a => some (fmtR 0x04 d a 0 19)
  | .sexth d a => some (fmtR 0x04 d a 0 20)
  | .sextw d a => some (fmtR 0x04 d a 0 21)
  | .zextb d a => some (fmtR 0x04 d a 0 22)
  | .zexth d a => some (fmtR 0x04 d a 0 23)
  | .zextw d a => some (fmtR 0x04 d a 0 24)
  | .bswap d a => some (fmtR 0x04 d a 0 25)
  | .mul d a b => some (fmtR 0x05 d a b 0)
  | .mulh d a b => some (fmtR 0x05 d a b 1)
  | .mulhu d a b => some (fmtR 0x05 d a b 2)
  | .div d a b => some (fmtR 0x05 d a b 3)
  | .divu d a b => some (fmtR 0x05 d a b 4)
  | .rem d a b => some (fmtR 0x05 d a b 5)
  | .remu d a b => some (fmtR 0x05 d a b 6)
  | .addi d a i => some (fmtI 0x06 d a i.toNat)
  | .andi d a i => some (fmtI 0x07 d a (0 * 2 ^ 14 + i.toNat))
  | .ori d a i => some (fmtI 0x07 d a (1 * 2 ^ 14 + i.toNat))
  | .xori d a i => some (fmtI 0x07 d a (2 * 2 ^ 14 + i.toNat))
  | .slli d a n => some (fmtI 0x08 d a (0 * 2 ^ 6 + n.toNat))
  | .srli d a n => some (fmtI 0x08 d a (1 * 2 ^ 6 + n.toNat))
  | .srai d a n => some (fmtI 0x08 d a (2 * 2 ^ 6 + n.toNat))
  | .rori d a n => some (fmtI 0x08 d a (3 * 2 ^ 6 + n.toNat))
  | .ldz d k i => some (fmtK 0x09 d k.toNat 0 i.toNat)
  | .ldk d k i => some (fmtK 0x09 d k.toNat 1 i.toNat)
  | .slti d a i => some (fmtI 0x0A d a (0 * 2 ^ 14 + i.toNat))
  | .sltiu d a i => some (fmtI 0x0A d a (1 * 2 ^ 14 + i.toNat))
  | .ldb d a i => some (fmtI 0x0B d a (0 * 2 ^ 13 + i.toNat))
  | .ldbu d a i => some (fmtI 0x0B d a (1 * 2 ^ 13 + i.toNat))
  | .ldh d a i => some (fmtI 0x0B d a (2 * 2 ^ 13 + i.toNat))
  | .ldhu d a i => some (fmtI 0x0B d a (3 * 2 ^ 13 + i.toNat))
  | .ldw d a i => some (fmtI 0x0B d a (4 * 2 ^ 13 + i.toNat))
  | .ldwu d a i => some (fmtI 0x0B d a (5 * 2 ^ 13 + i.toNat))
  | .ldd d a i => some (fmtI 0x0B d a (6 * 2 ^ 13 + i.toNat))
  | .stb d a i => some (fmtI 0x0C d a (0 * 2 ^ 13 + i.toNat))
  | .sth d a i => some (fmtI 0x0C d a (1 * 2 ^ 13 + i.toNat))
  | .stw d a i => some (fmtI 0x0C d a (2 * 2 ^ 13 + i.toNat))
  | .std d a i => some (fmtI 0x0C d a (3 * 2 ^ 13 + i.toNat))
  | .beqz a o => some (fmtB1 0x0D a 0 o.toNat)
  | .bnez a o => some (fmtB1 0x0D a 1 o.toNat)
  | .bltz a o => some (fmtB1 0x0D a 2 o.toNat)
  | .bgez a o => some (fmtB1 0x0D a 3 o.toNat)
  | .bgtz a o => some (fmtB1 0x0D a 4 o.toNat)
  | .blez a o => some (fmtB1 0x0D a 5 o.toNat)
  | .beq a b o => some (fmtI 0x0E a b (0 * 2 ^ 13 + o.toNat))
  | .bne a b o => some (fmtI 0x0E a b (1 * 2 ^ 13 + o.toNat))
  | .blt a b o => some (fmtI 0x0E a b (2 * 2 ^ 13 + o.toNat))
  | .bge a b o => some (fmtI 0x0E a b (3 * 2 ^ 13 + o.toNat))
  | .bltu a b o => some (fmtI 0x0E a b (4 * 2 ^ 13 + o.toNat))
  | .bgeu a b o => some (fmtI 0x0E a b (5 * 2 ^ 13 + o.toNat))
  | .b o => some (fmtJ 0x0F 0 o.toNat)
  | .bl o => some (fmtJ 0x0F 1 o.toNat)
  | .jr a => some (fmtR 0x10 0 a 0 0)
  | .jlr d a => some (fmtR 0x10 d a 0 1)
  | .amoswap d a b s o z => some (fmtR 0x11 d a b (atomFn 0 s o z))
  | .amoadd d a b s o z => some (fmtR 0x11 d a b (atomFn 1 s o z))
  | .amoand d a b s o z => some (fmtR 0x11 d a b (atomFn 2 s o z))
  | .amoor d a b s o z => some (fmtR 0x11 d a b (atomFn 3 s o z))
  | .amoxor d a b s o z => some (fmtR 0x11 d a b (atomFn 4 s o z))
  | .amomin d a b s o z => some (fmtR 0x11 d a b (atomFn 5 s o z))
  | .amomax d a b s o z => some (fmtR 0x11 d a b (atomFn 6 s o z))
  | .amominu d a b s o z => some (fmtR 0x11 d a b (atomFn 7 s o z))
  | .amomaxu d a b s o z => some (fmtR 0x11 d a b (atomFn 8 s o z))
  | .amocas d a b s o z => some (fmtR 0x11 d a b (atomFn 9 s o z))
  | .amofadd d a b s o z => some (fmtR 0x11 d a b (atomFn 10 s o z))
  | .lda d a s o z => some (fmtR 0x11 d a 0 (atomFn 11 s o z))
  | .stl a b s o z => some (fmtR 0x11 0 a b (atomFn 12 s o z))
  | .fadd d a b p => some (fmtR 0x12 d a b (sfpFn p false 0))
  | .fsub d a b p => some (fmtR 0x12 d a b (sfpFn p false 1))
  | .fmul d a b p => some (fmtR 0x12 d a b (sfpFn p false 2))
  | .fdiv d a b p => some (fmtR 0x12 d a b (sfpFn p false 3))
  | .fsqrt d a p => some (fmtR 0x12 d a 0 (sfpFn p false 4))
  | .fmin d a b p => some (fmtR 0x12 d a b (sfpFn p false 5))
  | .fmax d a b p => some (fmtR 0x12 d a b (sfpFn p false 6))
  | .feq d a b p => some (fmtR 0x12 d a b (sfpFn p false 7))
  | .flt d a b p => some (fmtR 0x12 d a b (sfpFn p false 8))
  | .fle d a b p => some (fmtR 0x12 d a b (sfpFn p false 9))
  | .fcvti d a p u => some (fmtR 0x12 d a 0 (sfpFn p u 10))
  | .fcvtf d a p u => some (fmtR 0x12 d a 0 (sfpFn p u 11))
  | .fcvtp d a p => some (fmtR 0x12 d a 0 (sfpFn p false 12))
  | .fabs d a p => some (fmtR 0x12 d a 0 (sfpFn p false 13))
  | .fneg d a p => some (fmtR 0x12 d a 0 (sfpFn p false 14))
  | .fclass d a p => some (fmtR 0x12 d a 0 (sfpFn p false 15))
  | .fmac d a b p => some (fmtR 0x13 d a b (sfpFn p false 0))
  | .fnmac d a b p => some (fmtR 0x13 d a b (sfpFn p false 1))
  | .strip d a p k z => some (fmtR 0x14 d a p (k.toNat * 2 ^ 9 + z.toNat * 2))
  | .setvl d a => some (fmtR 0x15 d a 0 0)
  | .setrows d a => some (fmtR 0x15 d a 0 1)
  | .vld vd a m t => some (fmtR 0x16 vd a 0 (vmFn false m t))
  | .vldFf vd a m t => some (fmtR 0x16 vd a 1 (vmFn false m t))
  | .vldSeg vd a b m t => some (fmtR 0x16 vd a b (vmFn false m t))
  | .vldRow vd a m t => some (fmtR 0x16 vd a 9 (vmFn false m t))
  | .vldCol vd a m t => some (fmtR 0x16 vd a 10 (vmFn false m t))
  | .vlds vd a b m t => some (fmtR 0x17 vd a b (vmFn false m t))
  | .vldt vd a b m t => some (fmtR 0x18 vd a b (vmFn false m t))
  | .vldx vd a b m t => some (fmtR 0x19 vd a b (vmFn false m t))
  | .vldtd vd a b m t => some (fmtR 0x1A vd a b (vmFn false m t))
  | .vldz vd a b m t => some (fmtR 0x1B vd a b (vmFn false m t))
  | .vst vs a q m t => some (fmtR 0x1C vs a 0 (vmFn q m t))
  | .vstSeg vs a b q m t => some (fmtR 0x1C vs a b (vmFn q m t))
  | .vsts vs a b q m t => some (fmtR 0x1D vs a b (vmFn q m t))
  | .vstt vs a b q m t => some (fmtR 0x1E vs a b (vmFn q m t))
  | .vstx vs a b q m t => some (fmtR 0x1F vs a b (vmFn q m t))
  | .vstxadd vs a b q m t => some (fmtR 0x20 vs a b (vmFn q m t))
  | .vsttd vs a b q m t => some (fmtR 0x21 vs a b (vmFn q m t))
  | .vstc vs a b q m t => some (fmtR 0x22 vs a b (vmFn q m t))
  | .vstcmp vs a b q m t => some (fmtR 0x23 vs a b (vmFn q m t))
  | .vadd vd va vb m => some (fmtR 0x24 vd va vb (vFn m 0))
  | .vsub vd va vb m => some (fmtR 0x24 vd va vb (vFn m 1))
  | .vmul vd va vb m => some (fmtR 0x24 vd va vb (vFn m 2))
  | .vmulh vd va vb m => some (fmtR 0x24 vd va vb (vFn m 3))
  | .vmulhu vd va vb m => some (fmtR 0x24 vd va vb (vFn m 4))
  | .vand vd va vb m => some (fmtR 0x24 vd va vb (vFn m 5))
  | .vor vd va vb m => some (fmtR 0x24 vd va vb (vFn m 6))
  | .vxor vd va vb m => some (fmtR 0x24 vd va vb (vFn m 7))
  | .vsll vd va vb m => some (fmtR 0x24 vd va vb (vFn m 8))
  | .vsrl vd va vb m => some (fmtR 0x24 vd va vb (vFn m 9))
  | .vsra vd va vb m => some (fmtR 0x24 vd va vb (vFn m 10))
  | .vmin vd va vb m => some (fmtR 0x24 vd va vb (vFn m 11))
  | .vmax vd va vb m => some (fmtR 0x24 vd va vb (vFn m 12))
  | .vminu vd va vb m => some (fmtR 0x24 vd va vb (vFn m 13))
  | .vmaxu vd va vb m => some (fmtR 0x24 vd va vb (vFn m 14))
  | .vadds vd va vb m => some (fmtR 0x24 vd va vb (vFn m 15))
  | .vaddsu vd va vb m => some (fmtR 0x24 vd va vb (vFn m 16))
  | .vsubs vd va vb m => some (fmtR 0x24 vd va vb (vFn m 17))
  | .vsubsu vd va vb m => some (fmtR 0x24 vd va vb (vFn m 18))
  | .vabs vd va m => some (fmtR 0x24 vd va 0 (vFn m 19))
  | .vneg vd va m => some (fmtR 0x24 vd va 0 (vFn m 20))
  | .vnot vd va m => some (fmtR 0x24 vd va 0 (vFn m 21))
  | .vpopc vd va m => some (fmtR 0x24 vd va 0 (vFn m 22))
  | .vclz vd va m => some (fmtR 0x24 vd va 0 (vFn m 23))
  | .vaddVintx vd va vb m => some (fmtR 0x25 vd va vb (vFn m 0))
  | .vsubVintx vd va vb m => some (fmtR 0x25 vd va vb (vFn m 1))
  | .vmulVintx vd va vb m => some (fmtR 0x25 vd va vb (vFn m 2))
  | .vmulhVintx vd va vb m => some (fmtR 0x25 vd va vb (vFn m 3))
  | .vmulhuVintx vd va vb m => some (fmtR 0x25 vd va vb (vFn m 4))
  | .vandVintx vd va vb m => some (fmtR 0x25 vd va vb (vFn m 5))
  | .vorVintx vd va vb m => some (fmtR 0x25 vd va vb (vFn m 6))
  | .vxorVintx vd va vb m => some (fmtR 0x25 vd va vb (vFn m 7))
  | .vsllVintx vd va vb m => some (fmtR 0x25 vd va vb (vFn m 8))
  | .vsrlVintx vd va vb m => some (fmtR 0x25 vd va vb (vFn m 9))
  | .vsraVintx vd va vb m => some (fmtR 0x25 vd va vb (vFn m 10))
  | .vminVintx vd va vb m => some (fmtR 0x25 vd va vb (vFn m 11))
  | .vmaxVintx vd va vb m => some (fmtR 0x25 vd va vb (vFn m 12))
  | .vminuVintx vd va vb m => some (fmtR 0x25 vd va vb (vFn m 13))
  | .vmaxuVintx vd va vb m => some (fmtR 0x25 vd va vb (vFn m 14))
  | .vaddsVintx vd va vb m => some (fmtR 0x25 vd va vb (vFn m 15))
  | .vaddsuVintx vd va vb m => some (fmtR 0x25 vd va vb (vFn m 16))
  | .vsubsVintx vd va vb m => some (fmtR 0x25 vd va vb (vFn m 17))
  | .vsubsuVintx vd va vb m => some (fmtR 0x25 vd va vb (vFn m 18))
  | .vfadd vd va vb m => some (fmtR 0x26 vd va vb (vFn m 0))
  | .vfsub vd va vb m => some (fmtR 0x26 vd va vb (vFn m 1))
  | .vfmul vd va vb m => some (fmtR 0x26 vd va vb (vFn m 2))
  | .vfdiv vd va vb m => some (fmtR 0x26 vd va vb (vFn m 3))
  | .vfmin vd va vb m => some (fmtR 0x26 vd va vb (vFn m 4))
  | .vfmax vd va vb m => some (fmtR 0x26 vd va vb (vFn m 5))
  | .vfabs vd va m => some (fmtR 0x26 vd va 0 (vFn m 6))
  | .vfneg vd va m => some (fmtR 0x26 vd va 0 (vFn m 7))
  | .vfsqrt vd va m => some (fmtR 0x26 vd va 0 (vFn m 8))
  | .vfrcp vd va m => some (fmtR 0x26 vd va 0 (vFn m 9))
  | .vfrsq vd va m => some (fmtR 0x26 vd va 0 (vFn m 10))
  | .vfexp2 vd va m => some (fmtR 0x26 vd va 0 (vFn m 11))
  | .vflog2 vd va m => some (fmtR 0x26 vd va 0 (vFn m 12))
  | .vfsgnj vd va vb m => some (fmtR 0x26 vd va vb (vFn m 13))
  | .vfrint vd va m => some (fmtR 0x26 vd va 0 (vFn m 14))
  | .vfaddVfpx vd va vb m => some (fmtR 0x27 vd va vb (vFn m 0))
  | .vfsubVfpx vd va vb m => some (fmtR 0x27 vd va vb (vFn m 1))
  | .vfmulVfpx vd va vb m => some (fmtR 0x27 vd va vb (vFn m 2))
  | .vfdivVfpx vd va vb m => some (fmtR 0x27 vd va vb (vFn m 3))
  | .vfminVfpx vd va vb m => some (fmtR 0x27 vd va vb (vFn m 4))
  | .vfmaxVfpx vd va vb m => some (fmtR 0x27 vd va vb (vFn m 5))
  | .vfsgnjVfpx vd va vb m => some (fmtR 0x27 vd va vb (vFn m 13))
  | .vfma vd va vb vc m => some (fmtR 0x28 vd va vb (v4Fn vc m))
  | .vfms vd va vb vc m => some (fmtR 0x29 vd va vb (v4Fn vc m))
  | .vfnma vd va vb vc m => some (fmtR 0x2A vd va vb (v4Fn vc m))
  | .vfnms vd va vb vc m => some (fmtR 0x2B vd va vb (v4Fn vc m))
  | .vcmpInt pd va vb m c => some (fmtR 0x2C pd va vb (vFn m c.toNat))
  | .vcmpFp pd va vb m c => some (fmtR 0x2C pd va vb (vFn m (16 + c.toNat)))
  | .vcmpxInt pd va vb m c => some (fmtR 0x2D pd va vb (vFn m c.toNat))
  | .vcmpxFp pd va vb m c => some (fmtR 0x2D pd va vb (vFn m (16 + c.toNat)))
  | .vcvtRnd vd va t m => some (fmtR 0x2E vd va t.reg (vFn m 0))
  | .vcvtSr vd va t m => some (fmtR 0x2E vd va t.reg (vFn m 1))
  | .vcvtRtz vd va t m => some (fmtR 0x2E vd va t.reg (vFn m 2))
  | .vcvtSat vd va t m => some (fmtR 0x2E vd va t.reg (vFn m 3))
  | .vcvtF4 vd va m => some (fmtR 0x2E vd va 10 (vFn m 4))
  | .vcvtF4sr vd va m => some (fmtR 0x2E vd va 10 (vFn m 5))
  | .vmov vd va m => some (fmtR 0x2F vd va 0 (vFn m 0))
  | .vbcast vd t b m => some (fmtR 0x2F vd t.reg b (vFn m 1))
  | .vsel vd va vb m => some (fmtR 0x2F vd va vb (vFn (some m) 2))
  | .vslide vd va vb m => some (fmtR 0x2F vd va vb (vFn m 3))
  | .vperm vd va vb m => some (fmtR 0x2F vd va vb (vFn m 4))
  | .vscansum vd va m => some (fmtR 0x2F vd va 0 (vFn m 5))
  | .vreint vd va t m => some (fmtR 0x2F vd va t.reg (vFn m 6))
  | .vrand vd m => some (fmtR 0x2F vd 0 0 (vFn m 7))
  | .vrandf vd m => some (fmtR 0x2F vd 0 0 (vFn m 8))
  | .vidx vd start step => some (fmtX 0x30 vd start.toNat step.toNat)
  | .pand pd pa pb => some (fmtR 0x31 pd pa pb 0)
  | .por pd pa pb => some (fmtR 0x31 pd pa pb 1)
  | .pxor pd pa pb => some (fmtR 0x31 pd pa pb 2)
  | .pandn pd pa pb => some (fmtR 0x31 pd pa pb 3)
  | .pnot pd pa => some (fmtR 0x31 pd pa 0 4)
  | .pset pd => some (fmtR 0x31 pd 0 0 5)
  | .pclr pd => some (fmtR 0x31 pd 0 0 6)
  | .pmov pd pa => some (fmtR 0x31 pd pa 0 7)
  | .vredsum d va m q => some (fmtR 0x32 d va 0 (vredFn q m 0))
  | .vredsumt d va m q => some (fmtR 0x32 d va 0 (vredFn q m 1))
  | .vredmax d va m q => some (fmtR 0x32 d va 0 (vredFn q m 2))
  | .vredmin d va m q => some (fmtR 0x32 d va 0 (vredFn q m 3))
  | .vredmaxu d va m q => some (fmtR 0x32 d va 0 (vredFn q m 4))
  | .vredminu d va m q => some (fmtR 0x32 d va 0 (vredFn q m 5))
  | .vredand d va m q => some (fmtR 0x32 d va 0 (vredFn q m 6))
  | .vredor d va m q => some (fmtR 0x32 d va 0 (vredFn q m 7))
  | .vredxor d va m q => some (fmtR 0x32 d va 0 (vredFn q m 8))
  | .vredrow d va m q => some (fmtR 0x32 d va 0 (vredFn q m 9))
  | .vredrowmax d va m q => some (fmtR 0x32 d va 0 (vredFn q m 10))
  | .vffs d va m q => some (fmtR 0x32 d va 0 (vredFn q m 11))
  | .vpop d va m q => some (fmtR 0x32 d va 0 (vredFn q m 12))
  | .mma d a b => some (fmtR 0x33 d a b 0)
  | .mzero d b => some (fmtR 0x33 d 0 b 1)
  | .msync d a => some (fmtR 0x33 d a 0 2)
  | .mtarget a => some (fmtR 0x33 0 a 0 3)
  | .mshape a b => some (fmtR 0x33 0 a b 4)
  | .mslot d a b => some (fmtR 0x33 d a b 5)
  | .barArrive g => some (fmtR 0x34 0 0 (slotReg g) 0)
  | .barWait g => some (fmtR 0x34 0 0 (slotReg g) 1)
  | .barTest g => some (fmtR 0x34 0 0 (slotReg g) 2)
  | .fenceC => some (fmtR 0x34 0 0 0 3)
  | .fenceK => some (fmtR 0x34 0 0 0 4)
  | .fenceD => some (fmtR 0x34 0 0 0 5)
  | .fenceS => some (fmtR 0x34 0 0 0 6)
  | .xcopy d a => some (fmtR 0x35 d a 0 0)
  | .xwait d a => some (fmtR 0x35 d a 0 1)
  | .xpoll d a => some (fmtR 0x35 d a 0 2)
  | .xcancel a => some (fmtR 0x35 0 a 0 3)
  | .tdinv a => some (fmtR 0x36 0 a 0 0)
  | .tdinvall => some (fmtR 0x36 0 0 0 1)
  | .waitTimeout => none
  | .passStart => none
  | .stripCommit _ => none
  | .passComplete => none
  | .laneError _ _ _ _ => none
  | .clusterRenumber _ => none
  | .clusterRetirement _ => none
  | .deferredTrap => none
  | .interrupt => none
  | .laneRetirementNotice => none
  | .arrivalMarkerFire => none
  | .jobStart _ _ => none
  | .jobComplete _ _ => none
  | .mmaExecute _ _ => none
  | .mmaComplete _ => none
  | .slotPeriod => none
  | .rowActivationAlert _ _ => none
  | .backoffEnd _ _ => none
  | .activationWindowRelease _ => none
  | .channelPredicted _ _ => none
  | .channelFailed _ _ => none
  | .failedChannelRetirement _ _ => none
  | .migrationWindowStall _ => none
  | .migrationWindowSwitch _ => none
  | .launchPortWrite _ => none
  | .launchAccept => none
  | .waitConditionPoll _ => none
  | .priorityAging _ => none
  | .strandPlacement _ _ => none
  | .preemption => none
  | .strandRestore _ => none
  | .launchComplete _ => none
  | .hostBar2Read _ _ => none
  | .hostBar2Write _ _ => none
  | .ctxactActivate _ => none
  | .ctxactDeactivate _ => none
  | .registerWrite _ _ => none
  | .attest _ => none
  | .milepost _ => none
  | .raslog _ => none
  | .powermode _ => none
  | .tenantkey _ => none
  | .chanret _ => none
  | .debugunlock _ => none
  | .mailboxCtxact _ => none
  | .extend _ => none
  | .priResponse _ _ => none
  | .priTimeout _ => none
  | .atsInvalidation _ _ => none
  | .ideInsecure _ => none
  | .peerAccess _ => none
  | .peerErrorCompletion _ => none
  | .peerTimeout _ => none
  | .linkTraining _ => none
  | .portWidthChange _ => none
  | .lifecycleFuse _ => none
  | .coldReset => none
  | .warmReset => none
  | .illegalInstruction _ => none
  | .emulationTrap _ => none
  | .mccFailure _ => none
  | .hostUnsupportedRequest => none
  | .ideKm _ _ => none
  | .debuggerHalt _ _ _ => none
  | .powerGating _ _ => none

/-- The word of an instruction; an event of the device has none. -/
def encode (i : Instr) : Option IWord :=
  (encodeNat i).map (BitVec.ofNat 32)

/-- The word of an instruction, zero for an event: what EVA receives when an instruction traps on itself (R297). -/
def wordOf (i : Instr) : IWord := (encode i).getD 0

/-- A word from its four bytes, the lowest address first (R5, R21). -/
def wordOfBytes (bs : List Byte) : Option IWord :=
  match bs with
  | b0 :: b1 :: b2 :: b3 :: _ => some (b3 ++ b2 ++ b1 ++ b0)
  | _ => none

/-- The instruction at the head of a list of bytes, and the bytes after it (R21). -/
noncomputable def decodeBytes (bs : List Byte) : Except DecodeError (Instr × List Byte) :=
  match wordOfBytes bs with
  | none => .error .tooShort
  | some w =>
    match decodeWord w with
    | .ok i => .ok (i, bs.drop 4)
    | .error e => .error e

/-- The bytes of a word, the least significant first (R5). -/
def bytesOfWord (w : IWord) : List Byte :=
  [BitVec.ofNat 8 w.toNat, BitVec.ofNat 8 (w.toNat / 2 ^ 8), BitVec.ofNat 8 (w.toNat / 2 ^ 16), BitVec.ofNat 8 (w.toNat / 2 ^ 24)]

/-- The instruction whose bits, numbered as spec/opcode_table.json numbers them, are `w`: laid out as bytes in memory order and
given to the decoder. Every instruction is one 32-bit word, so `nbits` bounds what of `w` is meant. -/
noncomputable def decodeTableWord (nbits w : Nat) : Option Instr :=
  match decodeBytes (bytesOfWord (BitVec.ofNat 32 (w % 2 ^ nbits))) with
  | .ok (i, _) => some i
  | .error _ => none

end Sys2Proof
end

