-- ==== Sys2Proof/Machine/Flags.lean ====
section
/-!
DEFINITION. The floating-point exception flags of spec/07 (R116, R127) and of spec/12 (R200), the formats of spec/10 (R171),
the rounding of R173 to R176 and the stochastic rounding of spec/11 (R195). Every scalar, vector, matrix and conversion result
is rounded here and nowhere else.
-/

namespace Sys2Proof.Machine

/-- The flags in the order of FPFLAGS: NV, DZ, OF, UF, NX in bits 4 to 0 (R116). -/
abbrev FFlags := BitVec 5

def flNone : FFlags := 0#5
def flNV : FFlags := 16#5
def flDZ : FFlags := 8#5
def flOF : FFlags := 4#5
def flUF : FFlags := 2#5
def flNX : FFlags := 1#5

/-- The rounding modes of R173. -/
inductive RM where
  | rne | rtz | rup | rdn
  deriving DecidableEq, Repr, Inhabited

/-- RM from its two bits (R173). -/
def rmOf (x : Word) : RM :=
  match x.toNat % 4 with
  | 0 => .rne | 1 => .rtz | 2 => .rup | _ => .rdn

/-- FPCTL[8:4], in the order of FPFLAGS: the flags whose raising traps (R116, R127). -/
def trapMask (fpctl : Word) : FFlags := BitVec.ofNat 5 (fpctl.toNat / 2 ^ 4)

/-- The flags of `f` whose trap bit is set (R127, R200). -/
def trapping (fpctl : Word) (f : FFlags) : Bool := (trapMask fpctl &&& f) != 0#5

/-- How a format uses its highest codes (R171). -/
inductive FmtKind where
  | ieee | e4m3 | e2m1
  deriving DecidableEq, Repr, Inhabited

/-- A floating-point format: exponent and fraction widths and the bias (R171). -/
structure Fmt where
  ew : Nat
  mw : Nat
  bias : Nat
  kind : FmtKind
  deriving DecidableEq, Repr, Inhabited

def fmtF64 : Fmt := ⟨11, 52, 1023, .ieee⟩
def fmtF32 : Fmt := ⟨8, 23, 127, .ieee⟩
def fmtF16 : Fmt := ⟨5, 10, 15, .ieee⟩
def fmtBf16 : Fmt := ⟨8, 7, 127, .ieee⟩
def fmtE4m3 : Fmt := ⟨4, 3, 7, .e4m3⟩
def fmtE5m2 : Fmt := ⟨5, 2, 15, .ieee⟩
def fmtE2m1 : Fmt := ⟨2, 1, 1, .e2m1⟩

/-- The format of a floating-point type (R171). -/
def tyFmt (t : Ty) : Option Fmt :=
  match t with
  | .f64 => some fmtF64 | .f32 => some fmtF32 | .f16 => some fmtF16 | .bf16 => some fmtBf16
  | .e4m3 => some fmtE4m3 | .e5m2 => some fmtE5m2 | .e2m1 => some fmtE2m1
  | .i8 | .i16 | .i32 | .i64 | .ch8 | .ch4 => none

/-- The element size of a type in bits (R24, R170, R171, R177). -/
def tyBits (t : Ty) : Nat :=
  match t with
  | .i8 => 8 | .i16 => 16 | .i32 => 32 | .i64 => 64 | .f16 => 16 | .bf16 => 16 | .f32 => 32 | .f64 => 64
  | .e4m3 => 8 | .e5m2 => 8 | .e2m1 => 4 | .ch8 => 8 | .ch4 => 4

def tyIsInt (t : Ty) : Bool :=
  match t with | .i8 | .i16 | .i32 | .i64 => true | _ => false

/-- f16, bf16, f32 and f64 (R197). -/
def tyIsFloat (t : Ty) : Bool :=
  match t with | .f16 | .bf16 | .f32 | .f64 => true | _ => false

/-- The arithmetic types (R197). -/
def tyIsArith (t : Ty) : Bool := tyIsInt t || tyIsFloat t

/-- The width of a code. -/
def Fmt.width (f : Fmt) : Nat := 1 + f.ew + f.mw

/-- The sign bit of a code of negative sign. -/
def Fmt.signBit (f : Fmt) (neg : Bool) : Nat := if neg then 2 ^ (f.ew + f.mw) else 0

/-- The exponent of the least binade, 1 - bias. -/
def Fmt.emin (f : Fmt) : Int := 1 - (f.bias : Int)

/-- The exponent of the least significant bit of a subnormal. -/
def Fmt.qmin (f : Fmt) : Int := f.emin - (f.mw : Int)

/-- The magnitude code of the largest finite value (R171). -/
def Fmt.largest (f : Fmt) : Nat :=
  match f.kind with
  | .ieee => (2 ^ f.ew - 1) * 2 ^ f.mw - 1
  | .e4m3 => 0x7E
  | .e2m1 => 7

/-- The canonical NaN (R171); e2m1 has none, and its stand-in +0 is what R174 gives. -/
def Fmt.cnan (f : Fmt) : Nat :=
  match f.kind with
  | .ieee => (2 ^ f.ew - 1) * 2 ^ f.mw + 2 ^ (f.mw - 1)
  | .e4m3 => 0x7F
  | .e2m1 => 0

/-- The magnitude code of infinity, for the formats that have one. -/
def Fmt.infCode (f : Fmt) : Nat := (2 ^ f.ew - 1) * 2 ^ f.mw

/-- A value: a NaN, an infinity, or (-1)^neg * (man + s) * 2^exp where s is 0, or lies strictly between 0 and 1 when `sticky`
says that the exact magnitude is a little above `man`. -/
inductive FVal where
  | nan (signalling : Bool)
  | inf (neg : Bool)
  | num (neg : Bool) (man : Nat) (exp : Int) (sticky : Bool)
  deriving DecidableEq, Repr, Inhabited

/-- The value of a code (R171, R172). -/
def decodeF (f : Fmt) (c : Nat) : FVal :=
  let neg := c / 2 ^ (f.ew + f.mw) % 2 == 1
  let e := c / 2 ^ f.mw % 2 ^ f.ew
  let m := c % 2 ^ f.mw
  let fin : FVal :=
    if e = 0 then .num neg m f.qmin false
    else .num neg (m + 2 ^ f.mw) (f.qmin + (e : Int) - 1) false
  match f.kind with
  | .e2m1 => fin
  | .e4m3 => if e = 15 ∧ m = 7 then .nan false else fin
  | .ieee =>
    if e = 2 ^ f.ew - 1 then
      (if m = 0 then .inf neg else .nan (m / 2 ^ (f.mw - 1) == 0))
    else fin

def FVal.isNan (x : FVal) : Bool := match x with | .nan _ => true | _ => false
def FVal.isSnan (x : FVal) : Bool := match x with | .nan s => s | _ => false
def FVal.isInf (x : FVal) : Bool := match x with | .inf _ => true | _ => false
def FVal.isZero (x : FVal) : Bool := match x with | .num _ 0 _ false => true | _ => false
def FVal.neg (x : FVal) : Bool :=
  match x with | .nan _ => false | .inf n => n | .num n _ _ _ => n

/-- The value with its sign inverted. -/
def FVal.negate (x : FVal) : FVal :=
  match x with | .nan s => .nan s | .inf n => .inf (!n) | .num n m e s => .num (!n) m e s

/-- A power of two of an exponent that is not negative. -/
def pow2 (e : Int) : Nat := 2 ^ e.toNat

/-- The part of a magnitude below the quantum 2^q: 0 none, 1 below one half, 2 one half, 3 above one half; with the whole
multiples of 2^q. -/
def splitAt (man : Nat) (exp : Int) (sticky : Bool) (q : Int) : Nat × Nat :=
  if q ≤ exp then (man * pow2 (exp - q), if sticky then 1 else 0)
  else
    let d := pow2 (q - exp)
    let n := man / d
    let r := man % d
    let twice := 2 * r
    (n, if twice < d then (if r = 0 ∧ sticky = false then 0 else 1)
        else if twice = d then (if sticky then 3 else 2) else 3)

/-- Whether a magnitude with `n` whole quanta and the part `cls` of `splitAt` rounds up in magnitude (R173). -/
def roundsUp (mode : RM) (neg : Bool) (n cls : Nat) : Bool :=
  match mode with
  | .rne => cls == 3 || (cls == 2 && n % 2 == 1)
  | .rtz => false
  | .rup => !neg && cls != 0
  | .rdn => neg && cls != 0

/-- The quantum of a magnitude in a format: that of its binade, and no less than that of the subnormals. -/
def quantumOf (f : Fmt) (man : Nat) (exp : Int) : Int :=
  let q := (Nat.log2 man : Int) + exp - (f.mw : Int)
  if man = 0 ∨ q < f.qmin then f.qmin else q

/-- Whether n * 2^q, with n at most 2^(mw+1) and normalised where q is above the least quantum, exceeds the largest finite
value. -/
def exceeds (f : Fmt) (n : Nat) (q : Int) : Bool :=
  let lm := 2 ^ f.mw + f.largest % 2 ^ f.mw
  let lq := f.qmin + ((f.largest / 2 ^ f.mw : Nat) : Int) - 1
  q > lq || (q == lq && n > lm)

/-- The magnitude code of n * 2^q, representable. -/
def magCode (f : Fmt) (n : Nat) (q : Int) : Nat := (q - f.qmin).toNat * 2 ^ f.mw + n

/-- The magnitude code that an overflow gives (R174, R195): `toInf` when the mode rounds away from zero. -/
def overflowCode (f : Fmt) (neg sat toInf : Bool) : Nat :=
  if sat || !toInf then f.signBit neg + f.largest
  else
    match f.kind with
    | .ieee => f.signBit neg + f.infCode
    | .e4m3 => 0x7F
    | .e2m1 => f.signBit neg + f.largest

/-- What R174 gives a NaN. -/
def roundNan (f : Fmt) (signalling : Bool) : Nat × FFlags :=
  match f.kind with
  | .e2m1 => (0, flNV)
  | _ => (f.cnan, if signalling then flNV else flNone)

/-- What R174 gives an infinity; RoundSat gives the largest finite code with no flag. -/
def roundInf (f : Fmt) (sat neg : Bool) : Nat × FFlags :=
  if sat then (f.signBit neg + f.largest, flNone)
  else
    match f.kind with
    | .ieee => (f.signBit neg + f.infCode, flNone)
    | .e4m3 => (0x7F, flNV)
    | .e2m1 => (f.signBit neg + f.largest, flNV)

/-- Round(x, T, mode) of R174, and RoundSat when `sat`. -/
def roundF (f : Fmt) (mode : RM) (sat : Bool) (x : FVal) : Nat × FFlags :=
  match x with
  | .nan s => roundNan f s
  | .inf n => roundInf f sat n
  | .num neg man exp sticky =>
    let q := quantumOf f man exp
    let (n, cls) := splitAt man exp sticky q
    let y := if roundsUp mode neg n cls then n + 1 else n
    if exceeds f y q then
      let away := match mode with
        | .rne => true | .rtz => false | .rup => !neg | .rdn => neg
      (overflowCode f neg sat away, flOF ||| flNX)
    else
      let nx := if cls = 0 then flNone else flNX
      let uf := if cls ≠ 0 ∧ y < 2 ^ f.mw then flUF else flNone
      (f.signBit neg + magCode f y q, nx ||| uf)

/-- StochRound(x, T, w) of R195, and StochRoundSat when `sat`; both give an infinity as Round does. -/
def stochRound (f : Fmt) (sat : Bool) (w : Nat) (x : FVal) : Nat × FFlags :=
  match x with
  | .nan s => roundNan f s
  | .inf n => roundInf f false n
  | .num neg man exp sticky =>
    let q := quantumOf f man exp
    let (n, cls) := splitAt man exp sticky q
    if cls = 0 then
      if exceeds f n q then (overflowCode f neg sat true, flOF ||| flNX)
      else (f.signBit neg + magCode f n q, flNone)
    else
      -- Floor(p * 2^32), p the part of the magnitude above n quanta
      let t := man * pow2 (exp - q + 32) / pow2 (-(exp - q + 32)) % 2 ^ 32
      let y := if w < t then n + 1 else n
      if exceeds f y q then (overflowCode f neg sat true, flOF ||| flNX)
      else
        (f.signBit neg + magCode f y q, flNX ||| (if y < 2 ^ f.mw then flUF else flNone))

/-! ### Exact arithmetic -/

/-- The exact sum of signed integers times powers of two, as one integer times a power of two. -/
def sumTerms (l : List (Int × Int)) : Int × Int :=
  let e := l.foldl (fun m t => if t.1 = 0 then m else if t.2 < m then t.2 else m)
    (l.foldl (fun m t => if t.2 > m then t.2 else m) (match l with | [] => 0 | t :: _ => t.2))
  (l.foldl (fun s t => if t.1 = 0 then s else s + t.1 * (pow2 (t.2 - e) : Int)) 0, e)

/-- A finite value as a signed integer times a power of two. -/
def FVal.term (x : FVal) : Int × Int :=
  match x with
  | .num n m e _ => (if n then -(m : Int) else (m : Int), e)
  | _ => (0, 0)

/-- A finite sum, with the sign of an exact zero by R176: -0 when every addend is -0, else +0, or -0 under RDN.
DEDUCED, log entry 52. -/
def sumFinite (mode : RM) (l : List FVal) : FVal :=
  let (s, e) := sumTerms (l.map FVal.term)
  if s = 0 then
    .num (if l.all (fun x => x.isZero && x.neg) then true else mode == .rdn) 0 0 false
  else .num (decide (s < 0)) s.natAbs e false

/-- A sum of any number of values: NaN operands, opposite infinities (invalid), one infinity, or the finite sum. The second
result says whether NV is raised (R128, R129, R205). -/
def sumF (mode : RM) (l : List FVal) : FVal × FFlags :=
  if l.any FVal.isNan then (.nan false, if l.any FVal.isSnan then flNV else flNone)
  else if l.any (fun x => x.isInf && x.neg) && l.any (fun x => x.isInf && !x.neg) then (.nan false, flNV)
  else if l.any FVal.isInf then (.inf (l.any fun x => x.isInf && x.neg), flNone)
  else (sumFinite mode l, flNone)

/-- An exact product; 0 times infinity is invalid (R128). A NaN product raises NV here only for a signalling operand. -/
def mulF (a b : FVal) : FVal × FFlags :=
  match a, b with
  | .nan s, .nan t => (.nan false, if s || t then flNV else flNone)
  | .nan s, _ => (.nan false, if s then flNV else flNone)
  | _, .nan t => (.nan false, if t then flNV else flNone)
  | .inf n, .inf m => (.inf (n != m), flNone)
  | .inf n, .num m k _ _ => if k = 0 then (.nan false, flNV) else (.inf (n != m), flNone)
  | .num n k _ _, .inf m => if k = 0 then (.nan false, flNV) else (.inf (n != m), flNone)
  | .num n k e _, .num m l d _ => (.num (n != m) (k * l) (e + d) false, flNone)

/-- Rounds a value that carries flags of its own. -/
def finish (f : Fmt) (mode : RM) (x : FVal × FFlags) : Nat × FFlags :=
  let r := roundF f mode false x.1
  (r.1, r.2 ||| x.2)

def addF (f : Fmt) (mode : RM) (a b : FVal) : Nat × FFlags := finish f mode (sumF mode [a, b])

def prodF (f : Fmt) (mode : RM) (a b : FVal) : Nat × FFlags := finish f mode (mulF a b)

/-- a * b + c, rounded once. NV for 0 * infinity even when c is a quiet NaN (R129, R205). -/
def fmaF (f : Fmt) (mode : RM) (a b c : FVal) : Nat × FFlags :=
  let p := mulF a b
  if c.isSnan then (f.cnan, flNV)
  else if p.1.isNan then (f.cnan, p.2)
  else finish f mode (sumF mode [p.1, c])

/-- The bits that a quotient or root is computed to before rounding: enough that one sticky bit decides (more than the
fraction of any format). -/
def workBits : Nat := 64

/-- a / b (R128): 0/0 and infinity/infinity invalid, a finite non-zero value over zero raises DZ. -/
def divF (f : Fmt) (mode : RM) (a b : FVal) : Nat × FFlags :=
  match a, b with
  | .nan s, .nan t => (f.cnan, if s || t then flNV else flNone)
  | .nan s, _ => (f.cnan, if s then flNV else flNone)
  | _, .nan t => (f.cnan, if t then flNV else flNone)
  | .inf _, .inf _ => (f.cnan, flNV)
  | .inf n, .num m _ _ _ => finish f mode (.inf (n != m), flNone)
  | .num n _ _ _, .inf m => finish f mode (.num (n != m) 0 0 false, flNone)
  | .num n k e _, .num m l d _ =>
    if l = 0 then
      (if k = 0 then (f.cnan, flNV) else finish f mode (.inf (n != m), flDZ))
    else
      let sh := workBits + Nat.log2 l + 1
      let num := k * 2 ^ sh
      finish f mode (.num (n != m) (num / l) (e - d - (sh : Int)) (num % l != 0), flNone)

/-- The integer square root, bit by bit from bit `k - 1` down. -/
def isqrtGo (n : Nat) (k r : Nat) : Nat :=
  match k with
  | 0 => r
  | k + 1 => isqrtGo n k (if (r + 2 ^ k) * (r + 2 ^ k) ≤ n then r + 2 ^ k else r)

/-- The largest r with r * r at most n. -/
def isqrt (n : Nat) : Nat := isqrtGo n (Nat.log2 n / 2 + 1) 0

/-- The square root (R128): of -0 it is -0, of a value below -0 invalid. -/
def sqrtF (f : Fmt) (mode : RM) (a : FVal) : Nat × FFlags :=
  match a with
  | .nan s => (f.cnan, if s then flNV else flNone)
  | .inf n => if n then (f.cnan, flNV) else finish f mode (.inf false, flNone)
  | .num n k e _ =>
    if k = 0 then finish f mode (.num n 0 0 false, flNone)
    else if n then (f.cnan, flNV)
    else
      let odd := e % 2
      let m := k * 2 ^ odd.toNat * 2 ^ (2 * workBits)
      let r := isqrt m
      finish f mode (.num false r ((e - odd) / 2 - (workBits : Int)) (r * r != m), flNone)

/-- 1 / a (R204). -/
def rcpF (f : Fmt) (mode : RM) (a : FVal) : Nat × FFlags := divF f mode (.num false 1 0 false) a

/-- 1 / sqrt a (R204). -/
def rsqF (f : Fmt) (mode : RM) (a : FVal) : Nat × FFlags :=
  match a with
  | .nan s => (f.cnan, if s then flNV else flNone)
  | .inf n => if n then (f.cnan, flNV) else (0, flNone)
  | .num n k e _ =>
    if k = 0 then (f.signBit n + f.infCode, flDZ)
    else if n then (f.cnan, flNV)
    else
      let odd := e % 2
      let m := k * 2 ^ odd.toNat
      let sh := workBits + Nat.log2 m + 1
      let q := 2 ^ (2 * sh) / m
      let r := isqrt q
      finish f mode (.num false r (-((e - odd) / 2) - (sh : Int)) (r * r * m != 2 ^ (2 * sh)), flNone)

/-! ### 2^x and log2 x, correctly rounded

Off the exact cases of R204 these values are irrational, so a fixed-point interval that is narrow enough decides the rounding.
The intervals are tried at the growing precisions of `precs`. -/

def precs : List Nat := [128, 256, 512, 1024]

/-- ln 2 in units of 2^-p, from below, short of it by at most p + 1 units: the sum of 1/(k 2^k). -/
def ln2Go (p : Nat) : Nat → Nat → Nat
  | 0, acc => acc
  | k + 1, acc => ln2Go p k (acc + 2 ^ p / ((k + 1) * 2 ^ (k + 1)))

def ln2Fix (p : Nat) : Nat := ln2Go p (p + 1) 0

/-- The sum of y^k / k! for k counted from `k`, in units of 2^-p, each term from below. -/
def expGo (p y : Nat) : Nat → Nat → Nat → Nat → Nat
  | 0, _, _, acc => acc
  | n + 1, k, term, acc =>
    if term = 0 then acc else expGo p y n (k + 1) (term * y / 2 ^ p / (k + 1)) (acc + term)

/-- 2^(fr / 2^p) in units of 2^-p from below, short of it by less than 8 p units, for fr below 2^p. -/
def exp2Fix (p fr : Nat) : Nat := expGo p (fr * ln2Fix p / 2 ^ p) (p + 2) 0 (2 ^ p) 0

/-- Rounds the first interval [lo, hi] of the list whose two ends give one code; each entry is (lo, hi, exponent of the unit). -/
def roundInterval (f : Fmt) (mode : RM) (neg : Bool) : List (Nat × Nat × Int) → Nat × FFlags
  | [] => (f.cnan, flNone)
  | (lo, hi, e) :: rest =>
    let a := roundF f mode false (.num neg lo e true)
    let b := roundF f mode false (.num neg hi e true)
    if a = b ∨ rest.isEmpty then a else roundInterval f mode neg rest

/-- 2^a (R204). -/
def exp2F (f : Fmt) (mode : RM) (a : FVal) : Nat × FFlags :=
  match a with
  | .nan s => (f.cnan, if s then flNV else flNone)
  | .inf n => if n then (0, flNone) else (f.infCode, flNone)
  | .num n k e _ =>
    -- |a| of 2^20 or more overflows or underflows every format
    if k ≠ 0 ∧ (Nat.log2 k : Int) + e ≥ 20 then
      roundF f mode false (.num false 1 (if n then -(2 ^ 20) else 2 ^ 20) true)
    else if k = 0 then roundF f mode false (.num false 1 0 false)
    else
      let fl : Int := if 0 ≤ e then (k * pow2 e : Nat) else ((k / pow2 (-e) : Nat) : Int)
      let frn : Nat := if 0 ≤ e then 0 else k % pow2 (-e)
      let whole : Int := if n then (if frn = 0 then -fl else -fl - 1) else fl
      if frn = 0 then roundF f mode false (.num false 1 whole false)
      else
        let d := pow2 (-e)
        let fr := if n then d - frn else frn
        roundInterval f mode false <| precs.map fun p =>
          let lo := exp2Fix p (fr * 2 ^ p / d)
          (lo, min (lo + 8 * p) (2 ^ (p + 1) - 1), whole - (p : Int))

/-- The sum of z^(2k+1)/(2k+1) in units of 2^-p, each term from below; `zk` is z^(2k+1). -/
def atanhGo (p z2 : Nat) : Nat → Nat → Nat → Nat → Nat
  | 0, _, _, acc => acc
  | n + 1, k, zk, acc =>
    if zk = 0 then acc else atanhGo p z2 n (k + 1) (zk * z2 / 2 ^ p) (acc + zk / (2 * k + 1))

/-- log2 of m / 2^w, for m from 2^w below 2^(w+1), in units of 2^-p: a lower and an upper bound. -/
def log2Fix (p w m : Nat) : Nat × Nat :=
  let z := (m - 2 ^ w) * 2 ^ p / (m + 2 ^ w)
  let z1 := z + 1
  let lo := 2 * atanhGo p (z * z / 2 ^ p) (p + 2) 0 z 0
  let hi := 2 * (atanhGo p (z1 * z1 / 2 ^ p + 1) (p + 2) 0 z1 0 + 2 * p)
  (lo * 2 ^ p / (ln2Fix p + p + 2), hi * 2 ^ p / ln2Fix p + 1)

/-- log2 a (R204). -/
def log2F (f : Fmt) (mode : RM) (a : FVal) : Nat × FFlags :=
  match a with
  | .nan s => (f.cnan, if s then flNV else flNone)
  | .inf n => if n then (f.cnan, flNV) else (f.infCode, flNone)
  | .num n k e _ =>
    if k = 0 then (f.signBit true + f.infCode, flDZ)
    else if n then (f.cnan, flNV)
    else
      let w := Nat.log2 k
      let whole : Int := (w : Int) + e
      if k = 2 ^ w then
        roundF f mode false (.num (decide (whole < 0)) whole.natAbs 0 false)
      else
        roundInterval f mode (decide (whole < 0)) <| precs.map fun p =>
          let (lo, hi) := log2Fix p w k
          let base : Int := whole * 2 ^ p
          if whole < 0 then
            ((-(base + hi)).toNat, (-(base + lo)).toNat, -(p : Int))
          else ((base + lo).toNat, (base + hi).toNat, -(p : Int))

/-! ### Comparison, integers and classes -/

/-- The order of two values that are not NaN; -0 and +0 compare equal. -/
def cmpF (a b : FVal) : Ordering :=
  match a, b with
  | .inf n, .inf m => compare (if n then (0 : Nat) else 1) (if m then 0 else 1)
  | .inf n, _ => if n then .lt else .gt
  | _, .inf m => if m then .gt else .lt
  | _, _ => compare (sumTerms [a.term, (b.negate).term]).1 0

/-- The order that FMIN, FMAX and the reductions use: -0 below +0 (R128, R204, R215). -/
def cmpMin (a b : FVal) : Ordering :=
  match cmpF a b with
  | .eq => if a.neg == b.neg then .eq else if a.neg then .lt else .gt
  | o => o

/-- FMIN (`wantMax` false) and FMAX of two codes (R128): a NaN gives way to the other operand, whose code is kept. -/
def minmaxF (f : Fmt) (wantMax : Bool) (a b : Nat) : Nat × FFlags :=
  let x := decodeF f a
  let y := decodeF f b
  let fl := if x.isSnan || y.isSnan then flNV else flNone
  if x.isNan && y.isNan then (f.cnan, fl)
  else if x.isNan then (b, fl)
  else if y.isNan then (a, fl)
  else
    match cmpMin x y with
    | .lt => (if wantMax then b else a, fl)
    | .eq => (a, fl)
    | .gt => (if wantMax then a else b, fl)

/-- A value rounded to an integer and held to the range lo to hi: outside it, or for a NaN, NV and not NX (R128, R207). -/
def toIntF (mode : RM) (lo hi : Int) (x : FVal) : Int × FFlags :=
  match x with
  | .nan _ => (0, flNV)
  | .inf n => (if n then lo else hi, flNV)
  | .num neg man exp sticky =>
    let (n, cls) := splitAt man exp sticky 0
    let y := if roundsUp mode neg n cls then n + 1 else n
    let v : Int := if neg then -(y : Int) else (y : Int)
    if v < lo then (lo, flNV) else if hi < v then (hi, flNV)
    else (v, if cls = 0 then flNone else flNX)

/-- An integer as a value; zero is +0. -/
def ofIntF (i : Int) : FVal := .num (decide (i < 0)) i.natAbs 0 false

/-- A value rounded to an integral value of its own type, without NX (VFRINT, R204). -/
def rintF (f : Fmt) (mode : RM) (x : FVal) : Nat × FFlags :=
  match x with
  | .nan s => (f.cnan, if s then flNV else flNone)
  | .inf n => (f.signBit n + f.infCode, flNone)
  | .num neg man exp sticky =>
    if 0 ≤ exp then ((roundF f mode false x).1, flNone)
    else
      let (n, cls) := splitAt man exp sticky 0
      let y := if roundsUp mode neg n cls then n + 1 else n
      ((roundF f mode false (.num neg y 0 false)).1, flNone)

/-- The sign cleared (`set` false) or inverted; a NaN gives the canonical NaN (R128, R204). -/
def absF (f : Fmt) (c : Nat) : Nat :=
  if (decodeF f c).isNan then f.cnan else c % 2 ^ (f.ew + f.mw)

def negF (f : Fmt) (c : Nat) : Nat :=
  if (decodeF f c).isNan then f.cnan
  else c % 2 ^ (f.ew + f.mw) + f.signBit (c / 2 ^ (f.ew + f.mw) % 2 == 0)

/-- The magnitude of a with the sign bit of b; a NaN a gives the canonical NaN (R204). -/
def sgnjF (f : Fmt) (a b : Nat) : Nat :=
  if (decodeF f a).isNan then f.cnan
  else a % 2 ^ (f.ew + f.mw) + f.signBit (b / 2 ^ (f.ew + f.mw) % 2 == 1)

/-- The bit of FCLASS (R128). -/
def classBit (f : Fmt) (c : Nat) : Nat :=
  match decodeF f c with
  | .nan s => if s then 8 else 9
  | .inf n => if n then 0 else 7
  | .num n k _ _ =>
    if k = 0 then (if n then 3 else 4)
    else if k < 2 ^ f.mw then (if n then 2 else 5)
    else (if n then 1 else 6)

end Sys2Proof.Machine
end

