-- ==== Sys2Proof/Machine/State.lean ====
section
/-!
DEFINITION. The state of the TV-48: the strands, the memory and its caches, the clusters, cores and engines, the contexts,
launches and agenda, and what the host and Tollhouse see. Every field is plain data. INVENTORY.md lists each with its rule.
-/

namespace Sys2Proof.Machine

/-- The two modes (R20). -/
inductive Mode where
  | u | s
  deriving DecidableEq, Repr, Inhabited

/-- The state registers of R110 that a strand owns. VL, VROWS, VLMAX and VPROG are counts; the rest are words. TIMER, FEATURES,
PLACE, LANEPART and WMHEAD are not here: they are computed, or belong to the device, a core or a context. -/
structure SRegs where
  vl : Nat
  vrows : Nat
  vlmax : Nat
  vpol : Word
  vprog : Nat
  fpctl : Word
  fpflags : Word
  determ : Word
  rngkey : Word
  draw : Word
  strandkey : Word
  iter : Word
  groups : Word
  tdtbase : Word
  qerr : Word
  tvec : Word
  epc : Word
  ecause : Word
  eva : Word
  eblame : Word
  eforce : Word
  estatus : Word
  escratch : Word
  context : Word
  ptbase : Word
  wmbase : Word
  wmsize : Word
  istatus : Word
  savearea : Word
  deriving DecidableEq, Repr, Inhabited

/-- What a waypoint computes (R148), with the scalars it captured (R136). Member numbers are those of the opcode tables. -/
inductive WOp where
  | vld (form field : Nat) (base : Word) (t : Ty)
  | vlds (base stride : Word) (t : Ty)
  | vldt (base pitch : Word) (t : Ty)
  | vldx (tid : Nat) (t : Ty)
  | vldtd (row0 col0 : Int) (tid : Nat) (t : Ty)
  | vldz (tid j0 : Nat) (t : Ty)
  | vint (k : Nat) (x : Option Word)
  | vfp (k : Nat) (x : Option Word)
  | fma (k : Nat)
  | cmpI (c : ICond) (x : Option Word)
  | cmpF (c : FCond) (x : Option Word)
  | cvt (k : Nat)
  | mov
  | bcast (x : Word)
  | sel
  | slide (k : Int)
  | perm
  | scan
  | reint
  | rand
  | randf
  | idx (start step : Int)
  | pred (k : Nat)
  | rowres (slot sink : Nat)
  deriving DecidableEq, Repr, Inhabited

/-- A waypoint (R148). `ty` is none for a predicate stream; `srcs` are its data sources, `mask` the mask predicate, `old` the
waypoint VD named before issue under the undisturbed policy; `seg` ties the fields of one segment load. -/
structure Waypoint where
  id : Nat
  pc : Word
  major : Nat
  op : WOp
  ty : Option Ty
  vl : Nat
  vrows : Nat
  srcs : List Nat
  mask : Option Nat
  old : Option Nat
  vpol : Word
  fpctl : Word
  draw : Word
  rngkey : Word
  mark : Nat
  seg : Option Nat
  deriving DecidableEq, Repr, Inhabited

/-- What a sink does (R150), with the scalars it captured. -/
inductive SOp where
  | vst (fields : Nat) (base : Word)
  | vsts (base stride : Word)
  | vstt (base pitch : Word)
  | vstx (tid : Nat)
  | vstxadd (tid : Nat)
  | vsttd (row0 col0 : Int) (tid : Nat)
  | vstcmp (base : Word) (d : Reg)
  | vstc (row0 col0 : Int) (tid : Nat)
  | red (k : Nat) (d : Reg)
  | rowred (max : Bool) (wp slot : Nat)
  deriving DecidableEq, Repr, Inhabited

/-- A sink, queued or in a pass (R150). `data` holds one waypoint for each field, `idx` the index stream. -/
structure Sink where
  id : Nat
  pc : Word
  major : Nat
  op : SOp
  ty : Option Ty
  vl : Nat
  vrows : Nat
  data : List Nat
  idx : Option Nat
  mask : Option Nat
  vpol : Word
  fpctl : Word
  draw : Word
  rngkey : Word
  mark : Nat
  deriving DecidableEq, Repr, Inhabited

/-- A fault found by a pass (R166, R167): its element, the blamed node's place in issue order, and what the trap will hold. -/
structure PFault where
  elem : Nat
  node : Nat
  cause : Nat
  detail : Nat
  eva : Word
  blame : Word
  flags : FFlags
  deriving DecidableEq, Repr, Inhabited

/-- One statistic or pending element of a Chanter block (R258): whether it is a statistic element, its f32-exact code and type,
whether it is active, and its draw. -/
structure BlockElem where
  pos : Nat
  code : Nat
  active : Bool
  word : Nat
  deriving DecidableEq, Repr, Inhabited

/-- The partial state of a sink or a scan across strips (R161, R211): an accumulator for each row (row 0 for a whole fold), a
count, and the elements of Chanter blocks not yet written. -/
structure Partial where
  node : Nat
  accs : List (Nat × Nat)
  count : Nat
  blocks : List ((Nat × Nat) × List BlockElem)
  deriving DecidableEq, Repr, Inhabited

/-- What the Waymark record of a node counts (R304). -/
structure NodeStat where
  node : Nat
  active : Nat
  first : Nat
  last : Nat
  touched : Bool
  deriving DecidableEq, Repr, Inhabited

/-- Where a pass stands (R152, R161, R164). -/
inductive PassSt where
  | waiting | running | suspended
  deriving DecidableEq, Repr, Inhabited

/-- A chunk that failed its CRC check in a strip that drew on it, until the strip of its last element (R88): the node, the chunk, the last
element drawn so far, the slot, and whether the pass has been stopped since, so that the chunk is to be checked anew. -/
structure Unsound where
  node : Nat
  j : Nat
  last : Nat
  slot : Word
  stale : Bool
  deriving DecidableEq, Repr, Inhabited

/-- What carries a poison mark: a line of local HBM (R49) or a 4-byte word of a window (R98), by number. -/
inductive Granule where
  | line (ln : Nat)
  | word (w : Nat)
  deriving DecidableEq, Repr, Inhabited

/-- The part of a poisoned granule that one store or one copy job has written so far, as a set of nibbles (R49, R98, R250): the sink of the
store, or 0 for a job. -/
structure Cover where
  sink : Nat
  granule : Granule
  nibs : Nat
  deriving DecidableEq, Repr, Inhabited

/-- A pass in flight or suspended (R152). `next` is the first uncommitted element, `base` the one at which it started or was resumed
(R155); `asked` is its VL at force, before any trim; `descs` are the descriptors that it read at force or at its last resumption
(R144); `late` says that a trim has left tails and blocks of committed elements to be written; `cover` says how much of poisoned granules
its stores have written (R250). -/
structure Pass where
  serial : Nat
  forcePc : Word
  wps : List Waypoint
  sinks : List Sink
  vl : Nat
  vrows : Nat
  context : Word
  ptbase : Word
  user : Bool
  determ : Bool
  st : PassSt
  base : Nat
  next : Nat
  asked : Nat
  late : Bool
  unsound : List Unsound
  checked : Bool
  strips : Nat
  parts : List Partial
  stats : List NodeStat
  flags : FFlags
  descs : List (Nat × List Byte)
  fault : Option PFault
  trimmed : Bool
  faulted : Bool
  replayed : Bool
  preempted : Bool
  cover : List Cover
  deriving DecidableEq, Repr, Inhabited

/-- An unfired arrival marker (R274): its slot and phase, the serial before which every pass must complete, and the matrix
operations it waits for. -/
structure Marker where
  slot : Nat
  phase : Nat
  serial : Nat
  mops : List Nat
  deriving DecidableEq, Repr, Inhabited

/-- A deferred trap that is not of a pass: cause, detail, EVA and the blamed MMA (R241, R242). -/
structure MTrap where
  cause : Nat
  detail : Nat
  eva : Word
  pc : Word
  deriving DecidableEq, Repr, Inhabited

/-- The lane spans (R14) and the MCC slot. -/
inductive Span where
  | s8 | s16 | s32 | wide | ctrl
  deriving DecidableEq, Repr, Inhabited

/-- Where a strand stands: on a front end, in its save area, or gone (R13, R293). -/
inductive Where where
  | none
  | resident
  | saved
  deriving DecidableEq, Repr, Inhabited

/-- A write-back that a CACHEWB has asked of a peer (R48), and whether the peer has acknowledged it. -/
structure Ask where
  peer : Nat
  pa : Nat
  len : Nat
  acked : Bool
  deriving DecidableEq, Repr, Inhabited

/-- A LAUNCH that waits for the intake (R295): its PC, the record as it read it, the base identity that it derived, and whether it has
made its release. -/
structure Launching where
  pc : Word
  rcd : List Word
  base : Word
  released : Bool
  deriving DecidableEq, Repr, Inhabited

/-- An XCOPY that waits (R91): its PC, the card and the descriptor as it read them, and whether it has made its release and has written its
completion word as PENDING. -/
structure Copying where
  pc : Word
  card : List Word
  desc : List Byte
  released : Bool
  posted : Bool
  deriving DecidableEq, Repr, Inhabited

/-- A strand (R13). Cluster and core numbers are physical; `fetched` is false from a trap's entry until an
instruction of its handler has executed (R296); `age` is the step of its placement; `saveIdx` and `saveAddr` are the save area it
holds and the one it was last saved to (R303); `spilled` is the group slot at whose barrier it was
pre-empted for a member of its group (R291); `asks` are the write-backs that its CACHEWB waits for (R48); `cores` are the cores of a
wide strand, and none of another (R15); `launching` is a LAUNCH that waits (R295), `copying` an XCOPY (R91). -/
structure Strand where
  sid : Nat
  stand : Where
  cluster : Nat
  core : Nat
  slot : Nat
  lgs : BitVec 4
  span : Span
  launch : Nat
  ctx : Nat
  age : Nat
  regs : Vector Word 32
  pc : Word
  mode : Mode
  sr : SRegs
  vnames : List (Nat × Nat)
  pnames : List (Nat × Nat)
  wps : List Waypoint
  nextWp : Nat
  queue : List Sink
  passes : List Pass
  serial : Nat
  mark : Nat
  rows : List (Nat × List Nat)
  qerrSerial : Option Nat
  arrive : List Nat
  start : List Nat
  markers : List Marker
  mm : Nat
  mn : Nat
  mtarget : BitVec 24
  mtraps : List MTrap
  waiting : Bool
  woken : Bool
  fetched : Bool
  saveIdx : Nat
  saveAddr : Word
  spilled : Option Nat
  asks : List Ask
  cores : List Nat
  launching : Option Launching
  copying : Option Copying
  deriving DecidableEq, Repr, Inhabited

/-- A 64-byte line of a cluster cache (R92, R264): the tenant key it was filled under, its bytes, a dirty mask with one bit for
each nibble, since a store of e2m1 may write half a byte (R249), and the poison mark (R49). -/
structure Line where
  tag : Nat
  tenant : Nat
  bytes : List Byte
  dirty : Nat
  poison : Bool
  deriving DecidableEq, Repr, Inhabited

/-- A translation held by a TLB (R69): the leaf, and the number of page-offset bits. -/
structure TlbEntry where
  asid : Nat
  glob : Bool
  page : Nat
  bits : Nat
  leaf : Word
  deriving DecidableEq, Repr, Inhabited

/-- A pointer held by a walk cache (R69). -/
structure WalkEntry where
  asid : Nat
  page : Nat
  bits : Nat
  target : Nat
  deriving DecidableEq, Repr, Inhabited

/-- A descriptor or a level table held by a descriptor cache (R187): `table` is none for the descriptor itself, else the address and size of
the table. -/
structure DescEntry where
  asid : Nat
  tid : Nat
  table : Option (Nat × Nat)
  bytes : List Byte
  deriving DecidableEq, Repr, Inhabited

/-- The memory and everything that caches it. Cells are in canonical form: addresses strictly rising, none holding 0. `tags`
gives, for each byte of local HBM written under a key, tenant + 16 * key epoch. Window keys are cluster * 2^29 + core * 2^24 +
offset, both physical. Caches are listed by cluster or front end. `msc` lists the lines of the memory-side caches that are dirty, the
newest first (R41, R48); `past` holds the translations that left a translation cache of a cluster, until what they translated has
been performed (R75). -/
structure Mem where
  hbm : List Host.Cell
  tags : List (Nat × Nat)
  array : List Host.Cell
  poison : List Nat
  msc : List Nat
  win : List Host.Cell
  winPoison : List Nat
  hostMem : List (Nat × Byte)
  peerMem : List (Nat × Byte)
  caches : List (Nat × List Line)
  icaches : List (Nat × List Line)
  tlbs : List (Nat × List TlbEntry)
  past : List (Nat × TlbEntry)
  walks : List (Nat × List WalkEntry)
  atc : List (Nat × Nat × Nat)
  descs : List (Nat × List DescEntry)
  deriving DecidableEq, Repr, Inhabited

/-- A lane group (R10, R306, R307): lanes lost beyond the spare, whether the spare is in use, and failures counted by lane. Lanes are
numbered 0 to 7 as they were made. -/
structure LaneGroup where
  lost : List Nat
  spareUsed : Bool
  fails : List (Nat × Nat)
  deriving DecidableEq, Repr, Inhabited

/-- A core (R10, R99, R290, R308, R75). `failed` holds lane checks that failed: strand, pass serial, first
element of the strip, lane of the core. `banks` are the banks that keep failing: of the scratchpad from 0, of the accumulator store
from 32. `turn` is the slot that issued last (R292). -/
structure Core where
  part : Nat
  pin : Bool
  ctx : Option Nat
  fenced : Bool
  retired : Bool
  halted : BitVec 4
  gated : Bool
  groups : List LaneGroup
  failed : List (Nat × Nat × Nat × Nat)
  banks : List Nat
  turn : Nat
  deriving DecidableEq, Repr, Inhabited

/-- A header that a matrix operation has read (R241): which operand, target, row and block; what stands there; the levels of its table;
and whether it is poisoned. -/
structure MHdr where
  key : Nat × Nat × Nat × Nat
  h : Nat
  levels : List Nat
  poison : Bool
  deriving DecidableEq, Repr, Inhabited

/-- An accumulator of an element between two k-blocks (R233): its code, whether it is poisoned (R236), and whether its last block sum set
the sticky bit (R235). -/
structure Accum where
  code : Nat
  poison : Bool
  excess : Bool
  deriving DecidableEq, Repr, Inhabited

/-- A queued MMA or MZERO with everything it captured (R227, R237, R245), and how far it has come: whether its headers have been read, the
k-blocks applied, the headers, the accumulators by target, row and column, and the targets that have failed (R242). -/
structure MOp where
  id : Nat
  sid : Nat
  ctx : Nat
  launch : Nat
  pc : Word
  zero : Bool
  asid : Nat
  context : Word
  ptbase : Word
  user : Bool
  tids : Nat × Nat × Nat
  descs : List Byte × List Byte × List Byte
  acc : Bool
  bloc : Bool
  row0 : Nat
  k0 : Nat
  col0 : Nat
  crow0 : Nat
  ccol0 : Nat
  kcnt : Nat
  m : Nat
  n : Nat
  mask : BitVec 24
  started : Bool
  kdone : Nat
  heads : List MHdr
  accs : List Accum
  failed : BitVec 24
  done : Bool
  deriving DecidableEq, Repr, Inhabited

/-- Where a copy job stands (R81, R83, R91): accepted, started with the bytes in `done` written, stopped with its completion to be written,
or completed at cluster scope only. -/
inductive JobSt where
  | queued | running | ended | settled
  deriving DecidableEq, Repr, Inhabited

/-- A copy job (R76, R77) with the card it captured, the destination bytes it has written, how much of poisoned granules they cover
(R80) and, once ended, its completion. -/
structure Job where
  handle : Word
  ctx : Nat
  order : Nat
  context : Word
  ptbase : Word
  user : Bool
  tdtbase : Word
  cardVa : Word
  card : List Word
  desc : List Byte
  st : JobSt
  done : Nat
  status : Nat
  cause : Nat
  detail : Nat
  eva : Word
  cover : List Cover
  deriving DecidableEq, Repr, Inhabited

/-- A background fault queued to a service strand (R300 to R302). -/
structure BgFault where
  va : Word
  context : Word
  card : Word
  deriving DecidableEq, Repr, Inhabited

/-- A lane-retirement notice (R302): EVA and the Milepost sequence number. -/
structure LaneNote where
  eva : Word
  seq : Nat
  deriving DecidableEq, Repr, Inhabited

/-- A cluster (R11): its logical cores as physical numbers, whether it is draining or retired, its matrix queue, overflow bits,
slot table with the slot period last seen and its entry (R244), jobs and interrupt queues. -/
structure Cluster where
  logical : List Nat
  draining : Bool
  retired : Bool
  mccFailed : Bool
  mops : List MOp
  overflow : List (Nat × Nat × Nat)
  slots : List (Nat × Nat)
  active : Nat
  period : Nat
  jobs : List Job
  bg : List BgFault
  ras : List Nat
  notes : List LaneNote
  bells : Nat
  admitted : List Nat
  deriving DecidableEq, Repr, Inhabited

/-- The states of a channel (R56). -/
inductive ChState where
  | live | predicted | failed | retired
  deriving DecidableEq, Repr, Inhabited

/-- An activation that a channel has asked for (R51, R52). -/
structure RowAct where
  stack : Nat
  ch : Nat
  bank : Nat
  row : Nat
  deriving DecidableEq, Repr, Inhabited

/-- Clusters, cores, channels and ports. A part not listed is as manufactured. `rows` counts the activations of each row, `opened`
lists the open row of each bank, `alerted` the banks in back-off, and `waiting` the activations that wait, the oldest first (R51, R52).
`modes` lists the power modes with the time from which each holds, the present one first (R52). -/
structure Fabric where
  logical : List Nat
  clusters : List (Nat × Cluster)
  cores : List (Nat × Core)
  channels : List (Nat × ChState)
  backoff : List (Nat × Nat)
  alerted : List (Nat × Nat × Nat)
  rows : List (RowAct × Nat)
  opened : List RowAct
  waiting : List RowAct
  corrected : List (Nat × Nat)
  live : Nat
  gen : Nat
  shed : Nat
  moved : List Nat
  retiring : Option Nat
  stalled : Option Nat
  modes : List (Nat × Nat)
  activations : List (Nat × Nat)
  ports : List (Nat × Nat)
  domain : Option Nat
  deriving DecidableEq, Repr, Inhabited

/-- A group-table entry (R289); an index not listed is closed and zero. -/
structure Group where
  scope : Nat
  c : Nat
  arrn : Nat
  arrc : Nat
  exited : Nat
  n : Nat
  deriving DecidableEq, Repr, Inhabited

/-- An active context (R319) with its entry, group table, Waymark head and the save areas taken. -/
structure Ctx where
  num : Nat
  tenant : Nat
  asid : Nat
  hfn : Bool
  ats : Bool
  msivec : Nat
  saveCount : Nat
  savePool : Word
  wmbase : Word
  wmsize : Word
  tvec : Word
  tdtbase : Word
  ptbase : Word
  wmHead : Nat
  groups : List (Nat × Group)
  areas : List Nat
  deriving DecidableEq, Repr, Inhabited

/-- A group rule of a launch record (R282). -/
structure GRule where
  scope : Nat
  shift : Nat
  gsize : Nat
  gidx : Nat
  deriving DecidableEq, Repr, Inhabited

/-- An accepted launch (R281 to R293). `clNum` gives the number of each cluster that has admitted it, as it was then (R12, R308);
`since` the time of its last placement or aging (R292). -/
structure Launch where
  id : Nat
  handle : Word
  ctx : Nat
  base : Word
  entry : Word
  param : Word
  bounds : List Nat
  waitaddr : Word
  waitval : Word
  cra : Word
  prio : Nat
  aged : Nat
  span : Span
  order : List Nat
  clmask : List Nat
  clNum : List (Nat × Nat)
  since : Nat
  cor : Bool
  spill : Bool
  rules : List (Option GRule)
  eligible : Bool
  placed : Nat
  exits : Nat
  mtrap : Option MTrap
  deriving DecidableEq, Repr, Inhabited

/-- A PRI page request (R316): outstanding, or answered. -/
structure Pri where
  ctx : Nat
  asid : Nat
  page : Nat
  answer : Option (Option Nat)
  deriving DecidableEq, Repr, Inhabited

/-- A link failure that the next access of its kind meets (R278, R322). -/
inductive Armed where
  | hostUnsupported
  | peerError (peer : Nat)
  deriving DecidableEq, Repr, Inhabited

/-- What the device sends to the host and to its peers (R48, R270 to R272, R278, R314 to R317, R324). `fn` is the function, and so the
link, of a request (R316). -/
inductive Msg where
  | msix (fn : Bool) (vector : Nat)
  | bytes (fn : Bool) (bs : List Byte)
  | posted (fn : Bool)
  | unsupported (fn : Bool)
  | peerUnsupported
  | atomicOp (fn : Bool) (op : AmoOp) (pa : Nat)
  | pageRequest (fn : Bool) (asid page : Nat)
  | flushRead (fn : Bool)
  | peerReply (bs : List Byte)
  | peerAck
  | peerWriteBack (peer pa len : Nat)
  deriving DecidableEq, Repr, Inhabited

/-- Where a write went that is performed at system scope only once its destination has acknowledged it (R263, R270): a peer, or the host
over the link of a function. -/
inductive Link where
  | peer (domain : Nat)
  | host (fn : Bool)
  deriving DecidableEq, Repr, Inhabited

/-- Writes of an agent that wait for an acknowledgement (R270): the agent, 2 * sid of a strand or 2 * order + 1 of a job; whether a
release of the agent has covered them (R266); and whether the flushing read of a link has been sent. -/
structure Owed where
  owner : Nat
  link : Link
  shared : Bool
  asked : Bool
  deriving DecidableEq, Repr, Inhabited

/-- An access that comes to the device from outside: of a function of the host (R313 to R315, R319), of a peer (R272), and the
end of a context by the supervisor (R73) or with its link (R318), with the address of a fault that cannot be resolved, if that is its
reason (R286). -/
inductive Ingress where
  | bar2Read (fn : Bool) (off len : Nat)
  | bar2Write (fn : Bool) (off : Nat) (bytes : List Byte)
  | regRead (fn : Bool) (off len : Nat)
  | regWrite (fn : Bool) (off len : Nat) (v : Word)
  | port (fn : Bool) (pa : Word)
  | activate (fn : Bool) (n : Nat)
  | deactivate (fn : Bool) (n : Nat)
  | peer (a : PeerOp)
  | resize (fn : Bool) (bits : Nat)
  | endContext (n : Nat) (fault : Option Word)
  deriving DecidableEq, Repr, Inhabited

/-- An error that a check of the hardware finds: a line of DRAM (R49), a line of a cluster cache (R96), a word of a window (R98), a
lane group's TLB slice, load path or store path (R307), a bank that keeps failing (R308). -/
inductive HwError where
  | hbmLine (line : Nat)
  | cacheLine (cluster line : Nat)
  | window (word : Nat)
  | group (cluster core g : Nat)
  | bank (cluster core b : Nat)
  deriving DecidableEq, Repr, Inhabited

/-- The caches that hold copies only (R69, R95, R187, R316). -/
inductive Held where
  | fetched | tlb | walk | desc | ats
  deriving DecidableEq, Repr, Inhabited

/-- What a turn of the agenda does: a front end's boundary (R33), an event of the table, an access from outside, the eviction of a line
(R48, R92), the loss of what a cache of copies holds, an error (R49, R96, R98, R307, R308), an activation of a row (R51, R52), the
acknowledgement of owed writes or of a strand's asked write-backs (R270, R48), another try of the accesses that are held (R59), or the
boot that follows a reset (R323, R331). -/
inductive What where
  | boundary
  | event (i : Instr)
  | ingress (a : Ingress)
  | evict (cluster line : Nat)
  | evictMem (line : Nat)
  | drop (h : Held) (key : Nat)
  | error (e : HwError)
  | activate (r : RowAct)
  | acked (owner : Nat) (link : Link)
  | wroteBack (peer : Nat)
  | release
  | boot
  deriving DecidableEq, Repr, Inhabited

/-- One entry of the agenda: the strand that it selects, if any, and what happens. -/
structure Act where
  sid : Option Nat
  what : What
  deriving DecidableEq, Repr, Inhabited

/-- Contexts, launches, the agenda and what is in flight to and from the outside. `round` is what a device left to itself has
still to do before it looks again at what can be done (R294). -/
structure Sys where
  ctxs : List Ctx
  port : List Nat
  launches : List Launch
  nextLaunch : Nat
  nextSid : Nat
  nextJob : Nat
  nextMop : Nat
  rejects : Nat
  rejectLog : Nat
  pri : List Pri
  armed : List Armed
  held : List Ingress
  owed : List Owed
  outbox : List Msg
  agenda : List Act
  round : List Act
  deriving DecidableEq, Repr, Inhabited

/-- The host's registers (R313, R314, R318): CTXTAB, BAR2BASE and the size of BAR2 at each function, the mailbox area, the MSI-X tables
and pending bits of both functions, and the links whose IDE stream is insecure. Functions are keyed 0 and 1; the second's MSI-X table
follows the first's, as do its vectors. -/
structure HostSide where
  ctxtab : Word
  bar2base : Word
  bar2bits : List (Nat × Nat)
  mailbox : List (Nat × Byte)
  msix : List (Nat × Word)
  pending : List Nat
  ideKeys : List (Bool × Nat)
  insecure : List Bool
  deriving DecidableEq, Repr, Inhabited

/-- The lifecycle (R325). -/
inductive Lifecycle where
  | manufacture | deployed | debug | retired
  deriving DecidableEq, Repr, Inhabited

/-- A Milepost record (R328). -/
structure Milepost where
  timer : Nat
  seq : Nat
  gen : Nat
  kind : Nat
  new : Nat
  old : Nat
  object : Nat
  count : Nat
  deriving DecidableEq, Repr, Inhabited

/-- Tollhouse (R323 to R328): whether the boot is over, readiness, lifecycle, measurement registers, key epochs by tenant, nonces, the
Milepost table, the number of boots, the seed of the identity key pair, and the commands that wait, the oldest first: the side and the
code. -/
structure Toll where
  booted : Bool
  ready : Bool
  recovery : Bool
  life : Lifecycle
  mr : List (BitVec 512)
  epochs : List (Nat × Nat)
  nonces : List (List Byte)
  debugOpen : Bool
  milepost : List Milepost
  boots : Nat
  seed : BitVec 256
  queue : List (Side × Nat)
  deriving DecidableEq, Repr, Inhabited

/-- The machine. `st` is the strand whose turn it is, `bench` every other strand; `steps` counts the steps of the machine,
`born` those before the last reset (R115), and `free` the free values taken. -/
structure State where
  st : Strand
  bench : List Strand
  mem : Mem
  fab : Fabric
  sys : Sys
  host : HostSide
  toll : Toll
  steps : Nat
  born : Nat
  free : Nat
  deriving DecidableEq, Repr, Inhabited

/-- Why the machine stops. No meaning raises it: every step of the specification ends in a next state. Safe. -/
inductive Fault where
  | stuck
  deriving DecidableEq, Repr, Inhabited

/-- Why an instruction has no meaning here. `notModelled` stands only in an arm of `exec` for an instruction that the model does
not cover yet. Safe: nothing is claimed of it. -/
inductive Refusal where
  | notModelled (mnemonic : String)
  deriving DecidableEq, Repr, Inhabited

/-- The state registers of a strand before any launch (R110). -/
def SRegs.fresh : SRegs :=
  { vl := 0, vrows := 1, vlmax := 0, vpol := 0, vprog := 0, fpctl := 0, fpflags := 0, determ := 0, rngkey := 0, draw := 0,
    strandkey := 0, iter := 0, groups := 0, tdtbase := 0, qerr := 0, tvec := 0, epc := 0, ecause := 0, eva := 0, eblame := 0,
    eforce := 0, estatus := 0, escratch := 0, context := 0, ptbase := 0, wmbase := 0, wmsize := 0, istatus := 0, savearea := 0 }

/-- A strand before any launch: no strand at all (R107, R305). DESIGN CHOICE, log entry 2. -/
def Strand.fresh : Strand :=
  { sid := 0, stand := .none, cluster := 0, core := 0, slot := 0, lgs := 0, span := .s8, launch := 0, ctx := 0, age := 0,
    regs := Vector.replicate 32 0, pc := 0, mode := .u, sr := SRegs.fresh, vnames := [], pnames := [], wps := [], nextWp := 0,
    queue := [], passes := [], serial := 0, mark := 0, rows := [], qerrSerial := none, arrive := [0, 0, 0, 0],
    start := [0, 0, 0, 0], markers := [], mm := 1, mn := 1, mtarget := 0, mtraps := [], waiting := false, woken := false,
    fetched := false, saveIdx := 0, saveAddr := 0, spilled := none, asks := [], cores := [],
    launching := none, copying := none }

/-- Memory after a reset: zeros, nothing cached, nothing poisoned (R331). DEDUCED, log entry 9. -/
def Mem.fresh : Mem :=
  { hbm := [], tags := [], array := [], poison := [], msc := [], win := [], winPoison := [], hostMem := [], peerMem := [],
    caches := [], icaches := [], tlbs := [], past := [], walks := [], atc := [], descs := [] }

/-- A lane group, a core and a cluster as manufactured (R10, R11, R12). -/
def LaneGroup.fresh : LaneGroup := { lost := [], spareUsed := false, fails := [] }

def Core.fresh : Core :=
  { part := 0, pin := false, ctx := none, fenced := false, retired := false, halted := 0, gated := false,
    groups := List.replicate 4 LaneGroup.fresh, failed := [], banks := [], turn := 0 }

def Cluster.fresh : Cluster :=
  { logical := List.range 24, draining := false, retired := false, mccFailed := false, mops := [], overflow := [], slots := [],
    active := 0, period := 0, jobs := [], bg := [], ras := [], notes := [], bells := 0, admitted := [] }

/-- The fabric of a new part (R12, R46, R52, R56). PRESUMED, log entry 12. -/
def Fabric.fresh : Fabric :=
  { logical := List.range 12, clusters := [], cores := [], channels := [], backoff := [], alerted := [], rows := [], opened := [],
    waiting := [], corrected := [], live := 384, gen := 0, shed := 0, moved := [], retiring := none, stalled := none,
    modes := [(0, 0)], activations := [], ports := [], domain := none }

/-- No context, no launch, nothing in flight; the counters start at 1. DESIGN CHOICE, log entry 13. -/
def Sys.fresh : Sys :=
  { ctxs := [], port := [], launches := [], nextLaunch := 1, nextSid := 1, nextJob := 1, nextMop := 1, rejects := 0,
    rejectLog := 0, pri := [], armed := [], held := [], owed := [], outbox := [], agenda := [], round := [] }

/-- BAR0 after reset (R314); BAR2 at its least size (R313). DESIGN CHOICE, log entry 15. -/
def HostSide.fresh : HostSide :=
  { ctxtab := 0, bar2base := 0, bar2bits := [], mailbox := [], msix := [], pending := [], ideKeys := [], insecure := [] }

/-- Tollhouse right after reset, before the boot of R323 (R331). DESIGN CHOICE, log entry 17. -/
def Toll.fresh : Toll :=
  { booted := false, ready := false, recovery := false, life := .deployed, mr := List.replicate 8 0, epochs := [], nonces := [],
    debugOpen := false, milepost := [], boots := 0, seed := 0, queue := [] }

/-- The machine right after reset (R331): no context, no launch, no strand, memory of zeros. -/
def State.reset : State :=
  { st := Strand.fresh, bench := [], mem := Mem.fresh, fab := Fabric.fresh, sys := Sys.fresh, host := HostSide.fresh,
    toll := Toll.fresh, steps := 0, born := 0, free := 0 }

end Sys2Proof.Machine
end

