-- ==== Sys2Proof/Machine/Ops.lean ====
section
/-!
DEFINITION. The operations that the meanings share: tables, registers, bytes, the monad of a meaning, the physical memory and
its caches (spec/03, spec/06), translation (spec/04), the accesses of a strand (spec/07 R122), release and acquire (spec/18),
and taking a trap and returning from one (spec/21 R296 to R298, R310).
-/

namespace Sys2Proof.Machine

open Host (Outcome)

/-- What a meaning answers. -/
abbrev Out := Outcome State Fault Refusal

/-! ### Tables with a key -/

/-- The entry of a key, or the default. -/
def aget {α : Type} (d : α) (l : List (Nat × α)) (k : Nat) : α :=
  match l with
  | [] => d
  | (a, x) :: r => if a = k then x else aget d r k

def afind {α : Type} (l : List (Nat × α)) (k : Nat) : Option α :=
  match l with
  | [] => none
  | (a, x) :: r => if a = k then some x else afind r k

/-- The table with the key's entry set, keys rising. -/
def aset {α : Type} (l : List (Nat × α)) (k : Nat) (v : α) : List (Nat × α) :=
  match l with
  | [] => [(k, v)]
  | (a, x) :: r => if a = k then (k, v) :: r else if k < a then (k, v) :: (a, x) :: r else (a, x) :: aset r k v

def adel {α : Type} (l : List (Nat × α)) (k : Nat) : List (Nat × α) := l.filter fun p => p.1 ≠ k

/-! ### Memory cells: the canonical form -/

/-- The byte at an address; an address not listed holds 0 (R331). -/
def cellRead (l : List Host.Cell) (a : Nat) : Byte :=
  match l with
  | [] => 0
  | (k, b) :: r => if k = a then b else if a < k then 0 else cellRead r a

/-- The cells with one byte written: addresses stay rising, and a zero removes the entry. -/
def cellWrite (l : List Host.Cell) (a : Nat) (v : Byte) : List Host.Cell :=
  match l with
  | [] => if v = 0 then [] else [(a, v)]
  | (k, b) :: r =>
    if k = a then (if v = 0 then r else (a, v) :: r)
    else if a < k then (if v = 0 then (k, b) :: r else (a, v) :: (k, b) :: r)
    else (k, b) :: cellWrite r a v

/-- The canonical form of cells from an address up: addresses rising, none holding 0. -/
def cellsFrom (lo : Nat) (l : List Host.Cell) : Bool :=
  match l with
  | [] => true
  | (k, b) :: r => decide (lo ≤ k) && b != 0 && cellsFrom (k + 1) r

/-- The canonical form of the memory: of local HBM, of the array and of the scratchpads and accumulator stores. -/
def Mem.wf (m : Mem) : Bool := cellsFrom 0 m.hbm && cellsFrom 0 m.array && cellsFrom 0 m.win

/-! ### Bytes and numbers -/

/-- The `n` bytes of a number, the least significant first (R5). -/
def leBytes (n v : Nat) : List Byte :=
  match n with
  | 0 => []
  | n + 1 => BitVec.ofNat 8 v :: leBytes n (v / 256)

/-- The number of bytes, the least significant first (R5). -/
def leNat (bs : List Byte) : Nat :=
  match bs with
  | [] => 0
  | b :: r => b.toNat + 256 * leNat r

/-- The field of a number from bit `lo`, `w` bits wide. -/
def bitsAt (x lo w : Nat) : Nat := x / 2 ^ lo % 2 ^ w

def bitAt (x i : Nat) : Bool := x / 2 ^ i % 2 == 1

/-- A number of `w` bits read as two's complement. -/
def sgn (w x : Nat) : Int :=
  let y := x % 2 ^ w
  if y < 2 ^ (w - 1) then (y : Int) else (y : Int) - 2 ^ w

/-- An integer as a number of `w` bits. -/
def unsgn (w : Nat) (x : Int) : Nat := (x % (2 ^ w : Int)).toNat

def wOfInt (x : Int) : Word := BitVec.ofNat 64 (unsgn 64 x)

/-! ### Registers -/

/-- S[r]: s0 reads as zero (R106). -/
def Strand.get (t : Strand) (r : Reg) : Word := if r.val = 0 then 0 else t.regs[r.val]

/-- A write of S[r]: one of s0 is discarded (R106). -/
def Strand.set (t : Strand) (r : Reg) (v : Word) : Strand :=
  if r.val = 0 then t else { t with regs := t.regs.set r.val v }

def State.reg (s : State) (r : Reg) : Word := s.st.get r
def State.setReg (s : State) (r : Reg) (v : Word) : State := { s with st := s.st.set r v }
def State.setPc (s : State) (v : Word) : State := { s with st := { s.st with pc := v } }

/-- The next instruction: PC + 4 (R21). -/
def State.adv (s : State) : State := s.setPc (s.st.pc + 4)

def State.modSr (s : State) (f : SRegs → SRegs) : State := { s with st := { s.st with sr := f s.st.sr } }
def State.modMem (s : State) (f : Mem → Mem) : State := { s with mem := f s.mem }
def State.modFab (s : State) (f : Fabric → Fabric) : State := { s with fab := f s.fab }
def State.modSys (s : State) (f : Sys → Sys) : State := { s with sys := f s.sys }

/-- Every strand changed, the one whose turn it is among them. -/
def State.mapStrands (s : State) (f : Strand → Strand) : State := { s with st := f s.st, bench := s.bench.map f }

/-! ### A meaning: it goes on, traps or waits -/

/-- How a meaning can stop short: a trap of a cause with its detail and EVA, or an instruction-boundary wait (R113). -/
inductive Stop where
  | trap (cause detail : Nat) (eva : Word)
  | wait
  deriving DecidableEq, Repr, Inhabited

/-- A meaning that may trap or wait; what it changed before stays changed. -/
abbrev M (α : Type) := ExceptT Stop (StateM State) α

def raise {α : Type} (cause detail : Nat) (eva : Word) : M α := throw (Stop.trap cause detail eva)
/-- An instruction-boundary wait (R113): DEDUCED, log entry 18. -/
def waitHere {α : Type} : M α := throw Stop.wait

/-- Runs `m` and hands over how it ended instead of stopping. -/
def attempt {α : Type} (m : M α) : M (Except Stop α) := fun s =>
  match m s with
  | (r, s') => (.ok r, s')

/-- Runs `m` for its answer alone; the state is as before. -/
def probe {α : Type} (m : M α) : M (Except Stop α) := fun s => (.ok (m s).1, s)

/-! ### Taking a trap and returning -/

def modeBit (m : Mode) : Nat := match m with | .u => 0 | .s => 1
def boolBit (b : Bool) : Nat := if b then 1 else 0

/-- Takes a trap as one step (R296): ESTATUS takes the mode, ISTATUS.IE and whether a pass was suspended; IE is cleared; EPC,
ECAUSE, EVA, EBLAME and EFORCE are written; the strand enters mode S at TVEC. -/
def takeTrap (cause detail : Nat) (eva epc blame force : Word) (spass : Bool) (s : State) : State :=
  let t := s.st
  let ie := t.sr.istatus.toNat % 2
  { s with st := { t with
      mode := .s
      pc := t.sr.tvec
      fetched := false
      waiting := false
      woken := false
      asks := []
      launching := none
      copying := none
      sr := { t.sr with
        estatus := BitVec.ofNat 64 (modeBit t.mode + 2 * boolBit spass + 4 * ie)
        istatus := t.sr.istatus - BitVec.ofNat 64 ie
        epc := epc
        ecause := BitVec.ofNat 64 (256 * detail + cause)
        eva := eva
        eblame := blame
        eforce := force } } }

/-- A trap at the word: EPC is its PC, EBLAME and EFORCE are 0 (R296, R297). -/
def trapHere (cause detail : Nat) (eva : Word) (s : State) : State :=
  takeTrap cause detail eva s.st.pc 0 0 false s

/-- Ends a meaning: a trap is taken at the instruction, a wait leaves it to be executed again. -/
def runM (m : M Unit) (s : State) : Out :=
  match m s with
  | (.ok _, s') => .next s'
  | (.error .wait, s') => .next s'
  | (.error (.trap c d e), s') => .next (trapHere c d e (s'.setPc s.st.pc))

/-- What an access that must wait leaves of a device event: what it sent, and what it waits for (R270, R316). -/
def State.afterWait (s0 s1 : State) : State :=
  { s0 with sys := { s0.sys with pri := s1.sys.pri, owed := s1.sys.owed, outbox := s1.sys.outbox } }

/-- A device event's meaning: it ends, or must wait and is to be made again; nothing traps. -/
def runE (m : M Unit) (s : State) : Out :=
  match m s with
  | (.ok _, s') => .next s'
  | (.error _, s') => .next (s.afterWait s')

/-- A meaning whose changes stand only if it does not wait (R191). -/
def whole {α : Type} (m : M α) : M α := fun s =>
  match m s with
  | (.error .wait, s') => (.error .wait, s.afterWait s')
  | r => r

/-- A meaning whose changes of the strand stand only if it does not wait; the accesses that it made before it waited stay made. -/
def heldStrand {α : Type} (m : M α) : M α := fun s =>
  match m s with
  | (.error .wait, s') => (.error .wait, { s' with st := s.st })
  | r => r

/-- A chunk of a pass that has been stopped is checked anew (R88, R168). -/
def Unsound.outdated (u : Unsound) : Unsound := { u with stale := true }

/-- Resumes the strand's suspended passes (R168, R298): the oldest runs again with its whole-pass checks to be made anew; a
younger one, stopped with it, waits until the older has completed (R164). DEDUCED, log entry 21. -/
def resumePasses (t : Strand) : Strand :=
  { t with passes := t.passes.zipIdx.map fun x =>
      if x.1.st = .suspended then
        { x.1 with
          st := (if x.2 = 0 then .running else .waiting)
          fault := none
          checked := false
          descs := []
          unsound := x.1.unsound.map Unsound.outdated }
      else x.1 }

/-- RTE in mode S (R310): mode, IE and PC from ESTATUS and EPC, and the suspended pass goes on when SPASS is 1. -/
def returnFromTrap (s : State) : State :=
  let t := s.st
  let es := t.sr.estatus.toNat
  let t1 : Strand := { t with
    mode := if bitAt es 0 then .s else .u
    pc := t.sr.epc
    sr := { t.sr with istatus := (t.sr.istatus &&& ~~~ 1) ||| BitVec.ofNat 64 (bitsAt es 2 1) } }
  { s with st := if bitAt es 1 then resumePasses t1 else t1 }

/-! ### The parts of the device -/

def Fabric.cluster (f : Fabric) (c : Nat) : Cluster := aget Cluster.fresh f.clusters c
def Fabric.setCluster (f : Fabric) (c : Nat) (x : Cluster) : Fabric := { f with clusters := aset f.clusters c x }
def coreKey (c k : Nat) : Nat := c * 32 + k
def Fabric.core (f : Fabric) (c k : Nat) : Core := aget Core.fresh f.cores (coreKey c k)
def Fabric.setCore (f : Fabric) (c k : Nat) (x : Core) : Fabric := { f with cores := aset f.cores (coreKey c k) x }
def State.cluster (s : State) (c : Nat) : Cluster := s.fab.cluster c
def State.modCluster (s : State) (c : Nat) (g : Cluster → Cluster) : State :=
  s.modFab fun f => f.setCluster c (g (f.cluster c))
def State.modCore (s : State) (c k : Nat) (g : Core → Core) : State :=
  s.modFab fun f => f.setCore c k (g (f.core c k))

/-- The live cores of a cluster, counted by its logical numbers (R12). -/
def State.liveCores (s : State) (c : Nat) : Nat := (s.cluster c).logical.length

/-- The place of a physical number in a list of logical ones. -/
def logicalOf (l : List Nat) (p : Nat) : Nat := l.idxOf p

/-- Capacity, less a confirmed shed range (R42, R43, R58). -/
def State.capacity (s : State) : Nat := (s.fab.live - s.fab.shed) * Config.channelBytes

/-- Live lanes of a lane group (R155, R307). -/
def LaneGroup.live (g : LaneGroup) : Nat := 8 - g.lost.length

/-- The live lanes of a lane group by the numbers they were made with (R307). -/
def LaneGroup.lanes (g : LaneGroup) : List Nat := (List.range 8).filter fun l => !g.lost.contains l

/-- The lane groups that a strand occupies, as (core, group), in ascending order of logical core and group (R155). -/
def Strand.laneGroups (t : Strand) : List (Nat × Nat) :=
  let gs := (List.range 4).filter fun g => bitAt t.lgs.toNat g
  match t.span with
  | .ctrl => []
  | .wide => t.cores.flatMap fun k => (List.range 4).map fun g => (k, g)
  | _ => gs.map fun g => (t.core, g)

/-- The live lanes of each lane group of a strand (R155). -/
def State.laneTable (s : State) (t : Strand) : List (Nat × Nat × Nat) :=
  t.laneGroups.map fun p => (p.1, p.2, (((s.fab.core t.cluster p.1).groups[p.2]?).getD LaneGroup.fresh).live)

/-- L, the live lanes of a strand: PLACE.LIVE (R116, R155). -/
def State.liveLanes (s : State) (t : Strand) : Nat := ((s.laneTable t).map fun x => x.2.2).sum

/-- The (core, lane group) of a live lane (R155). -/
def laneAt (tab : List (Nat × Nat × Nat)) (l : Nat) : Option (Nat × Nat) :=
  match tab with
  | [] => none
  | (k, g, n) :: r => if l < n then some (k, g) else laneAt r (l - n)

/-- The number of a strand's cluster as the strand sees it: the one that the cluster had when it admitted the strand's launch (R12, R308). -/
def State.clusterNum (s : State) (t : Strand) : Nat :=
  (((s.sys.launches.find? fun l => l.id = t.launch).bind fun l => afind l.clNum t.cluster)).getD (logicalOf s.fab.logical t.cluster)

/-- PLACE (R116): logical numbers, lane groups and live lanes. -/
def State.placeWord (s : State) (t : Strand) : Word :=
  let cl := s.clusterNum t
  match t.span with
  | .ctrl => BitVec.ofNat 64 (31 * 2 ^ 8 + cl)
  | _ =>
    let mask := if t.span = .wide then 15 else t.lgs.toNat
    BitVec.ofNat 64 (s.liveLanes t * 2 ^ 32 + mask * 2 ^ 24 + logicalOf (s.cluster t.cluster).logical t.core * 2 ^ 8 + cl)

/-- The cycles of the first `k` steps (R115). DESIGN CHOICE, log entry 3. -/
def timerAt (k : Nat) : Nat :=
  match k with
  | 0 => 0
  | k + 1 => timerAt k + Config.stepCycles k

/-- TIMER (R115): the cycles since the last reset. -/
def State.timer (s : State) : Nat := timerAt s.steps - timerAt s.born

/-- The context with a number. -/
def State.ctx? (s : State) (n : Nat) : Option Ctx := s.sys.ctxs.find? fun c => c.num = n

def State.modCtx (s : State) (n : Nat) (g : Ctx → Ctx) : State :=
  s.modSys fun y => { y with ctxs := y.ctxs.map fun c => if c.num = n then g c else c }

/-- A Milepost record of a change (R328). The table takes no record past 65,536, and the device is RETIRED when it is full. DEDUCED, log
entry 64. -/
def State.milepost (s : State) (kind new old object count : Nat) : State :=
  let n := s.toll.milepost.length
  let r : Milepost := ⟨s.timer % 2 ^ 64, n + 1, s.fab.gen, kind, new, old, object, count⟩
  { s with toll := { s.toll with milepost := if n < 65536 then s.toll.milepost ++ [r] else s.toll.milepost
                                 life := if n + 1 ≥ 65536 then .retired else s.toll.life } }

def State.lastSeq (s : State) : Nat := s.toll.milepost.length

/-- A message to the host. -/
def State.send (s : State) (m : Msg) : State := s.modSys fun y => { y with outbox := y.outbox ++ [m] }

/-- The place of a function's MSI-X vector among those of both functions (R313). -/
def vectorKey (fn : Bool) (v : Nat) : Nat := boolBit fn * 2048 + v

/-- A dword of the MSI-X tables (R314): after a reset every vector is masked, as PCI Express has it. PRESUMED, log entry 42. -/
def HostSide.msixDword (h : HostSide) (i : Nat) : Word := aget (if i % 2 = 1 then 2 ^ 32 else 0) h.msix i

def HostSide.masked (h : HostSide) (fn : Bool) (v : Nat) : Bool := bitAt (h.msixDword (2 * vectorKey fn v + 1)).toNat 32

/-- The signal of a vector (R317): its MSI-X message, or its pending bit while it is masked; nothing over a link whose traffic has
stopped (R318). PRESUMED, log entry 42. -/
def State.signalVector (s : State) (fn : Bool) (v : Nat) : State :=
  if s.host.insecure.contains fn then s
  else if s.host.masked fn v then
    { s with host := { s.host with
      pending := if s.host.pending.contains (vectorKey fn v) then s.host.pending else s.host.pending ++ [vectorKey fn v] } }
  else s.send (.msix fn v)

/-- A vector of each function (R317). -/
def State.signalBoth (s : State) (v : Nat) : State := (s.signalVector false v).signalVector true v

/-- A RAS event counted for the service strands of a cluster, and signalled to the host (R301, R302, R317).
DESIGN CHOICE, log entry 28. -/
def State.rasEvent (s : State) (c : Nat) : State :=
  (s.modCluster c fun x => { x with ras := x.ras ++ [s.lastSeq] }).signalBoth 1

/-! ### Local HBM behind the memory-side caches -/

/-- The live table: channels, as channel * 16 + stack, that are not retired, in the order of R45. -/
def Fabric.liveTable (f : Fabric) : List Nat :=
  (List.range 32).flatMap fun ch => ((List.range 12).map fun st => ch * 16 + st).filter fun k =>
    aget ChState.live f.channels k ≠ .retired

/-- The index into the live table of a physical address, and the byte within the channel (R44). -/
def channelIndex (n pa : Nat) : Nat × Nat :=
  let g := pa / 2 ^ 11
  let q := g / n
  let fold := (q % 2 ^ 9) ^^^ (q / 2 ^ 9 % 2 ^ 9) ^^^ (q / 2 ^ 18 % 4)
  ((g % n + fold) % n, q * 2048 + pa % 2048)

/-- The channels that leave with a channel: its whole stack when the stack would lose its ninth (R57). DEDUCED, log entry 27. -/
def Fabric.leaving (f : Fabric) (k : Nat) : List Nat :=
  let mine := f.liveTable.filter fun x => x % 16 = k % 16
  if mine.length ≤ 24 then mine else [k]

/-- The live table after the retirement under way (R59). -/
def Fabric.nextTable (f : Fabric) : List Nat :=
  match f.retiring with
  | none => f.liveTable
  | some k => f.liveTable.filter fun x => !(f.leaving k).contains x

/-- The channel that holds a physical address, under the map of its migration window (R44, R45, R59). -/
def Fabric.channelOf (f : Fabric) (pa : Nat) : Option Nat :=
  if f.moved.contains (pa / 2 ^ 28) then f.nextTable[(channelIndex f.nextTable.length pa).1]?
  else f.liveTable[(channelIndex f.live pa).1]?

/-- Whether a line is poisoned in memory: marked so, or of a FAILED channel (R49, R56), also while the memory-side cache still holds it
dirty and wholly written. DESIGN CHOICE, log entry 103. -/
def State.linePoison (s : State) (ln : Nat) : Bool :=
  s.mem.poison.contains ln ||
  (s.fab.channels.any (fun p => p.2 = .failed) &&
    (match s.fab.channelOf (ln * 64) with
     | some k => aget ChState.live s.fab.channels k = .failed
     | none => false))

/-- The tag of bytes written under a tenant's present key (R327). -/
def State.keyTag (s : State) (tenant : Nat) : Nat := tenant + 16 * aget 0 s.toll.epochs tenant

/-- A byte of local HBM read at the memory-side cache under a tenant's key (R47, R66). DESIGN CHOICE, log entry 8. -/
def State.devByte (s : State) (tenant pa : Nat) : Byte :=
  match afind s.mem.tags pa with
  | none => cellRead s.mem.hbm pa
  | some t => if t = s.keyTag tenant then cellRead s.mem.hbm pa else Config.foreignByte pa (s.keyTag tenant)

/-- `n` bytes of local HBM read at the memory-side cache. -/
def State.devRead (s : State) (tenant pa n : Nat) : List Byte := (List.range n).map fun i => s.devByte tenant (pa + i)

/-- A byte written at the memory-side cache under a tenant's key. -/
def State.devWriteByte (s : State) (tenant pa : Nat) (b : Byte) : State :=
  s.modMem fun m => { m with hbm := cellWrite m.hbm pa b, tags := aset m.tags pa (s.keyTag tenant) }

/-- The cells of `src` in a range, taken over into `dst`. -/
def cellsCopy (src dst : List Host.Cell) (lo hi : Nat) : List Host.Cell :=
  let inside (a : Nat) : Bool := decide (lo ≤ a) && decide (a < hi)
  (src.filter fun c => inside c.1).foldl (fun l c => cellWrite l c.1 c.2) (dst.filter fun c => !inside c.1)

/-- The lines of a range reach the array, and are dirty in the memory-side caches no longer (R48). -/
def State.toArray (s : State) (lo hi : Nat) : State :=
  s.modMem fun m => { m with
    array := cellsCopy m.hbm m.array lo hi
    msc := m.msc.filter fun ln => !(decide (lo ≤ ln * 64) && decide (ln * 64 < hi)) }

/-- A line becomes dirty in the memory-side cache of its channel, which evicts one when more than its slice holds would be dirty
(R41, R47, R48). Clean lines are not told apart from lines not held: which are held affects timing only (R50). -/
def State.touchLine (s : State) (ln : Nat) : State :=
  if s.mem.msc.contains ln then s
  else
    let s1 := s.modMem fun m => { m with msc := ln :: m.msc }
    if s1.mem.msc.length ≤ Config.homeLines then s1
    else
      let mine := s.mem.msc.filter fun x => s.fab.channelOf (x * 64) == s.fab.channelOf (ln * 64)
      if mine.length < Config.homeLines then s1
      else
        match mine[Config.victim s.steps mine % mine.length]? with
        | none => s1
        | some x => s1.toArray (x * 64) (x * 64 + 64)

/-- The lines of a range of bytes become dirty in the memory-side caches. -/
def State.touchLines (s : State) (pa n : Nat) : State :=
  if n = 0 then s else (List.range ((pa + n - 1) / 64 + 1 - pa / 64)).foldl (fun s i => s.touchLine (pa / 64 + i)) s

/-- Bytes written at the memory-side cache; whole lines that they cover lose their poison mark (R49). -/
def State.devWrite (s : State) (tenant pa : Nat) (bs : List Byte) : State :=
  let s1 := (bs.zipIdx).foldl (fun s p => s.devWriteByte tenant (pa + p.2) p.1) (s.touchLines pa bs.length)
  if s1.mem.poison.isEmpty then s1
  else s1.modMem fun m => { m with poison := m.poison.filter fun ln => !(pa ≤ ln * 64 && ln * 64 + 64 ≤ pa + bs.length) }

def State.markPoison (s : State) (ln : Nat) : State :=
  s.modMem fun m => { m with poison := if m.poison.contains ln then m.poison else ln :: m.poison }

/-! ### Cluster caches -/

def State.cache (s : State) (c : Nat) : List Line := aget [] s.mem.caches c
def State.setCache (s : State) (c : Nat) (l : List Line) : State := s.modMem fun m => { m with caches := aset m.caches c l }

/-- The nibbles of `new` that a mask of two bits names, the lower first, and the others of `old` (R249). -/
def mergeNibbles (d : Nat) (new old : Byte) : Byte :=
  match d with
  | 0 => old
  | 1 => (old &&& 0xF0) ||| (new &&& 0x0F)
  | 2 => (old &&& 0x0F) ||| (new &&& 0xF0)
  | _ => new

/-- The dirty nibbles of byte `i` of a line. -/
def Line.dirtyAt (l : Line) (i : Nat) : Nat := l.dirty / 4 ^ i % 4

/-- Every nibble of a line is dirty. -/
def allDirty : Nat := 4 ^ 64 - 1

/-- The dirty bytes of a line reach the memory-side cache, and only they (R264); of a byte of which one nibble is dirty, only that nibble
(R249). The poison mark goes with them (R49). -/
def State.writeBackLine (s : State) (l : Line) : State :=
  if l.dirty = 0 then s
  else
    let s1 := (l.bytes.zipIdx).foldl (fun s p =>
      let a := l.tag * 64 + p.2
      if l.dirtyAt p.2 = 0 then s else s.devWriteByte l.tenant a (mergeNibbles (l.dirtyAt p.2) p.1 (s.devByte l.tenant a)))
      (s.touchLine l.tag)
    if l.poison then s1.markPoison l.tag
    else if l.dirty = allDirty then s1.modMem fun m => { m with poison := m.poison.filter fun x => x ≠ l.tag }
    else s1

/-- Writes back every dirty line of a cluster (R92). Nothing of what a translation that is no longer held wrote remains (R75). -/
def State.writeBackAll (s : State) (c : Nat) : State :=
  let ls := s.cache c
  ((ls.foldl (fun s l => s.writeBackLine l) s).setCache c (ls.map fun l => { l with dirty := 0 })).modMem fun m =>
    { m with past := m.past.filter fun p => p.1 ≠ c }

/-- Writes back the dirty lines of a cluster among those that `which` names; they stay, clean. -/
def State.cleanLines (s : State) (c : Nat) (which : Nat → Bool) : State :=
  let ls := s.cache c
  if ls.any fun l => l.dirty != 0 && which l.tag then
    (ls.foldl (fun s l => if which l.tag then s.writeBackLine l else s) s).setCache c
      (ls.map fun l => if which l.tag then { l with dirty := 0 } else l)
  else s

/-- Writes back a line of a cluster, and drops it (R54, R55, R278). -/
def State.flushLine (s : State) (c ln : Nat) : State :=
  match (s.cache c).find? fun l => l.tag = ln with
  | none => s
  | some l => (s.writeBackLine l).setCache c ((s.cache c).filter fun x => x.tag ≠ ln)

/-- A dirty line that lies in the migration window that is stalled: its write-back is held (R59, R60). -/
def State.lineHeld (s : State) (l : Line) : Bool := l.dirty != 0 && s.fab.stalled == some (l.tag / 2 ^ 22)

/-- Room for one more line: a full cache evicts one that is not held, and a dirty one is written back (R92). DESIGN CHOICE, log
entry 60. -/
def State.makeRoom (s : State) (c : Nat) : State :=
  let ls := s.cache c
  if ls.length < Config.cacheLines then s
  else
    let may := ls.filter fun l => !s.lineHeld l
    let from1 := (if may.isEmpty then ls else may).map Line.tag
    match from1[Config.victim s.steps from1 % from1.length]? with
    | none => s
    | some x => s.flushLine c x

/-- A line of a cluster's cache, filled from the memory-side cache if it is not there under this tenant (R92).
DEDUCED, log entry 60. -/
def State.fillLine (s : State) (c tenant ln : Nat) : State × Line :=
  match (s.cache c).find? fun l => l.tag = ln with
  | some l =>
    if l.tenant = tenant then (s, l)
    else
      let s1 := s.flushLine c ln
      let n : Line := ⟨ln, tenant, s1.devRead tenant (ln * 64) 64, 0, s1.linePoison ln⟩
      (s1.setCache c (n :: s1.cache c), n)
  | none =>
    let s1 := s.makeRoom c
    let n : Line := ⟨ln, tenant, s1.devRead tenant (ln * 64) 64, 0, s1.linePoison ln⟩
    (s1.setCache c (n :: s1.cache c), n)

/-- A line with bytes written from an offset. -/
def Line.write (l : Line) (off : Nat) (bs : List Byte) : Line :=
  { l with
    bytes := (bs.zipIdx).foldl (fun b p => b.set (off + p.2) p.1) l.bytes
    dirty := (bs.zipIdx).foldl (fun d p => d ||| 3 * 4 ^ (off + p.2)) l.dirty
    poison := if off = 0 ∧ bs.length = 64 then false else l.poison }

/-- A line with nibble `k` of the byte at an offset written (R249). -/
def Line.writeNibble (l : Line) (off k v : Nat) : Line :=
  let b := mergeNibbles (k + 1) (BitVec.ofNat 8 (v % 16 * 16 ^ k)) (l.bytes.getD off 0)
  { l with bytes := l.bytes.set off b, dirty := l.dirty ||| 2 ^ k * 4 ^ off }

/-- Bytes of local HBM, of one line, read at a cluster's cache, with the line's poison mark. -/
def State.cluRead (s : State) (c tenant pa n : Nat) : State × List Byte × Bool :=
  let (s1, l) := s.fillLine c tenant (pa / 64)
  (s1, (l.bytes.drop (pa % 64)).take n, l.poison)

/-- Bytes of local HBM, of one line, written at a cluster's cache (R92, R264). -/
def State.cluWrite (s : State) (c tenant pa : Nat) (bs : List Byte) : State :=
  let (s1, l) := s.fillLine c tenant (pa / 64)
  s1.setCache c ((s1.cache c).map fun x => if x.tag = pa / 64 then l.write (pa % 64) bs else x)

/-- A nibble of local HBM written at a cluster's cache (R249). -/
def State.cluWriteNibble (s : State) (c tenant pa k v : Nat) : State :=
  let (s1, l) := s.fillLine c tenant (pa / 64)
  s1.setCache c ((s1.cache c).map fun x => if x.tag = pa / 64 then l.writeNibble (pa % 64) k v else x)

/-- Drops the clean bytes of a cluster's cache, after writing back the dirty ones (R92). -/
def State.dropCache (s : State) (c : Nat) : State := (s.writeBackAll c).setCache c []

/-- A release at a scope by an agent of a cluster (R266): only device and system scope have work left to do. -/
def State.release (s : State) (c : Nat) (sc : Scope) : State :=
  match sc with
  | .core | .clu => s
  | .dev | .sys => s.writeBackAll c

/-- An acquire at a scope by an agent of a cluster (R267, R92). -/
def State.acquire (s : State) (c : Nat) (sc : Scope) : State :=
  match sc with
  | .core | .clu => s
  | .dev | .sys => s.dropCache c

/-! ### The mailbox (R314, R324) -/

/-- Bytes held at offsets; a byte not listed is 0. -/
def bytesAt (l : List (Nat × Byte)) (off n : Nat) : List Byte := (List.range n).map fun i => aget 0 l (off + i)

def bytesSet (l : List (Nat × Byte)) (off : Nat) (bs : List Byte) : List (Nat × Byte) :=
  (bs.zipIdx).foldl (fun l p => aset l (off + p.2) p.1) l

/-- The physical address of a byte of the device-side area. -/
def State.mbxPa (s : State) (off : Nat) : Nat := (Config.mbxdev s.toll.boots).toNat + off

/-- Bytes of a side's area; a poisoned line of the device's is taken as it stands. DESIGN CHOICE, log entry 117. -/
def State.mbxRead (s : State) (side : Side) (off n : Nat) : List Byte :=
  match side with
  | .host => bytesAt s.host.mailbox off n
  | .supervisor => s.devRead 0 (s.mbxPa off) n

def State.mbxWrite (s : State) (side : Side) (off : Nat) (bs : List Byte) : State :=
  match side with
  | .host => { s with host := { s.host with mailbox := bytesSet s.host.mailbox off bs } }
  | .supervisor => s.devWrite 0 (s.mbxPa off) bs

/-- The doorbell of a response (R299, R317). -/
def State.doorbell (s : State) (side : Side) : State :=
  match side with
  | .host => s.signalBoth 0
  | .supervisor => s.modCluster Config.deviceQueue fun c => { c with bells := c.bells + 1 }

/-- The response (R324): the status, the length of the whole response, which these two dwords begin, and the body; the command word is
cleared. DESIGN CHOICE, log entry 35. -/
def State.respond (s : State) (side : Side) (status : Nat) (body : List Byte) : State :=
  ((s.mbxWrite side 0x1000 (leBytes 8 status ++ leBytes 8 (body.length + 16) ++ body)).mbxWrite side 0x3FF8 (leBytes 4 0)).doorbell side

/-- The statuses of a response. -/
def mbxOk : Nat := 0
def mbxBusy : Nat := 1
def mbxRefused : Nat := 2
def mbxBadArg : Nat := 3

/-- A side rings with a code in its command word: the command joins those that Tollhouse serves in the order of their arrival (R324). One
of a side whose earlier command is not served yet is answered BUSY, and a code that is no command joins nothing. DESIGN CHOICE, log
entry 35. -/
def State.ring (s : State) (side : Side) (code : Nat) : State :=
  if code = 0 ∨ 9 < code then s
  else if s.toll.queue.any fun q => q.1 == side then s.respond side mbxBusy []
  else { s with toll := { s.toll with queue := s.toll.queue ++ [(side, code)] } }

def wideScope (sc : Scope) : Bool := match sc with | .dev | .sys => true | _ => false

/-- A cluster holds a dirty line whose write-back is held (R59, R60). -/
def State.holdsDirty (s : State) (c : Nat) : Bool := s.fab.stalled.isSome && (s.cache c).any s.lineHeld

/-! ### Writes owed to a scope (R263, R266, R270) -/

/-- A write of an agent went over a link; agent 0, the intake, is owed nothing. -/
def State.owe (s : State) (owner : Nat) (k : Link) : State :=
  if owner = 0 ∨ s.sys.owed.any (fun o => o.owner == owner && o.link == k && !o.shared && !o.asked) then s
  else s.modSys fun y => { y with owed := y.owed ++ [⟨owner, k, false, false⟩] }

/-- A release of an agent covers its writes: a later release of an agent that acquired it covers them too (R266). DEDUCED, log
entry 72. -/
def State.share (s : State) (owner : Nat) : State :=
  if s.sys.owed.isEmpty then s
  else s.modSys fun y => { y with owed := y.owed.map fun o => if o.owner = owner then { o with shared := true } else o }

/-- What a release of an agent at system scope must wait for. -/
def State.owedTo (s : State) (owner : Nat) : List Owed := s.sys.owed.filter fun o => o.owner == owner || o.shared

/-- The flushing read of a link that has none under way for these writes. -/
def Owed.request (o : Owed) : List Msg := match o.link with | .host fn => if o.asked then [] else [.flushRead fn] | .peer _ => []

/-- An acknowledgement, or a flushing read that completes, answers the writes of an agent over a link (R270). -/
def State.ack (s : State) (owner : Nat) (k : Link) : State :=
  s.modSys fun y => { y with owed := y.owed.filter fun o =>
    !(o.owner == owner && o.link == k && (match k with | .peer _ => true | .host _ => o.asked)) }

/-- At system scope a release waits for each peer that a write went to, and for a flushing read of length zero on each link with a host
write (R270). The requests are sent once. -/
def settle (owner : Nat) : M Unit := do
  let mine := (← get).owedTo owner
  if mine.isEmpty then pure ()
  else do
    modify fun s => s.modSys fun y => { y with
      outbox := y.outbox ++ (mine.flatMap Owed.request).eraseDups
      owed := y.owed.map fun o => if o.owner == owner || o.shared then { o with asked := true } else o }
    waitHere

/-- A release or an acquire at a scope that writes back waits while a write-back to a stalled window is held (R60). -/
def holdDirty (c : Nat) (sc : Scope) : M Unit := do
  if wideScope sc && (← get).holdsDirty c then waitHere else pure ()

/-- What a release does at a scope for an agent of a cluster (R266, R268). -/
def releaseAt (c owner : Nat) (sc : Scope) : M Unit := do
  holdDirty c sc
  modify fun s => (s.release c sc).share owner
  if sc = .sys then settle owner else pure ()

/-- What an acquire does at a scope (R267). -/
def acquireAt (c : Nat) (sc : Scope) : M Unit := do
  holdDirty c sc
  modify fun s => s.acquire c sc

/-! ### Translation -/

/-- For whom an access is made: where, under which registers, and in which translation cache. `self` is the core that the self
alias names; a cluster past the last is the launch intake's or Tollhouse's, which hold no translation. `owner` is the agent whose
writes they are: 2 * sid of a strand, 2 * order + 1 of a job, 0 of the intake. -/
structure Who where
  cluster : Nat
  self : Option Nat
  tlb : Nat
  tlbCap : Nat
  asid : Nat
  tenant : Nat
  ptb : Nat
  user : Bool
  ctx : Nat
  owner : Nat
  deriving DecidableEq, Repr, Inhabited

/-- The kinds of access that R66 tells apart. -/
inductive Acc where
  | load | store | atomic | fetch
  deriving DecidableEq, Repr, Inhabited

/-- Where an access goes (R65). -/
inductive Loc where
  | hbm (pa tenant : Nat)
  | host (pa : Nat)
  | peer (dom pa : Nat)
  | win (key : Nat)
  deriving DecidableEq, Repr, Inhabited

def tlbScalar (c k : Nat) : Nat := coreKey c k
def tlbGroup (c k g : Nat) : Nat := 2 ^ 12 + coreKey c k * 4 + g
def tlbCopy (c e : Nat) : Nat := 2 ^ 13 + c * 4 + e

/-- Who a scalar access of a strand is made for (R68, R69). -/
def State.who (s : State) : Who :=
  let t := s.st
  let k := if t.span = .ctrl then Config.mccCore else t.core
  { cluster := t.cluster, self := if t.span = .ctrl then none else some t.core, tlb := tlbScalar t.cluster k, tlbCap := 32,
    asid := bitsAt t.sr.context.toNat 0 16, tenant := bitsAt t.sr.context.toNat 16 4,
    ptb := bitsAt t.sr.ptbase.toNat 24 28 * 2 ^ 24, user := t.mode == .u, ctx := t.ctx, owner := 2 * t.sid }

/-- The cause of a failed translation (R64). -/
def xlCause (a : Acc) : Nat := match a with | .load | .fetch => 5 | .store | .atomic => 6

/-- The fields of a leaf entry (R64). -/
def lfBit (leaf : Nat) (i : Nat) : Bool := bitAt leaf i
def lfMt (leaf : Nat) : Nat := bitsAt leaf 46 2
def lfPeer (leaf : Nat) : Nat := bitsAt leaf 48 12
def lfTenant (leaf : Nat) : Nat := bitsAt leaf 60 4
def lfFrame (leaf : Nat) : Nat := bitsAt leaf 10 36

/-- Whether an entry with V = 1 is a pointer (R64). -/
def isPointer (e : Nat) : Bool := e / 2 % 8 == 0

/-- A malformed pointer at a level (R64). -/
def badPointer (cap level e : Nat) : Bool :=
  level == 3 || e / 2 % 2 ^ 11 != 0 || e / 2 ^ 52 != 0 || bitsAt e 12 40 * 2 ^ 12 ≥ cap

/-- A malformed leaf at a level (R64). -/
def badLeaf (dom : Option Nat) (level e : Nat) : Bool :=
  (lfBit e 2 && !lfBit e 1) || lfMt e == 3 || (lfPeer e != 0 && lfMt e != 2) ||
  (lfMt e == 2 && dom == some (lfPeer e)) ||
  (level == 1 && lfFrame e % 2 ^ 18 != 0) || (level == 2 && lfFrame e % 2 ^ 9 != 0)

/-- The number of page-offset bits of a leaf at a level (R63). -/
def levelBits (level : Nat) : Nat := match level with | 1 => 34 | 2 => 25 | _ => 16

/-- Whether a physical address lies in a migration window that is stalled (R59). -/
def State.isStalled (s : State) (pa : Nat) : Bool := s.fab.stalled == some (pa / 2 ^ 28)

/-- An access to a stalled window is held at its point of entry (R59). -/
def holdIfStalled (pa : Nat) : M Unit := do
  if (← get).isStalled pa then waitHere else pure ()

/-- So is one that its cluster's cache has no room for, because every line it holds is held (R60, R92). -/
def holdIfFull (c : Nat) : M Unit := do
  let s ← get
  if s.fab.stalled.isSome && decide (Config.cacheLines ≤ (s.cache c).length) && (s.cache c).all s.lineHeld then waitHere else pure ()

/-- An entry of a page table, read at the memory-side cache with tenant 0's key (R63). A poisoned one is cause 0x13 with EVA its
own address, which is a physical one (R297). DEDUCED, log entry 90. -/
def readEntry (pa : Nat) : M Nat := do
  holdIfStalled pa
  let s ← get
  if s.linePoison (pa / 64) then raise 0x13 0 (BitVec.ofNat 64 pa)
  pure (leNat (s.devRead 0 pa 8))

/-- A walk from a level's table: the address of the leaf, the leaf and its level, and the pointers read on the way (R63, R64). An entry
whose own address lies at or above capacity is a failed translation. DESIGN CHOICE, log entry 73. -/
def walkFrom (w : Who) (a : Acc) (va : Word) (level table fuel : Nat) : M ((Nat × Nat × Nat) × List WalkEntry) := do
  match fuel with
  | 0 => raise (xlCause a) 0 va
  | fuel + 1 =>
    let s ← get
    let idx := if level = 1 then bitsAt va.toNat 34 21 else bitsAt va.toNat (levelBits level) 9
    let pa := table + 8 * idx
    if pa ≥ s.capacity then raise (xlCause a) 0 va
    let e ← readEntry pa
    if !bitAt e 0 then raise (xlCause a) 0 va
    if isPointer e then
      if badPointer s.capacity level e then raise (xlCause a) 0 va
      let t := bitsAt e 12 40 * 2 ^ 12
      let (r, es) ← walkFrom w a va (level + 1) t fuel
      pure (r, ⟨w.asid, va.toNat / 2 ^ levelBits level, levelBits level, t⟩ :: es)
    else
      if badLeaf s.fab.domain level e then raise (xlCause a) 0 va
      pure ((pa, e, level), [])

/-- Pointers enter the walk cache of a cluster. -/
def Mem.learn (m : Mem) (c : Nat) (es : List WalkEntry) : Mem :=
  if es.isEmpty then m
  else { m with walks := aset m.walks c ((es.reverse ++ (aget [] m.walks c).filter fun e => !es.contains e).take 256) }

/-- A walk, beginning at the deepest pointer that the walk cache holds; its pointers enter that cache only when it ends in a leaf that is
valid and well formed (R69). -/
def walk (w : Who) (a : Acc) (va : Word) : M (Nat × Nat × Nat) := do
  let s ← get
  let ws := aget [] s.mem.walks w.cluster
  let hit (bits : Nat) := ws.find? fun e => e.asid = w.asid ∧ e.bits = bits ∧ e.page = va.toNat / 2 ^ bits
  let (r, es) ← (match hit 25 with
    | some e => walkFrom w a va 3 e.target 1
    | none =>
      match hit 34 with
      | some e => walkFrom w a va 2 e.target 2
      | none => walkFrom w a va 1 w.ptb 3)
  if w.tlbCap = 0 then pure () else modify fun s => s.modMem fun m => m.learn w.cluster es
  pure r

/-- The checks of R66. -/
def protects (w : Who) (a : Acc) (leaf : Nat) : Bool :=
  (match a with
   | .load => !lfBit leaf 1
   | .store => !lfBit leaf 2
   | .atomic => !(lfBit leaf 1 && lfBit leaf 2)
   | .fetch => !lfBit leaf 3 || (!w.user && lfBit leaf 4)) ||
  (w.user && (!lfBit leaf 4 || lfTenant leaf != w.tenant))

/-- The physical address under a leaf (R65). -/
def leafPa (bits leaf : Nat) (va : Word) : Nat := lfFrame leaf * 2 ^ 16 + va.toNat % 2 ^ bits

/-- The checks that every access makes on its leaf: capacity (R43), then protection (R66). -/
def checkLeaf (w : Who) (a : Acc) (bits leaf : Nat) (va : Word) : M Unit := do
  let s ← get
  if lfMt leaf = 0 ∧ leafPa bits leaf va ≥ s.capacity then raise (xlCause a) 0 va
  if protects w a leaf then raise 7 0 va
  pure ()

def writesMem (a : Acc) : Bool := match a with | .store | .atomic => true | _ => false

/-- Entries leave the translation caches of a cluster; a shoot-down that covers one still performs the stores that it translated (R75).
No store is translated by an entry with D = 0 (R67). -/
def Mem.leave (m : Mem) (c : Nat) (es : List TlbEntry) : Mem :=
  { m with past := (es.filter fun e => lfBit e.leaf.toNat 8).foldl (fun l e => if l.contains (c, e) then l else (c, e) :: l) m.past }

/-- A translation cache takes an entry in the place of what it held for the page, and of the oldest when it is full. -/
def Mem.takeLeaf (m : Mem) (w : Who) (te : TlbEntry) : Mem :=
  let held := aget [] m.tlbs w.tlb
  let kept := (te :: held.filter fun x => !(x.bits == te.bits && x.page == te.page && (x.asid == te.asid || x.glob))).take w.tlbCap
  { m.leave w.cluster (held.filter fun x => !kept.contains x) with tlbs := aset m.tlbs w.tlb kept }

/-- A translation by a walk: the leaf is checked, A and D are set (R67), and the translation cache takes it (R69); a leaf that a check
refuses is not kept. DESIGN CHOICE, log entry 73. -/
def walkLeaf (w : Who) (a : Acc) (va : Word) : M (Nat × Nat) := do
  let (pa, e, level) ← walk w a va
  let bits := levelBits level
  checkLeaf w a bits e va
  let need := (if lfBit e 7 then 0 else 2 ^ 7) + (if writesMem a && !lfBit e 8 then 2 ^ 8 else 0)
  let e' := e + need
  if need ≠ 0 then modify fun s => s.devWrite 0 pa (leBytes 8 e')
  let te : TlbEntry := ⟨w.asid, lfBit e' 6, va.toNat / 2 ^ bits, bits, BitVec.ofNat 64 e'⟩
  if w.tlbCap = 0 then pure () else modify fun s => s.modMem fun m => m.takeLeaf w te
  pure (bits, e')

/-- The leaf of a virtual address, from the translation cache or a walk; a store through a cached leaf with D = 0 walks. -/
def leafOf (w : Who) (a : Acc) (va : Word) : M (Nat × Nat) := do
  let s ← get
  match (aget [] s.mem.tlbs w.tlb).find? fun e => (e.asid = w.asid ∨ e.glob) ∧ e.page = va.toNat % 2 ^ 64 / 2 ^ e.bits with
  | some e =>
    if writesMem a && !lfBit e.leaf.toNat 8 then walkLeaf w a va
    else do
      checkLeaf w a e.bits e.leaf.toNat va
      pure (e.bits, e.leaf.toNat)
  | none => walkLeaf w a va

/-- A canonical address: bits [63:55] equal bit 54 (R62). -/
def canonical (va : Word) : Bool := va.toNat / 2 ^ 54 == 0 || va.toNat / 2 ^ 54 == 2 ^ 10 - 1

def isWindow (va : Word) : Bool := va.toNat / 2 ^ 29 == Config.winBase

/-- A window access (R16 to R18, R102): the key of its byte, or cause 0x1C: DEDUCED, log entry 53. The intake, which has no cluster, finds no
core under any number: DESIGN CHOICE, log entry 99. -/
def windowKey (w : Who) (a : Acc) (va : Word) (size : Nat) : M Nat := do
  let s ← get
  let core := bitsAt va.toNat 24 5
  let off := bitsAt va.toNat 0 24
  let bad : M Nat := raise 0x1C 0 va
  if a = .fetch ∨ w.cluster ≥ Config.clusters then bad
  else if 0x400000 ≤ off ∧ off < 0x800000 then bad
  else if 0x800000 ≤ off ∧ size < 4 then bad
  else if core = 31 then
    match w.self with
    | none => bad
    | some k => pure (w.cluster * 2 ^ 29 + k * 2 ^ 24 + off)
  else
    match (s.cluster w.cluster).logical[core]? with
    | none => bad
    | some k => pure (w.cluster * 2 ^ 29 + k * 2 ^ 24 + off)

/-- An access to a host page of a link whose traffic has stopped waits (R318); one of the intake, which may be part of the end of its
context, fails. DEDUCED, log entry 58. -/
def linkOpen (w : Who) (va : Word) : M Unit := do
  let s ← get
  match s.ctx? w.ctx with
  | some c => if s.host.insecure.contains c.hfn then (if w.owner = 0 then raise 0x13 0 va else waitHere) else pure ()
  | none => pure ()

/-- The ATS translation of a host page for a context that asks for it (R316): from the ATS cache, or after a page request. -/
def atsPage (w : Who) (a : Acc) (va : Word) (pa : Nat) : M Nat := do
  let s ← get
  match s.ctx? w.ctx with
  | some c =>
    if !c.ats then pure pa
    else
      match s.mem.atc.find? fun e => e.1 = w.asid ∧ e.2.1 = pa / 2 ^ 12 with
      | some e => pure (e.2.2 * 2 ^ 12 + pa % 2 ^ 12)
      | none =>
        match s.sys.pri.find? fun p => p.asid = w.asid ∧ p.page = pa / 2 ^ 12 with
        | none =>
          modify fun s => s.modSys fun y => { y with
            pri := y.pri ++ [⟨w.ctx, w.asid, pa / 2 ^ 12, none⟩]
            outbox := y.outbox ++ [.pageRequest c.hfn w.asid (pa / 2 ^ 12)] }
          waitHere
        | some p =>
          match p.answer with
          | none => waitHere
          | some r =>
            modify fun s => s.modSys fun y => { y with pri := y.pri.filter fun q => q ≠ p }
            match r with
            | none => raise (xlCause a) 0 va
            | some f =>
              modify fun s => s.modMem fun m => { m with atc := ((w.asid, pa / 2 ^ 12, f) :: m.atc).take 4096 }
              pure (f * 2 ^ 12 + pa % 2 ^ 12)
  | none => pure pa

/-- Translates an address in the order of R122: window, canonical check, page table. With it come the page-offset bits of its page and its
NS bit (R71); a window address has none. -/
def translateFull (w : Who) (a : Acc) (va : Word) (size : Nat) : M (Loc × Option (Nat × Bool)) := do
  if isWindow va then
    let k ← windowKey w a va size
    pure (.win k, none)
  else if !canonical va then raise 0x1D 0 va
  else
    let (bits, leaf) ← leafOf w a va
    let pa := leafPa bits leaf va
    let page := some (bits, lfBit leaf 5)
    match lfMt leaf with
    | 0 => do
      holdIfStalled pa
      holdIfFull w.cluster
      pure (.hbm pa (lfTenant leaf), page)
    | 1 => do
      linkOpen w va
      let h ← atsPage w a va pa
      pure (.host h, page)
    | _ => pure (.peer (lfPeer leaf) pa, page)

def translate (w : Who) (a : Acc) (va : Word) (size : Nat) : M Loc := do
  let r ← translateFull w a va size
  pure r.1

/-! ### Reading and writing at a location -/

/-- A byte of host or peer memory as this device last wrote it, else its own (R65). -/
def State.hostByte (s : State) (pa : Nat) : Byte := (afind s.mem.hostMem pa).getD (Config.hostByte 0 pa)
def State.peerByte (s : State) (d pa : Nat) : Byte := (afind s.mem.peerMem (d * 2 ^ 52 + pa)).getD (Config.peerByte d pa)

def State.winPoisoned (s : State) (key n : Nat) : Bool :=
  s.mem.winPoison.any fun w => key / 4 ≤ w ∧ w ≤ (key + n - 1) / 4

def State.winRead (s : State) (key n : Nat) : List Byte := (List.range n).map fun i => cellRead s.mem.win (key + i)

/-- Window bytes written at the bank, the whole access at once, so that the accesses of one source to one target arrive in the order in
which they are made (R105); a full write of a word clears its poison mark (R97, R98). -/
def State.winWrite (s : State) (key : Nat) (bs : List Byte) : State :=
  s.modMem fun m => { m with
    win := (bs.zipIdx).foldl (fun l p => cellWrite l (key + p.2) p.1) m.win
    winPoison := m.winPoison.filter fun w => !(key ≤ w * 4 && w * 4 + 4 ≤ key + bs.length) }

/-! ### Poison marks (R49, R98, R250) -/

/-- The poisoned granules that a write of a cluster can meet: words of the windows, lines of its cache, and lines in memory. -/
def State.badGranules (s : State) (c : Nat) : List Granule :=
  (s.mem.winPoison.map Granule.word ++ (((s.cache c).filter fun l => l.poison).map fun l => Granule.line l.tag) ++
    s.mem.poison.map Granule.line).eraseDups

/-- The space of a granule (0 local HBM, 2 a window), the number of its first nibble there, and how many it has. -/
def Granule.extent (g : Granule) : Nat × Nat × Nat :=
  match g with
  | .line ln => (0, 128 * ln, 128)
  | .word w => (2, 8 * w, 8)

/-- The nibbles of a granule that runs of nibbles cover: each run a space, its first nibble and how many. -/
def Granule.nibs (g : Granule) (cov : List (Nat × Nat × Nat)) : Nat :=
  let e := g.extent
  (List.range e.2.2).foldl (fun m i =>
    if cov.any fun q => q.1 == e.1 && decide (q.2.1 ≤ e.2.1 + i) && decide (e.2.1 + i < q.2.1 + q.2.2) then m ||| 2 ^ i else m) 0

/-- A granule that one store has written whole loses its mark; what a cache holds of a line is written back first, since the mark in memory
goes too. -/
def State.mend (s : State) (c : Nat) (g : Granule) : State :=
  match g with
  | .word w => s.modMem fun m => { m with winPoison := m.winPoison.filter fun x => x ≠ w }
  | .line ln =>
    let s1 := s.cleanLines c fun t => t == ln
    (s1.setCache c ((s1.cache c).map fun l => if l.tag = ln then { l with poison := false } else l)).modMem fun m =>
      { m with poison := m.poison.filter fun x => x ≠ ln }

/-- What a store has written of poisoned granules, with the runs `cov` that it has just written: one that is now written whole is mended,
whichever strips or turns wrote its parts (R49, R98, R160, R250). -/
def State.cover (s : State) (c sink : Nat) (cov : List (Nat × Nat × Nat)) (old : List Cover) : State × List Cover :=
  (s.badGranules c).foldl (fun (a : State × List Cover) g =>
    let n := g.nibs cov
    if n = 0 then a
    else
      let mine (x : Cover) : Bool := x.sink == sink && x.granule == g
      let all := (((a.2.find? mine).map Cover.nibs).getD 0) ||| n
      let rest := a.2.filter fun x => !mine x
      if all = 2 ^ g.extent.2.2 - 1 then (a.1.mend c g, rest) else (a.1, ⟨sink, g, all⟩ :: rest)) (s, old)

/-- Granules that are marked anew: what a store had written of them before counts no longer. -/
def State.spoil (s : State) (gs : List Granule) : State :=
  let keep (l : List Cover) : List Cover := l.filter fun x => !gs.contains x.granule
  (s.mapStrands fun t => { t with passes := t.passes.map fun p => { p with cover := keep p.cover } }).modFab fun f =>
    { f with clusters := f.clusters.map fun x => (x.1, { x.2 with jobs := x.2.jobs.map fun j => { j with cover := keep j.cover } }) }

/-- A line of a cluster's cache is marked. -/
def State.spoilLine (s : State) (c ln : Nat) : State :=
  (s.setCache c ((s.cache c).map fun l => if l.tag = ln then { l with poison := true } else l)).spoil [.line ln]

/-- Words of the windows are marked. -/
def State.spoilWords (s : State) (ws : List Nat) : State :=
  (s.modMem fun m => { m with winPoison := ws.filter (fun w => !m.winPoison.contains w) ++ m.winPoison }).spoil (ws.map Granule.word)

/-- The address of the first poisoned word of `n` bytes read at an address, a word having 4 bytes (R98, R297). DEDUCED, log entry 90. -/
def State.poisonedWord (s : State) (va : Word) (l : Loc) (n : Nat) : Word :=
  let first := va &&& ~~~ 3
  match l with
  | .win key =>
    (((List.range ((key + n + 3) / 4 - key / 4)).find? fun i => s.mem.winPoison.contains (key / 4 + i)).map
      fun i => first + BitVec.ofNat 64 (4 * i)).getD first
  | _ => first

/-- Every port of the fabric is retired (R321). -/
def Fabric.portless (f : Fabric) : Bool := (List.range Config.ports).all fun p => aget 8 f.ports p == 0

/-- Whether an access to a peer fails (R320 to R322): no domain number, no port left, or a failure armed for that peer, which it uses up.
DESIGN CHOICE, log entry 14. -/
def peerFails (d : Nat) : M Bool := do
  let s ← get
  if s.fab.domain.isNone || s.fab.portless then pure true
  else if s.sys.armed.contains (.peerError d) then do
    modify fun s => s.modSys fun y => { y with armed := y.armed.erase (.peerError d) }
    pure true
  else pure false

/-- Reads `n` bytes of one line at cluster scope, with their poison; a peer load that fails raises 0x13 (R322). -/
def readLoc (w : Who) (va : Word) (l : Loc) (n : Nat) : M (List Byte × Bool) := do
  match l with
  | .hbm pa ten => do
    let (s1, bs, p) := (← get).cluRead w.cluster ten pa n
    set s1
    pure (bs, p)
  | .win key => do
    let s ← get
    pure (s.winRead key n, s.winPoisoned key n)
  | .host pa => do
    let s ← get
    pure ((List.range n).map fun i => s.hostByte (pa + i), false)
  | .peer d pa => do
    if (← peerFails d) then raise 0x13 0 va
    let s ← get
    pure ((List.range n).map fun i => s.peerByte d (pa + i), false)

/-- The link that the host writes of an agent go over (R316). -/
def State.hostLink (s : State) (w : Who) : Link := .host (((s.ctx? w.ctx).map Ctx.hfn).getD false)

/-- Writes bytes of one line at cluster scope, in the order in which the writes are made (R105); a peer store that fails is a RAS event
that names the peer (R322). -/
def writeLoc (w : Who) (l : Loc) (bs : List Byte) : M Unit := do
  match l with
  | .hbm pa ten => modify fun s => s.cluWrite w.cluster ten pa bs
  | .win key => modify fun s => s.winWrite key bs
  | .host pa => modify fun s => (s.modMem fun m =>
      { m with hostMem := (bs.zipIdx).foldl (fun l p => aset l (pa + p.2) p.1) m.hostMem }).owe w.owner (s.hostLink w)
  | .peer d pa => do
    if (← peerFails d) then
      modify fun s => (s.milepost 10 0 0 d 0).rasEvent (if w.cluster < Config.clusters then w.cluster else Config.deviceQueue)
    else
      modify fun s => (s.modMem fun m =>
        { m with peerMem := (bs.zipIdx).foldl (fun l p => aset l (d * 2 ^ 52 + pa + p.2) p.1) m.peerMem }).owe w.owner (.peer d)

/-- A load of `n` bytes that consumes its data: poisoned data raises 0x13 (R49, R98, R122). It is performed as its instruction executes:
DESIGN CHOICE, log entry 108. -/
def loadAt (w : Who) (va : Word) (n : Nat) : M Nat := do
  let l ← translate w .load va n
  let (bs, p) ← readLoc w va l n
  if p then raise 0x13 0 ((← get).poisonedWord va l n)
  pure (leNat bs)

/-- A store of `n` bytes (R122), performed as its instruction executes, in program order with the strand's other accesses, which R265 would
let change places. DESIGN CHOICE, log entry 108. -/
def storeAt (w : Who) (va : Word) (n v : Nat) : M Unit := do
  let l ← translate w .store va n
  writeLoc w l (leBytes n v)

/-- `k` dwords from an 8-byte aligned address, as loads. -/
def loadDwords (w : Who) (va : Word) (k : Nat) : M (List Word) :=
  (List.range k).mapM fun i => do
    let v ← loadAt w (va + BitVec.ofNat 64 (8 * i)) 8
    pure (BitVec.ofNat 64 v)

/-! ### The alignment of a scalar access -/

/-- The address of a scalar access that must be a multiple of `n`, or cause 0x04 with EVA the address (R122). -/
def aligned (va : Word) (n : Nat) : M Unit := if va.toNat % n = 0 then pure () else raise 4 0 va

/-! ### Free values -/

/-- A number for a free value, one for each use. DESIGN CHOICE, log entry 4. -/
def takeFree : M Nat := do
  let s ← get
  set { s with free := s.free + 1 }
  pure s.free

end Sys2Proof.Machine
end

