-- ==== Sys2Proof/Machine/Operands.lean ====
section
/-!
DEFINITION. The operand forms of scalar words: immediates, the pending registers of R153, and the conditions of R29, R31 and
R298 that are decided by the front end and not by the word.
-/

namespace Sys2Proof.Machine

/-- A field as a signed 64-bit value. -/
def sext {n : Nat} (x : BitVec n) : Word := x.signExtend 64

/-- A field as an unsigned 64-bit value. -/
def zext {n : Nat} (x : BitVec n) : Word := x.setWidth 64

/-- The trap at the word: EVA receives the word, zero-extended (R32). -/
def trapWord (cause detail : Nat) (w : Nat) (s : State) : Out := .next (trapHere cause detail (BitVec.ofNat 64 w) s)

/-- The strand runs on an MCC. -/
def State.onMcc (s : State) : Bool := s.st.span == .ctrl

/-- The scalar register that a sink writes when its pass completes (R153, R212, R256). -/
def Sink.dest (k : Sink) : Option Reg :=
  match k.op with
  | .red _ d => some d
  | .vstcmp _ d => some d
  | _ => none

/-- A pass that has not completed and is not suspended (R113, R298). -/
def Pass.inFlight (p : Pass) : Bool := p.st != .suspended

/-- A register is pending while it is the destination of a sink of a pass in flight (R153); s0 holds no value to wait for. -/
def State.pending (s : State) (r : Reg) : Bool :=
  r.val != 0 && s.st.passes.any fun p => p.inFlight && p.sinks.any fun k => k.dest == some r

/-- An instruction that reads or writes a pending register waits (R153); otherwise it goes on. -/
def whenReady (rs : List Reg) (s : State) (k : Out) : Out := if rs.any s.pending then .next s else k

/-- A suspended pass exists (R298). -/
def State.suspended (s : State) : Bool := s.st.passes.any fun p => p.st == .suspended

/-- A vector word or one of FORCE, CONVOY, VSYNC, VDROP: illegal on an MCC (R29), and while a pass is suspended (R298). -/
def vectorWord (w : Nat) (s : State) (k : Out) : Out :=
  if s.onMcc || s.suspended then trapWord 1 0 w s else k

/-- A word of major 0x34: illegal while a pass is suspended (R298). -/
def syncWord (w : Nat) (s : State) (k : Out) : Out := if s.suspended then trapWord 1 0 w s else k

/-- A MATRIX word: illegal on a core (R29). -/
def matrixWord (w : Nat) (s : State) (k : Out) : Out := if s.onMcc then k else trapWord 1 0 w s

/-- A privileged word: cause 0x03 from mode U (R31). -/
def privileged (w : Nat) (s : State) (k : Out) : Out := if s.st.mode = .u then trapWord 3 0 w s else k

/-- A pass of the strand is in flight (R113, R152). -/
def State.passesInFlight (s : State) : Bool := s.st.passes.any Pass.inFlight

/-- VL is unsettled while a pass in flight holds a VLD.ff (R154). -/
def State.unsettled (s : State) : Bool :=
  s.st.passes.any fun p => p.inFlight && p.wps.any fun w => match w.op with | .vld 1 _ _ _ => true | _ => false

end Sys2Proof.Machine
end

