-- ==== Sys2Proof/Machine/Scalar.lean ====
section
/-!
DEFINITION. The scalar instructions that compute: ALU, MULDIV, the immediates, LDZ and LDK, the branches and jumps, and scalar
floating point (spec/07 R118 to R121, R124 to R129).
-/

namespace Sys2Proof.Machine

/-- S[D] is written and the PC advances. -/
def State.put (s : State) (d : Reg) (v : Word) : State := (s.setReg d v).adv

/-- A register-register operation (R118, R119). -/
def alu2 (d a b : Reg) (f : Word → Word → Word) (s : State) : Out :=
  whenReady [d, a, b] s (.next (s.put d (f (s.reg a) (s.reg b))))

/-- An operation of one source (R118), or of a source and an immediate that `f` holds (R120). -/
def alu1 (d a : Reg) (f : Word → Word) (s : State) : Out :=
  whenReady [d, a] s (.next (s.put d (f (s.reg a))))

def ofBool (b : Bool) : Word := if b then 1 else 0

/-- The low six bits of a shift amount (R118). -/
def shamt (b : Word) : Nat := b.toNat % 64

/-- Leading zero bits of the low `w` bits; `w` when they are 0. -/
def clzNat (w x : Nat) : Nat := let y := x % 2 ^ w; if y = 0 then w else w - 1 - Nat.log2 y

/-- Trailing zero bits, counted up to `w`. -/
def ctzNat (w x : Nat) : Nat :=
  match w with
  | 0 => 0
  | w + 1 => if x % 2 = 1 then 0 else 1 + ctzNat w (x / 2)

/-- The 1 bits among the low `w` bits. -/
def popNat (w x : Nat) : Nat :=
  match w with
  | 0 => 0
  | w + 1 => x % 2 + popNat w (x / 2)

/-- The bytes of a dword in reverse order (R118). -/
def bswap (x : Word) : Word := BitVec.ofNat 64 (leNat (leBytes 8 x.toNat).reverse)

/-- The signed quotient with the borderline cases of R119. -/
def divS (a b : Word) : Word := if b = 0 then BitVec.allOnes 64 else a.sdiv b

def divU (a b : Word) : Word := if b = 0 then BitVec.allOnes 64 else a / b

/-- The signed remainder with the borderline cases of R119. -/
def remS (a b : Word) : Word := if b = 0 then a else a.srem b

def remU (a b : Word) : Word := if b = 0 then a else a % b

/-- The high halves of the 128-bit products (R119). -/
def mulhS (a b : Word) : Word := wOfInt (a.toInt * b.toInt / 2 ^ 64)
def mulhU (a b : Word) : Word := BitVec.ofNat 64 (a.toNat * b.toNat / 2 ^ 64)

/-- ADD (R118). -/
def execAdd (d a b : Reg) (s : State) : Out :=
  alu2 d a b (fun x y => x + y) s

/-- SUB (R118). -/
def execSub (d a b : Reg) (s : State) : Out :=
  alu2 d a b (fun x y => x - y) s

/-- AND (R118). -/
def execAnd (d a b : Reg) (s : State) : Out :=
  alu2 d a b (fun x y => x &&& y) s

/-- OR (R118). -/
def execOr (d a b : Reg) (s : State) : Out :=
  alu2 d a b (fun x y => x ||| y) s

/-- XOR (R118). -/
def execXor (d a b : Reg) (s : State) : Out :=
  alu2 d a b (fun x y => x ^^^ y) s

/-- ANDN (R118). -/
def execAndn (d a b : Reg) (s : State) : Out :=
  alu2 d a b (fun x y => x &&& ~~~ y) s

/-- SLL (R118). -/
def execSll (d a b : Reg) (s : State) : Out :=
  alu2 d a b (fun x y => x <<< shamt y) s

/-- SRL (R118). -/
def execSrl (d a b : Reg) (s : State) : Out :=
  alu2 d a b (fun x y => x >>> shamt y) s

/-- SRA (R118). -/
def execSra (d a b : Reg) (s : State) : Out :=
  alu2 d a b (fun x y => x.sshiftRight (shamt y)) s

/-- ROR (R118). -/
def execRor (d a b : Reg) (s : State) : Out :=
  alu2 d a b (fun x y => x.rotateRight (shamt y)) s

/-- SLT (R118). -/
def execSlt (d a b : Reg) (s : State) : Out :=
  alu2 d a b (fun x y => ofBool (x.slt y)) s

/-- SLTU (R118). -/
def execSltu (d a b : Reg) (s : State) : Out :=
  alu2 d a b (fun x y => ofBool (x.ult y)) s

/-- MIN (R118). -/
def execMin (d a b : Reg) (s : State) : Out :=
  alu2 d a b (fun x y => if x.slt y then x else y) s

/-- MAX (R118). -/
def execMax (d a b : Reg) (s : State) : Out :=
  alu2 d a b (fun x y => if x.slt y then y else x) s

/-- MINU (R118). -/
def execMinu (d a b : Reg) (s : State) : Out :=
  alu2 d a b (fun x y => if x.ult y then x else y) s

/-- MAXU (R118). -/
def execMaxu (d a b : Reg) (s : State) : Out :=
  alu2 d a b (fun x y => if x.ult y then y else x) s

/-- CLZ (R118). -/
def execClz (d a : Reg) (s : State) : Out :=
  alu1 d a (fun x => BitVec.ofNat 64 (clzNat 64 x.toNat)) s

/-- CTZ (R118). -/
def execCtz (d a : Reg) (s : State) : Out :=
  alu1 d a (fun x => BitVec.ofNat 64 (ctzNat 64 x.toNat)) s

/-- POPC (R118). -/
def execPopc (d a : Reg) (s : State) : Out :=
  alu1 d a (fun x => BitVec.ofNat 64 (popNat 64 x.toNat)) s

/-- SEXTB (R118). -/
def execSextb (d a : Reg) (s : State) : Out :=
  alu1 d a (fun x => (x.setWidth 8).signExtend 64) s

/-- SEXTH (R118). -/
def execSexth (d a : Reg) (s : State) : Out :=
  alu1 d a (fun x => (x.setWidth 16).signExtend 64) s

/-- SEXTW (R118). -/
def execSextw (d a : Reg) (s : State) : Out :=
  alu1 d a (fun x => (x.setWidth 32).signExtend 64) s

/-- ZEXTB (R118). -/
def execZextb (d a : Reg) (s : State) : Out :=
  alu1 d a (fun x => (x.setWidth 8).setWidth 64) s

/-- ZEXTH (R118). -/
def execZexth (d a : Reg) (s : State) : Out :=
  alu1 d a (fun x => (x.setWidth 16).setWidth 64) s

/-- ZEXTW (R118). -/
def execZextw (d a : Reg) (s : State) : Out :=
  alu1 d a (fun x => (x.setWidth 32).setWidth 64) s

/-- BSWAP (R118). -/
def execBswap (d a : Reg) (s : State) : Out :=
  alu1 d a (fun x => bswap x) s

/-- MUL (R119). -/
def execMul (d a b : Reg) (s : State) : Out :=
  alu2 d a b (fun x y => x * y) s

/-- MULH (R119). -/
def execMulh (d a b : Reg) (s : State) : Out :=
  alu2 d a b (fun x y => mulhS x y) s

/-- MULHU (R119). -/
def execMulhu (d a b : Reg) (s : State) : Out :=
  alu2 d a b (fun x y => mulhU x y) s

/-- DIV (R119). -/
def execDiv (d a b : Reg) (s : State) : Out :=
  alu2 d a b (fun x y => divS x y) s

/-- DIVU (R119). -/
def execDivu (d a b : Reg) (s : State) : Out :=
  alu2 d a b (fun x y => divU x y) s

/-- REM (R119). -/
def execRem (d a b : Reg) (s : State) : Out :=
  alu2 d a b (fun x y => remS x y) s

/-- REMU (R119). -/
def execRemu (d a b : Reg) (s : State) : Out :=
  alu2 d a b (fun x y => remU x y) s

/-- ADDI (R120). -/
def execAddi (d a : Reg) (i : BitVec 16) (s : State) : Out :=
  alu1 d a (fun x => x + sext i) s

/-- ANDI (R120). -/
def execAndi (d a : Reg) (i : BitVec 14) (s : State) : Out :=
  alu1 d a (fun x => x &&& zext i) s

/-- ORI (R120). -/
def execOri (d a : Reg) (i : BitVec 14) (s : State) : Out :=
  alu1 d a (fun x => x ||| zext i) s

/-- XORI (R120). -/
def execXori (d a : Reg) (i : BitVec 14) (s : State) : Out :=
  alu1 d a (fun x => x ^^^ zext i) s

/-- SLTI (R120). -/
def execSlti (d a : Reg) (i : BitVec 14) (s : State) : Out :=
  alu1 d a (fun x => ofBool (x.slt (sext i))) s

/-- SLTIU (R120). -/
def execSltiu (d a : Reg) (i : BitVec 14) (s : State) : Out :=
  alu1 d a (fun x => ofBool (x.ult (sext i))) s

/-- SLLI (R120). -/
def execSlli (d a : Reg) (n : BitVec 6) (s : State) : Out :=
  alu1 d a (fun x => x <<< n.toNat) s

/-- SRLI (R120). -/
def execSrli (d a : Reg) (n : BitVec 6) (s : State) : Out :=
  alu1 d a (fun x => x >>> n.toNat) s

/-- SRAI (R120). -/
def execSrai (d a : Reg) (n : BitVec 6) (s : State) : Out :=
  alu1 d a (fun x => x.sshiftRight n.toNat) s

/-- RORI (R120). -/
def execRori (d a : Reg) (n : BitVec 6) (s : State) : Out :=
  alu1 d a (fun x => x.rotateRight n.toNat) s

/-- LDZ (R121). -/
def execLdz (d : Reg) (k : BitVec 2) (i : BitVec 16) (s : State) : Out :=
  whenReady [d] s (.next (s.put d (zext i <<< (16 * k.toNat))))

/-- LDK (R121): bits [16k + 15 : 16k] replaced. -/
def execLdk (d : Reg) (k : BitVec 2) (i : BitVec 16) (s : State) : Out :=
  whenReady [d] s (.next (s.put d
    ((s.reg d &&& ~~~ (0xFFFF#64 <<< (16 * k.toNat))) ||| (zext i <<< (16 * k.toNat)))))

/-! ### Branches and jumps (R124) -/

/-- PC + 4 times a signed word offset. -/
def State.jump {n : Nat} (s : State) (off : BitVec n) : State := s.setPc (s.st.pc + (sext off <<< 2))

/-- A conditional branch: to its target when taken, else to PC + 4. -/
def branch {n : Nat} (rs : List Reg) (taken : Bool) (off : BitVec n) (s : State) : Out :=
  whenReady rs s (.next (if taken then s.jump off else s.adv))

/-- BEQZ (R124). -/
def execBeqz (a : Reg) (o : BitVec 18) (s : State) : Out :=
  branch [a] (s.reg a == 0) o s

/-- BNEZ (R124). -/
def execBnez (a : Reg) (o : BitVec 18) (s : State) : Out :=
  branch [a] (s.reg a != 0) o s

/-- BLTZ (R124). -/
def execBltz (a : Reg) (o : BitVec 18) (s : State) : Out :=
  branch [a] ((s.reg a).slt 0) o s

/-- BGEZ (R124). -/
def execBgez (a : Reg) (o : BitVec 18) (s : State) : Out :=
  branch [a] (!(s.reg a).slt 0) o s

/-- BGTZ (R124). -/
def execBgtz (a : Reg) (o : BitVec 18) (s : State) : Out :=
  branch [a] ((0 : Word).slt (s.reg a)) o s

/-- BLEZ (R124). -/
def execBlez (a : Reg) (o : BitVec 18) (s : State) : Out :=
  branch [a] (!(0 : Word).slt (s.reg a)) o s

/-- BEQ (R124). -/
def execBeq (a b : Reg) (o : BitVec 13) (s : State) : Out :=
  branch [a, b] (s.reg a == s.reg b) o s

/-- BNE (R124). -/
def execBne (a b : Reg) (o : BitVec 13) (s : State) : Out :=
  branch [a, b] (s.reg a != s.reg b) o s

/-- BLT (R124). -/
def execBlt (a b : Reg) (o : BitVec 13) (s : State) : Out :=
  branch [a, b] ((s.reg a).slt (s.reg b)) o s

/-- BGE (R124). -/
def execBge (a b : Reg) (o : BitVec 13) (s : State) : Out :=
  branch [a, b] (!(s.reg a).slt (s.reg b)) o s

/-- BLTU (R124). -/
def execBltu (a b : Reg) (o : BitVec 13) (s : State) : Out :=
  branch [a, b] ((s.reg a).ult (s.reg b)) o s

/-- BGEU (R124). -/
def execBgeu (a b : Reg) (o : BitVec 13) (s : State) : Out :=
  branch [a, b] (!(s.reg a).ult (s.reg b)) o s

/-- B (R124). -/
def execB (o : BitVec 25) (s : State) : Out :=
  .next (s.jump o)

/-- BL (R124): the link goes to s1. -/
def execBl (o : BitVec 25) (s : State) : Out :=
  whenReady [1] s (.next ((s.setReg 1 (s.st.pc + 4)).jump o))

/-- A jump to a register's address, read before any write; a target that is not a multiple of 4 is cause 0x04 (R21, R124). -/
def jumpReg (a : Reg) (link : State → State) (s : State) : Out :=
  let t := s.reg a
  if t.toNat % 4 ≠ 0 then .next (trapHere 4 0 t s) else .next ((link s).setPc t)

/-- JR (R124). -/
def execJr (a : Reg) (s : State) : Out :=
  whenReady [a] s (jumpReg a id s)

/-- JLR (R124). -/
def execJlr (d a : Reg) (s : State) : Out :=
  whenReady [d, a] s (jumpReg a (fun s => s.setReg d (s.st.pc + 4)) s)

/-! ### Scalar floating point (R125 to R129) -/

/-- The format of a precision, and an operand's code: an f32 operand is bits [31:0] (R125). -/
def precFmt (p : Prec) : Fmt := match p with | .s => fmtF32 | .d => fmtF64
def precCode (p : Prec) (x : Word) : Nat := match p with | .s => x.toNat % 2 ^ 32 | .d => x.toNat

/-- The rounding mode of scalar floating point (R112, R125). -/
def State.rm (s : State) : RM := rmOf s.st.sr.fpctl

/-- FPFLAGS with flags set (R127). -/
def SRegs.addFlags (r : SRegs) (f : FFlags) : SRegs := { r with fpflags := r.fpflags ||| zext f }

/-- A scalar floating-point result: FPFLAGS takes the flags; an enabled one traps with cause 0x0D, every flag raised as its
detail, and S[D] is not written (R127, R297). -/
def fpResult (d : Reg) (v : Nat) (f : FFlags) (s : State) : Out :=
  let s1 := s.modSr fun r => r.addFlags f
  if trapping s.st.sr.fpctl f then .next (trapHere 0x0D f.toNat 0 s1) else .next (s1.put d (BitVec.ofNat 64 v))

/-- A scalar operation of two values. -/
def sfp2 (d a b : Reg) (p : Prec) (f : Fmt → RM → FVal → FVal → Nat × FFlags) (s : State) : Out :=
  let fmt := precFmt p
  let r := f fmt s.rm (decodeF fmt (precCode p (s.reg a))) (decodeF fmt (precCode p (s.reg b)))
  whenReady [d, a, b] s (fpResult d r.1 r.2 s)

/-- A comparison: 1 or 0, and any comparison with a NaN is 0 (R128). `quiet` raises NV for a signalling NaN only. -/
def sfpCmp (quiet : Bool) (test : Ordering → Bool) (_ : Fmt) (_ : RM) (x y : FVal) : Nat × FFlags :=
  let nan := x.isNan || y.isNan
  let nv := if quiet then x.isSnan || y.isSnan else nan
  (if nan then 0 else if test (cmpF x y) then 1 else 0, if nv then flNV else flNone)

/-- A scalar operation of one code. -/
def sfp1 (d a : Reg) (p : Prec) (f : Fmt → RM → Nat → Nat × FFlags) (s : State) : Out :=
  let fmt := precFmt p
  let r := f fmt s.rm (precCode p (s.reg a))
  whenReady [d, a] s (fpResult d r.1 r.2 s)

/-- The range of FCVTI: i64, or u64 with U (R128). -/
def cvtLo (u : Bool) : Int := if u then 0 else -(2 ^ 63)
def cvtHi (u : Bool) : Int := if u then 2 ^ 64 - 1 else 2 ^ 63 - 1

/-- FADD (R125, R128). -/
def execFadd (d a b : Reg) (p : Prec) (s : State) : Out :=
  sfp2 d a b p addF s

/-- FSUB (R125, R128). -/
def execFsub (d a b : Reg) (p : Prec) (s : State) : Out :=
  sfp2 d a b p (fun f m x y => addF f m x y.negate) s

/-- FMUL (R125, R128). -/
def execFmul (d a b : Reg) (p : Prec) (s : State) : Out :=
  sfp2 d a b p prodF s

/-- FDIV (R125, R128). -/
def execFdiv (d a b : Reg) (p : Prec) (s : State) : Out :=
  sfp2 d a b p divF s

/-- FSQRT (R125, R128). -/
def execFsqrt (d a : Reg) (p : Prec) (s : State) : Out :=
  sfp1 d a p (fun f m c => sqrtF f m (decodeF f c)) s

/-- FMIN (R128): the other operand of a NaN keeps its code. -/
def execFmin (d a b : Reg) (p : Prec) (s : State) : Out :=
  let r := minmaxF (precFmt p) false (precCode p (s.reg a)) (precCode p (s.reg b))
  whenReady [d, a, b] s (fpResult d r.1 r.2 s)

/-- FMAX (R128): the other operand of a NaN keeps its code. -/
def execFmax (d a b : Reg) (p : Prec) (s : State) : Out :=
  let r := minmaxF (precFmt p) true (precCode p (s.reg a)) (precCode p (s.reg b))
  whenReady [d, a, b] s (fpResult d r.1 r.2 s)

/-- FEQ (R128). -/
def execFeq (d a b : Reg) (p : Prec) (s : State) : Out :=
  sfp2 d a b p (sfpCmp true fun o => o == .eq) s

/-- FLT (R128). -/
def execFlt (d a b : Reg) (p : Prec) (s : State) : Out :=
  sfp2 d a b p (sfpCmp false fun o => o == .lt) s

/-- FLE (R128). -/
def execFle (d a b : Reg) (p : Prec) (s : State) : Out :=
  sfp2 d a b p (sfpCmp false fun o => o != .gt) s

/-- FCVTI (R128): rounded to i64, or to u64 with U. -/
def execFcvti (d a : Reg) (p : Prec) (u : Bool) (s : State) : Out :=
  sfp1 d a p (fun f m c =>
    let r := toIntF m (cvtLo u) (cvtHi u) (decodeF f c)
    (unsgn 64 r.1, r.2)) s

/-- FCVTF (R128): an i64, or a u64 with U, rounded to the precision. -/
def execFcvtf (d a : Reg) (p : Prec) (u : Bool) (s : State) : Out :=
  let x := s.reg a
  let r := roundF (precFmt p) s.rm false (ofIntF (if u then (x.toNat : Int) else x.toInt))
  whenReady [d, a] s (fpResult d r.1 r.2 s)

/-- FCVTP (R125): f64 to f32 with P = 0, f32 to f64 with P = 1. -/
def execFcvtp (d a : Reg) (p : Prec) (s : State) : Out :=
  let r := match p with
    | .s => roundF fmtF32 s.rm false (decodeF fmtF64 (s.reg a).toNat)
    | .d => roundF fmtF64 s.rm false (decodeF fmtF32 (precCode .s (s.reg a)))
  whenReady [d, a] s (fpResult d r.1 r.2 s)

/-- FABS (R128). -/
def execFabs (d a : Reg) (p : Prec) (s : State) : Out :=
  sfp1 d a p (fun f _ c => (absF f c, flNone)) s

/-- FNEG (R128). -/
def execFneg (d a : Reg) (p : Prec) (s : State) : Out :=
  sfp1 d a p (fun f _ c => (negF f c, flNone)) s

/-- FCLASS (R128). -/
def execFclass (d a : Reg) (p : Prec) (s : State) : Out :=
  sfp1 d a p (fun f _ c => (2 ^ classBit f c, flNone)) s

/-- S[D] + S[A] * S[B], rounded once, with the product negated for FNMAC (R129). -/
def sfmac (d a b : Reg) (p : Prec) (neg : Bool) (s : State) : Out :=
  let f := precFmt p
  let x := decodeF f (precCode p (s.reg a))
  let r := fmaF f s.rm (if neg then x.negate else x) (decodeF f (precCode p (s.reg b))) (decodeF f (precCode p (s.reg d)))
  whenReady [d, a, b] s (fpResult d r.1 r.2 s)

/-- FMAC (R129). -/
def execFmac (d a b : Reg) (p : Prec) (s : State) : Out :=
  sfmac d a b p false s

/-- FNMAC (R129). -/
def execFnmac (d a b : Reg) (p : Prec) (s : State) : Out :=
  sfmac d a b p true s

end Sys2Proof.Machine
end

