-- ==== Sys2Proof/Machine/Access.lean ====
section
/-!
DEFINITION. The scalar loads and stores (spec/07 R122), MFS and MTS (R110 to R117), and the atomics, load-acquire and
store-release of ATOM (spec/18 R277, R278).
-/

namespace Sys2Proof.Machine

/-- The address of a scalar load or store (R122). -/
def effAddr (s : State) (a : Reg) (i : BitVec 13) : Word := s.reg a + sext i

/-- A scalar load of `n` bytes: alignment, window, canonical form, translation, poison; then S[D] (R122). -/
def scalarLoad (d a : Reg) (i : BitVec 13) (n : Nat) (ext : Nat → Word) (s : State) : Out :=
  let ea := effAddr s a i
  whenReady [d, a] s <| runM (do
    aligned ea n
    let v ← loadAt s.who ea n
    modify fun t => t.put d (ext v)) s

/-- A scalar store of the low `n` bytes of S[D] (R122). -/
def scalarStore (d a : Reg) (i : BitVec 13) (n : Nat) (s : State) : Out :=
  let ea := effAddr s a i
  whenReady [d, a] s <| runM (do
    aligned ea n
    storeAt s.who ea n (s.reg d).toNat
    modify State.adv) s

/-- LDB (R122). -/
def execLdb (d a : Reg) (i : BitVec 13) (s : State) : Out :=
  scalarLoad d a i 1 (fun v => (BitVec.ofNat 8 v).signExtend 64) s

/-- LDBU (R122). -/
def execLdbu (d a : Reg) (i : BitVec 13) (s : State) : Out :=
  scalarLoad d a i 1 (fun v => BitVec.ofNat 64 v) s

/-- LDH (R122). -/
def execLdh (d a : Reg) (i : BitVec 13) (s : State) : Out :=
  scalarLoad d a i 2 (fun v => (BitVec.ofNat 16 v).signExtend 64) s

/-- LDHU (R122). -/
def execLdhu (d a : Reg) (i : BitVec 13) (s : State) : Out :=
  scalarLoad d a i 2 (fun v => BitVec.ofNat 64 v) s

/-- LDW (R122). -/
def execLdw (d a : Reg) (i : BitVec 13) (s : State) : Out :=
  scalarLoad d a i 4 (fun v => (BitVec.ofNat 32 v).signExtend 64) s

/-- LDWU (R122). -/
def execLdwu (d a : Reg) (i : BitVec 13) (s : State) : Out :=
  scalarLoad d a i 4 (fun v => BitVec.ofNat 64 v) s

/-- LDD (R122). -/
def execLdd (d a : Reg) (i : BitVec 13) (s : State) : Out :=
  scalarLoad d a i 8 (fun v => BitVec.ofNat 64 v) s

/-- STB (R122). -/
def execStb (d a : Reg) (i : BitVec 13) (s : State) : Out :=
  scalarStore d a i 1 s

/-- STH (R122). -/
def execSth (d a : Reg) (i : BitVec 13) (s : State) : Out :=
  scalarStore d a i 2 s

/-- STW (R122). -/
def execStw (d a : Reg) (i : BitVec 13) (s : State) : Out :=
  scalarStore d a i 4 s

/-- STD (R122). -/
def execStd (d a : Reg) (i : BitVec 13) (s : State) : Out :=
  scalarStore d a i 8 s

/-! ### State registers -/

/-- Numbers of 0x100 and above are for mode S (R31). -/
def privilegedState (n : BitVec 11) : Bool := decide (256 ≤ n.toNat)

/-- The passes that a read of a state register waits for (R113). -/
def mfsWaits (s : State) (n : Nat) : Bool :=
  match n with
  | 0x000 => s.unsettled
  | 0x006 => s.passesInFlight
  | 0x00E => match s.st.qerrSerial with
    | none => false
    | some k => s.st.passes.any fun p => p.inFlight && p.serial == k
  | _ => false

/-- The core that a strand's front end belongs to. -/
def State.frontCore (s : State) : Core := s.fab.core s.st.cluster s.st.core

/-- LANEPART of the strand's core; 0 on an MCC (R114, R290). -/
def State.lanepart (s : State) : Word :=
  if s.onMcc then 0 else BitVec.ofNat 64 (s.frontCore.part + 4 * boolBit s.frontCore.pin)

/-- WMHEAD: the counter of the strand's context (R305). -/
def State.wmhead (s : State) : Word := BitVec.ofNat 64 (((s.ctx? s.st.ctx).map Ctx.wmHead).getD 0)

/-- State(n) as MFS reads it (R110, R114, R116). -/
def stateRead (s : State) (n : Nat) : Word :=
  let r := s.st.sr
  let lane (v : Word) : Word := if s.onMcc then 0 else v
  match n with
  | 0x000 => lane (BitVec.ofNat 64 r.vl)
  | 0x001 => if s.onMcc then 1 else BitVec.ofNat 64 r.vrows
  | 0x002 => lane (BitVec.ofNat 64 r.vlmax)
  | 0x003 => r.vpol
  | 0x004 => lane (BitVec.ofNat 64 r.vprog)
  | 0x005 => r.fpctl
  | 0x006 => r.fpflags
  | 0x007 => r.determ
  | 0x008 => r.rngkey
  | 0x009 => r.draw
  | 0x00A => r.strandkey
  | 0x00B => r.iter
  | 0x00C => r.groups
  | 0x00D => r.tdtbase
  | 0x00E => lane r.qerr
  | 0x00F => BitVec.ofNat 64 s.timer
  | 0x010 => 0
  | 0x011 => s.placeWord s.st
  | 0x100 => r.tvec
  | 0x101 => r.epc
  | 0x102 => r.ecause
  | 0x103 => r.eva
  | 0x104 => r.eblame
  | 0x105 => r.eforce
  | 0x106 => r.estatus
  | 0x107 => r.escratch
  | 0x108 => r.context
  | 0x109 => r.ptbase
  | 0x10A => s.lanepart
  | 0x10B => r.wmbase
  | 0x10C => r.wmsize
  | 0x10D => s.wmhead
  | 0x10E => r.istatus
  | 0x10F => r.savearea
  | _ => 0

/-- The parts of a lane partition, as masks of lane groups (R15). -/
def partMasks (p : Nat) : List Nat :=
  match p with
  | 0 => [15]
  | 1 => [3, 12]
  | 2 => [3, 4, 8]
  | _ => [1, 2, 4, 8]

/-- The resident strands, the one whose turn it is first. -/
def State.residents (s : State) : List Strand := (s.st :: s.bench).filter fun t => t.stand = .resident

/-- The strands that hold lanes of a core; a wide strand holds those of all its cores (R15). -/
def State.onCore (s : State) (c k : Nat) : List Strand :=
  s.residents.filter fun t => t.cluster = c ∧ t.span ≠ .ctrl ∧ (t.core = k ∨ t.cores.contains k)

/-- A write of LANEPART: PIN always, PART only when every strand on the core keeps a whole part (R290). -/
def State.setLanepart (s : State) (v : Word) : State :=
  if s.onMcc then s
  else
    let p := bitsAt v.toNat 0 2
    let fits := (s.onCore s.st.cluster s.st.core).all fun t =>
      (partMasks p).contains (if t.span = .wide then 15 else t.lgs.toNat)
    s.modCore s.st.cluster s.st.core fun c =>
      { c with pin := bitAt v.toNat 2, part := if fits then p else c.part }

/-- State(n) written by MTS, its RSVD bits ignored (R110, R112, R116, R117). DEDUCED, log entry 55. -/
def stateWrite (n : Nat) (v : Word) (s : State) : State :=
  match n with
  | 0x003 => s.modSr fun r => { r with vpol := v &&& 7 }
  | 0x005 => s.modSr fun r => { r with fpctl := v &&& 0x1F3 }
  | 0x006 => s.modSr fun r => { r with fpflags := v &&& 0x1F }
  | 0x007 => s.modSr fun r => { r with determ := v &&& 1 }
  | 0x008 => s.modSr fun r => { r with rngkey := v }
  | 0x009 => s.modSr fun r => { r with draw := v }
  | 0x100 => s.modSr fun r => { r with tvec := v &&& ~~~ 3 }
  | 0x101 => s.modSr fun r => { r with epc := v &&& ~~~ 3 }
  | 0x102 => s.modSr fun r => { r with ecause := v &&& 0xFFFF }
  | 0x103 => s.modSr fun r => { r with eva := v }
  | 0x104 => s.modSr fun r => { r with eblame := v }
  | 0x105 => s.modSr fun r => { r with eforce := v }
  | 0x106 => s.modSr fun r => { r with estatus := v &&& 7 }
  | 0x107 => s.modSr fun r => { r with escratch := v }
  | 0x108 => s.modSr fun r => { r with context := v &&& 0xFFFFF }
  | 0x109 => s.modSr fun r => { r with ptbase := v &&& 0xFFFFFFF000000 }
  | 0x10A => s.setLanepart v
  | 0x10B => s.modSr fun r => { r with wmbase := v }
  | 0x10C => s.modSr fun r => { r with wmsize := v &&& 0xFFFFFFFF }
  | 0x10D => s.modCtx s.st.ctx fun c => { c with wmHead := v.toNat % 2 ^ 32 }
  | 0x10E => s.modSr fun r => { r with istatus := v &&& 0xF }
  | 0x10F => s.modSr fun r => { r with savearea := v }
  | _ => s

/-- MFS (R111, R113, R117). -/
def execMfs (d : Reg) (n : BitVec 11) (s : State) : Out :=
  let go : Out :=
    if mfsWaits s n.toNat then .next s else whenReady [d] s (.next (s.put d (stateRead s n.toNat)))
  if privilegedState n then privileged (fmtR 0x02 d 0 0 n.toNat) s go else go

/-- MTS (R111 to R113, R117): only FPFLAGS waits. -/
def execMts (a : Reg) (n : BitVec 11) (s : State) : Out :=
  let go : Out :=
    if n.toNat = 6 ∧ s.passesInFlight then .next s
    else whenReady [a] s (.next (stateWrite n.toNat (s.reg a) s).adv)
  if privilegedState n then privileged (fmtR 0x03 0 a 0 n.toNat) s go else go

/-! ### Atomics -/

def szBytes (z : Size) : Nat := match z with | .w => 4 | .d => 8

/-- The new value of a location, of `w` bits (R277): `m` the old one, `b` the operand, `c` the compare value. -/
def amoNew (op : AmoOp) (w m b c : Nat) : Nat :=
  let b := b % 2 ^ w
  match op with
  | .swap => b
  | .add => (m + b) % 2 ^ w
  | .and => m &&& b
  | .or => m ||| b
  | .xor => m ^^^ b
  | .min => if sgn w b < sgn w m then b else m
  | .max => if sgn w m < sgn w b then b else m
  | .minu => min m b
  | .maxu => max m b
  | .cas => if m = c % 2 ^ w then b else m
  | .fadd => let f := if w = 32 then fmtF32 else fmtF64; (addF f .rne (decodeF f m) (decodeF f b)).1

/-- Place(m): how the old value stands in S[D] (R277). -/
def amoPlace (op : AmoOp) (z : Size) (m : Nat) : Word :=
  match z with
  | .d => BitVec.ofNat 64 m
  | .w => match op with
    | .minu | .maxu | .cas | .fadd => BitVec.ofNat 64 m
    | _ => (BitVec.ofNat 32 m).signExtend 64

/-- The scope at which an atomic, LDA or STL of an address acts: at a window address one of device or system scope acts at cluster scope
(R97). -/
def scopeAt (ea : Word) (sc : Scope) : Scope := if isWindow ea && wideScope sc then .clu else sc

def releases (o : Order) : Bool := match o with | .rel | .acqrel => true | _ => false
def acquires (o : Order) : Bool := match o with | .acq | .acqrel => true | _ => false

/-- The value of `n` bytes at the point of a scope (R278): a device or system scope access of local HBM first writes back and
drops the cluster's copy. Poisoned data raises 0x13. -/
def pointRead (w : Who) (sc : Scope) (ea : Word) (l : Loc) (n : Nat) : M Nat := do
  match l with
  | .hbm pa ten =>
    if wideScope sc then do
      modify fun s => s.flushLine w.cluster (pa / 64)
      let s ← get
      if s.linePoison (pa / 64) then raise 0x13 0 ea
      pure (leNat (s.devRead ten pa n))
    else do
      let (bs, p) ← readLoc w ea l n
      if p then raise 0x13 0 ((← get).poisonedWord ea l n)
      pure (leNat bs)
  | _ => do
    let (bs, p) ← readLoc w ea l n
    if p then raise 0x13 0 ((← get).poisonedWord ea l n)
    pure (leNat bs)

/-- A value written at the point of a scope (R278). -/
def pointWrite (w : Who) (sc : Scope) (l : Loc) (n v : Nat) : M Unit := do
  match l with
  | .hbm pa ten =>
    if wideScope sc then do
      modify fun s => s.flushLine w.cluster (pa / 64)
      modify fun s => s.devWrite ten pa (leBytes n v)
    else writeLoc w l (leBytes n v)
  | _ => writeLoc w l (leBytes n v)

/-- A host request that is answered with Unsupported Request, when the host has one in store: cause 0x07 (R278). -/
def metUnsupported (ea : Word) : M Unit := do
  if (← get).sys.armed.contains .hostUnsupported then do
    modify fun s => s.modSys fun y => { y with armed := y.armed.erase .hostUnsupported }
    raise 7 0 ea

/-- The PCIe memory read of an LDA of a host page may be answered so (R278). -/
def hostLoad (ea : Word) (l : Loc) : M Unit := match l with | .host _ => metUnsupported ea | _ => pure ()

/-- On a host page only SWAP, ADD and CAS are sent, and an Unsupported Request is cause 0x07 too (R278). -/
def hostAtomic (fn : Bool) (op : AmoOp) (ea : Word) (l : Loc) : M Unit := do
  match l with
  | .host pa =>
    match op with
    | .swap | .add | .cas => do
      metUnsupported ea
      modify fun s => s.modSys fun y => { y with outbox := y.outbox ++ [.atomicOp fn op pa] }
    | _ => raise 7 0 ea
  | _ => pure ()

/-- The function whose link the strand's host requests go over (R316). -/
def State.hfn (s : State) : Bool := ((s.ctx? s.st.ctx).map Ctx.hfn).getD false

/-- The same agent for a write whose request is answered: nothing of it is owed (R270). -/
def Who.answered (w : Who) : Who := { w with owner := 0 }

/-- An AMOADD at system scope on the command word of the device-side mailbox area, through a leaf of tenant 0, rings (R324). -/
def State.ringBy (s : State) (op : AmoOp) (sc : Scope) (l : Loc) : State :=
  if op = .add ∧ sc = .sys ∧ l = .hbm (s.mbxPa 0x3FF8) 0 then s.ring .supervisor (leNat (s.mbxRead .supervisor 0x3FF8 4)) else s

/-- A read-modify-write member of ATOM (R277). -/
def atomic (op : AmoOp) (d a b : Reg) (sc : Scope) (o : Order) (z : Size) (w : Nat) (s : State) : Out :=
  let ea := s.reg a
  let n := szBytes z
  let sc := scopeAt ea sc
  whenReady [d, a, b] s <| runM (do
    aligned ea n
    if op = .fadd ∧ s.st.sr.determ ≠ 0 then raise 0x0C 0 (BitVec.ofNat 64 w)
    if acquires o then holdDirty s.st.cluster sc
    if releases o then releaseAt s.st.cluster s.who.owner sc
    let l ← translate s.who .atomic ea n
    hostAtomic s.hfn op ea l
    let m ← pointRead s.who sc ea l n
    pointWrite s.who.answered sc l n (amoNew op (8 * n) m (s.reg b).toNat (s.reg d).toNat)
    modify fun t => t.ringBy op sc l
    if acquires o then acquireAt s.st.cluster sc
    modify fun t => t.put d (amoPlace op z m)) s

/-- AMOSWAP (R277, R278). -/
def execAmoswap (d a b : Reg) (sc : Scope) (o : Order) (z : Size) (s : State) : Out :=
  atomic .swap d a b sc o z (fmtR 0x11 d a b (atomFn 0 sc o z)) s

/-- AMOADD (R277, R278). -/
def execAmoadd (d a b : Reg) (sc : Scope) (o : Order) (z : Size) (s : State) : Out :=
  atomic .add d a b sc o z (fmtR 0x11 d a b (atomFn 1 sc o z)) s

/-- AMOAND (R277, R278). -/
def execAmoand (d a b : Reg) (sc : Scope) (o : Order) (z : Size) (s : State) : Out :=
  atomic .and d a b sc o z (fmtR 0x11 d a b (atomFn 2 sc o z)) s

/-- AMOOR (R277, R278). -/
def execAmoor (d a b : Reg) (sc : Scope) (o : Order) (z : Size) (s : State) : Out :=
  atomic .or d a b sc o z (fmtR 0x11 d a b (atomFn 3 sc o z)) s

/-- AMOXOR (R277, R278). -/
def execAmoxor (d a b : Reg) (sc : Scope) (o : Order) (z : Size) (s : State) : Out :=
  atomic .xor d a b sc o z (fmtR 0x11 d a b (atomFn 4 sc o z)) s

/-- AMOMIN (R277, R278). -/
def execAmomin (d a b : Reg) (sc : Scope) (o : Order) (z : Size) (s : State) : Out :=
  atomic .min d a b sc o z (fmtR 0x11 d a b (atomFn 5 sc o z)) s

/-- AMOMAX (R277, R278). -/
def execAmomax (d a b : Reg) (sc : Scope) (o : Order) (z : Size) (s : State) : Out :=
  atomic .max d a b sc o z (fmtR 0x11 d a b (atomFn 6 sc o z)) s

/-- AMOMINU (R277, R278). -/
def execAmominu (d a b : Reg) (sc : Scope) (o : Order) (z : Size) (s : State) : Out :=
  atomic .minu d a b sc o z (fmtR 0x11 d a b (atomFn 7 sc o z)) s

/-- AMOMAXU (R277, R278). -/
def execAmomaxu (d a b : Reg) (sc : Scope) (o : Order) (z : Size) (s : State) : Out :=
  atomic .maxu d a b sc o z (fmtR 0x11 d a b (atomFn 8 sc o z)) s

/-- AMOCAS (R277, R278). -/
def execAmocas (d a b : Reg) (sc : Scope) (o : Order) (z : Size) (s : State) : Out :=
  atomic .cas d a b sc o z (fmtR 0x11 d a b (atomFn 9 sc o z)) s

/-- AMOFADD (R277, R278). -/
def execAmofadd (d a b : Reg) (sc : Scope) (o : Order) (z : Size) (s : State) : Out :=
  atomic .fadd d a b sc o z (fmtR 0x11 d a b (atomFn 10 sc o z)) s

/-- LDA (R277, R278): a load at the point of its scope, then the acquire. -/
def execLda (d a : Reg) (sc : Scope) (o : Order) (z : Size) (s : State) : Out :=
  let ea := s.reg a
  let sc := scopeAt ea sc
  whenReady [d, a] s <| runM (do
    aligned ea (szBytes z)
    if acquires o then holdDirty s.st.cluster sc
    let l ← translate s.who .load ea (szBytes z)
    hostLoad ea l
    let m ← pointRead s.who sc ea l (szBytes z)
    if acquires o then acquireAt s.st.cluster sc
    modify fun t => t.put d (amoPlace .swap z m)) s

/-- STL (R277): the release, then a store at the point of its scope. -/
def execStl (a b : Reg) (sc : Scope) (o : Order) (z : Size) (s : State) : Out :=
  let ea := s.reg a
  let sc := scopeAt ea sc
  whenReady [a, b] s <| runM (do
    aligned ea (szBytes z)
    if releases o then releaseAt s.st.cluster s.who.owner sc
    let l ← translate s.who .store ea (szBytes z)
    pointWrite s.who sc l (szBytes z) (s.reg b).toNat
    modify State.adv) s

end Sys2Proof.Machine
end

