-- ==== Sys2Proof/Machine/Stream.lean ====
section
/-!
DEFINITION. Streams, names and the itinerary at issue (spec/08 R130 to R147, spec/09 R148, R149, R169), and the issue of every
load and every element-wise, moving, permuting and predicate instruction (spec/08, spec/11 to spec/13). Nothing is computed at
issue: each instruction makes waypoints. Lengths are set here too (SETVL, SETROWS, STRIP).
-/

namespace Sys2Proof.Machine

/-! ### Waypoints and references -/

def wpOf (wps : List Waypoint) (id : Nat) : Option Waypoint := wps.find? fun w => w.id = id

/-- The operands of a waypoint that keep others referenced (R148, R149). -/
def Waypoint.operands (w : Waypoint) : List Nat := w.srcs ++ w.mask.toList ++ w.old.toList

/-- The waypoints that a sink uses (R150); the row-result waypoint of a row sink among them (R219). -/
def Sink.uses (k : Sink) : List Nat :=
  k.data ++ k.idx.toList ++ k.mask.toList ++ (match k.op with | .rowred _ wp _ => [wp] | _ => [])

/-- The waypoints reached from `roots`; `wps` is in issue order, so operands come before their users. -/
def reach (wps : List Waypoint) (roots : List Nat) : List Nat :=
  wps.foldr (fun w live => if live.contains w.id then w.operands ++ live else live) roots

/-- What the passes that are counted keep referenced (R149). -/
def passRoots (ps : List Pass) : List Nat :=
  ps.flatMap fun p => p.wps.map (fun w => w.id) ++ p.sinks.flatMap Sink.uses

/-- The referenced waypoints (R149), with the names, the passes counted, and further roots. -/
def referenced (t : Strand) (vn pn : List (Nat × Nat)) (ps : List Pass) (more : List Nat) : List Waypoint :=
  let roots := vn.map (fun p => p.2) ++ pn.map (fun p => p.2) ++ t.queue.flatMap Sink.uses ++ passRoots ps ++ more
  let live := reach t.wps roots
  t.wps.filter fun w => live.contains w.id

/-- An unreferenced waypoint is reclaimed at once (R149); a row-result slot goes with its waypoint (R219). -/
def Strand.reclaim (t : Strand) : Strand := { t with wps := referenced t t.vnames t.pnames t.passes [] }

/-- The row-result slots that waypoints hold (R219). -/
def rowSlots (ws : List Waypoint) : List Nat := ws.filterMap fun w => match w.op with | .rowres k _ => some k | _ => none

/-- Whether `c` waypoints, and a row-result slot when `row`, can be had once the names are rebound (R149, R219). -/
def canHave (t : Strand) (vn pn : List (Nat × Nat)) (ps : List Pass) (ops : List Nat) (c : Nat) (row : Bool) : Bool :=
  let ws := referenced t vn pn ps ops
  decide (ws.length + c ≤ 64) && (!row || decide ((rowSlots ws).length < 2))

/-- Waypoints for an instruction: there are enough, or it waits for passes in flight that will free enough, or cause 0x09 with
EVA the word (R149, R219). -/
def needWaypoints (w : Nat) (vn pn : List (Nat × Nat)) (ops : List Nat) (c : Nat) (row : Bool) : M Unit := do
  let t := (← get).st
  if canHave t vn pn t.passes ops c row then pure ()
  else if canHave t vn pn (t.passes.filter fun p => !p.inFlight) ops c row then waitHere
  else raise 9 0 (BitVec.ofNat 64 w)

/-! ### Checks at issue (R131) -/

def faultWord {α : Type} (w : Nat) : M α := raise 8 0 (BitVec.ofNat 64 w)

/-- The waypoint a name stands for, of the current shape (R131). -/
def nameSrc (w : Nat) (pred : Bool) (r : Reg) : M Waypoint := do
  let t := (← get).st
  match afind (if pred then t.pnames else t.vnames) r.val with
  | none => faultWord w
  | some id =>
    match wpOf t.wps id with
    | none => faultWord w
    | some x => if x.vl = t.sr.vl ∧ x.vrows = t.sr.vrows then pure x else faultWord w

/-- A data stream whose type `ok` accepts, with that type (R131, R197). -/
def dataSrc (w : Nat) (ok : Ty → Bool) (r : Reg) : M (Nat × Ty) := do
  let x ← nameSrc w false r
  match x.ty with
  | none => faultWord w
  | some t => if ok t then pure (x.id, t) else faultWord w

def predSrc (w : Nat) (r : Reg) : M Nat := do
  let x ← nameSrc w true r
  pure x.id

def maskSrc (w : Nat) (m : Mask) : M (Option Nat) := do
  match m with
  | none => pure none
  | some p => do
    let x ← predSrc w p
    pure (some x)

/-- The stream that VD named before issue, for a masked waypoint under the undisturbed policy: of the same kind, type and shape
as the stream produced, or a stream fault (R131, R148). -/
def oldSrc (w : Nat) (pred : Bool) (vd : Reg) (m : Mask) (ty : Option Ty) : M (Option Nat) := do
  let t := (← get).st
  if m.isNone || bitAt t.sr.vpol.toNat 0 then pure none
  else
    match afind (if pred then t.pnames else t.vnames) vd.val with
    | none => pure none
    | some id =>
      match wpOf t.wps id with
      | none => pure none
      | some x => if x.ty = ty ∧ x.vl = t.sr.vl ∧ x.vrows = t.sr.vrows then pure (some id) else faultWord w

/-- A new waypoint with the captures of R136 and R148. -/
def mkWp (t : Strand) (w : Nat) (op : WOp) (ty : Option Ty) (srcs : List Nat) (mask old seg : Option Nat) : Waypoint :=
  { id := t.nextWp, pc := t.pc, major := w / 2 ^ 26, op := op, ty := ty, vl := t.sr.vl, vrows := t.sr.vrows, srcs := srcs,
    mask := mask, old := old, vpol := t.sr.vpol, fpctl := t.sr.fpctl, draw := t.sr.draw, rngkey := t.sr.rngkey,
    mark := t.mark, seg := seg }

/-- Binds names to new waypoints and reclaims what is left unreferenced (R148, R149). -/
def Strand.bind (t : Strand) (pred : Bool) (l : List (Nat × Waypoint)) : Strand :=
  let t1 : Strand := l.foldl (fun t x =>
    let wp := { x.2 with id := t.nextWp }
    if pred then { t with pnames := aset t.pnames x.1 wp.id, wps := t.wps ++ [wp], nextWp := t.nextWp + 1 }
    else { t with vnames := aset t.vnames x.1 wp.id, wps := t.wps ++ [wp], nextWp := t.nextWp + 1 }) t
  t1.reclaim

/-- What an instruction makes: the operation, the type, the sources. -/
structure Plan where
  op : WOp
  ty : Option Ty
  srcs : List Nat

/-- The tile's elements: VL times VROWS (R130). -/
def Strand.elems (t : Strand) : Nat := t.sr.vl * t.sr.vrows

/-- DRAW advances at issue (R191). -/
def Strand.advDraw (t : Strand) : Strand := { t with sr := { t.sr with draw := t.sr.draw + BitVec.ofNat 64 t.elems } }

/-- What every vector instruction does before its own checks: legality, the wait of R154, the wait of R153 (R332). -/
def vectorIssue (w : Nat) (regs : List Reg) (m : M Unit) (s : State) : Out :=
  vectorWord w s (if s.unsettled then .next s else whenReady regs s (runM m s))

/-- Issues an instruction that makes one waypoint (R199): its plan checks the sources, then come the mask and the old stream,
then `late` raises its other faults, then waypoints are had; `draws` advances DRAW. -/
def issueOne (w : Nat) (pred : Bool) (vd : Reg) (m : Mask) (regs : List Reg) (plan : M Plan) (late : M Unit) (draws : Bool)
   (s : State) : Out :=
  vectorIssue w regs (do
    let p ← plan
    let mk ← maskSrc w m
    let old ← oldSrc w pred vd m p.ty
    late
    let t := (← get).st
    let vn := if pred then t.vnames else adel t.vnames vd.val
    let pn := if pred then adel t.pnames vd.val else t.pnames
    let wp := mkWp t w p.op p.ty p.srcs mk old none
    needWaypoints w vn pn wp.operands 1 false
    modify fun s =>
      let t1 := s.st.bind pred [(vd.val, wp)]
      State.adv { s with st := if draws then t1.advDraw else t1 }) s

def noFault : M Unit := pure ()

/-! ### Lengths (R139 to R141) -/

/-- SETVL (R139). -/
def execSetvl (d a : Reg) (s : State) : Out :=
  vectorWord (fmtR 0x15 d a 0 0) s <| if s.unsettled then .next s else whenReady [d, a] s <|
    let mx := 4096 * s.liveLanes s.st
    let v := min (s.reg a).toNat mx
    .next ((s.modSr fun r => { r with vlmax := mx, vl := v }).put d (BitVec.ofNat 64 v))

/-- SETROWS (R139). -/
def execSetrows (d a : Reg) (s : State) : Out :=
  vectorWord (fmtR 0x15 d a 0 1) s <| whenReady [d, a] s <|
    let x := (s.reg a).toNat
    let v := if x = 0 then 1 else min x 65535
    .next ((s.modSr fun r => { r with vrows := v }).put d (BitVec.ofNat 64 v))

/-- A register `j` places after `p`. -/
def regPlus (p : Reg) (j : Nat) : Reg := Fin.ofNat 32 (p.val + j)

/-- STRIP (R140): every source is read first, then the pointers, S[A] and S[D] are written in that order. -/
def execStrip (d a p : Reg) (k : BitVec 2) (z : BitVec 8) (s : State) : Out :=
  let js := List.range (k.toNat + 1)
  vectorWord (fmtR 0x14 d a p (k.toNat * 2 ^ 9 + z.toNat * 2)) s <| if s.unsettled then .next s else
  whenReady (d :: a :: js.map (regPlus p)) s <|
    let v := s.st.sr.vl
    let n := (s.reg a).toNat
    let mx := 4096 * s.liveLanes s.st
    let c := min n mx
    let s1 := js.foldl (fun t j =>
      t.setReg (regPlus p j) (s.reg (regPlus p j) + BitVec.ofNat 64 (v * 2 ^ bitsAt z.toNat (2 * j) 2))) s
    .next (((s1.setReg a (BitVec.ofNat 64 (n - c))).modSr fun r => { r with vlmax := mx, vl := c }).put d (BitVec.ofNat 64 c))

/-! ### Loads -/

/-- The element size in bytes that alignment asks for; an e2m1 element asks for none (R138). -/
def alignOf (t : Ty) : Nat := tyBits t / 8

/-- A register value that must be a multiple of the element size: a stream fault with EVA that value (R138). -/
def alignedReg (t : Ty) (v : Word) : M Unit :=
  if alignOf t ≤ 1 then pure () else if v.toNat % alignOf t = 0 then pure () else raise 8 0 v

/-- The stream type of a load (R132). -/
def loadTy (t : Ty) : Ty :=
  match t with
  | .e4m3 | .e5m2 | .e2m1 => .f16
  | .ch8 | .ch4 => .f32
  | x => x

/-- A direct load of one waypoint (R142, R143); the registers of `al` must be aligned, and EVA holds the first of them that is not: S[A] before
S[B] (R138): DESIGN CHOICE, log entry 78. A stream fault of the mask comes before one of alignment: DESIGN CHOICE, log entry 102. -/
def directLoad (w : Nat) (vd : Reg) (m : Mask) (t : Ty) (regs : List Reg) (al : List Word) (op : WOp) (s : State) : Out :=
  issueOne w false vd m regs (do
    let _ ← maskSrc w m
    let _ ← oldSrc w false vd m (some (loadTy t))
    al.forM fun v => alignedReg t v
    pure ⟨op, some (loadTy t), []⟩) noFault false s

/-- The tensor id in a register: one with a bit in [63:12] is a descriptor fault with EVA the register (R144). -/
def tensorId (v : Word) : M Unit := if v.toNat / 2 ^ 12 = 0 then pure () else raise 0x0F 0 v

/-- (row0, col0), both signed (R146). -/
def tileRow (v : Word) : Int := sgn 32 (bitsAt v.toNat 0 32)
def tileCol (v : Word) : Int := sgn 32 (bitsAt v.toNat 32 32)

/-- VLD, unit stride (R142). -/
def execVld (vd a : Reg) (m : Mask) (t : Ty) (s : State) : Out :=
  directLoad (fmtR 0x16 vd a 0 (vmFn false m t)) vd m t [a] [s.reg a] (.vld 0 0 (s.reg a) t) s

/-- VLD.ff (R71, R142): after the checks of every load, a stream fault unless VROWS is 1. -/
def execVldFf (vd a : Reg) (m : Mask) (t : Ty) (s : State) : Out :=
  issueOne (fmtR 0x16 vd a 1 (vmFn false m t)) false vd m [a] (do
    let _ ← maskSrc (fmtR 0x16 vd a 1 (vmFn false m t)) m
    let _ ← oldSrc (fmtR 0x16 vd a 1 (vmFn false m t)) false vd m (some (loadTy t))
    alignedReg t (s.reg a)
    if s.st.sr.vrows ≠ 1 then faultWord (fmtR 0x16 vd a 1 (vmFn false m t))
    pure ⟨.vld 1 0 (s.reg a) t, some (loadTy t), []⟩) noFault false s

/-- VLD.seg (R142): one waypoint for each of the b fields, one pass node. -/
def execVldSeg (vd a b : Reg) (m : Mask) (t : Ty) (s : State) : Out :=
  let w := fmtR 0x16 vd a b (vmFn false m t)
  let c := b.val
  vectorIssue w [a] (do
    let mk ← maskSrc w m
    let olds ← (List.range c).mapM fun f => oldSrc w false (regPlus vd f) m (some (loadTy t))
    alignedReg t (s.reg a)
    let st := (← get).st
    let vn := (List.range c).foldl (fun l f => adel l (vd.val + f)) st.vnames
    needWaypoints w vn st.pnames (mk.toList ++ olds.flatMap Option.toList) c false
    modify fun s => State.adv { s with st := s.st.bind false ((olds.zipIdx).map fun o =>
      (vd.val + o.2, mkWp st w (.vld c o.2 (s.reg a) t) (some (loadTy t)) [] mk o.1 (some st.nextWp))) }) s

/-- VLD.row (R142). -/
def execVldRow (vd a : Reg) (m : Mask) (t : Ty) (s : State) : Out :=
  directLoad (fmtR 0x16 vd a 9 (vmFn false m t)) vd m t [a] [s.reg a] (.vld 9 0 (s.reg a) t) s

/-- VLD.col (R142). -/
def execVldCol (vd a : Reg) (m : Mask) (t : Ty) (s : State) : Out :=
  directLoad (fmtR 0x16 vd a 10 (vmFn false m t)) vd m t [a] [s.reg a] (.vld 10 0 (s.reg a) t) s

/-- VLDS (R143). -/
def execVlds (vd a b : Reg) (m : Mask) (t : Ty) (s : State) : Out :=
  directLoad (fmtR 0x17 vd a b (vmFn false m t)) vd m t [a, b] [s.reg a, s.reg b] (.vlds (s.reg a) (s.reg b) t) s

/-- VLDT (R143). -/
def execVldt (vd a b : Reg) (m : Mask) (t : Ty) (s : State) : Out :=
  directLoad (fmtR 0x18 vd a b (vmFn false m t)) vd m t [a, b] [s.reg a, s.reg b] (.vldt (s.reg a) (s.reg b) t) s

/-- The types of an index stream (R145). -/
def isIndexTy (t : Ty) : Bool := t == .i32 || t == .i64

/-- VLDX (R144, R145): the index stream is i32 or i64. -/
def execVldx (vd a b : Reg) (m : Mask) (t : Ty) (s : State) : Out :=
  issueOne (fmtR 0x19 vd a b (vmFn false m t)) false vd m [a] (do
    let (x, _) ← dataSrc (fmtR 0x19 vd a b (vmFn false m t)) isIndexTy b
    pure ⟨.vldx ((s.reg a).toNat % 2 ^ 12) t, some (loadTy t), [x]⟩) (tensorId (s.reg a)) false s

/-- VLDTD (R144, R146). -/
def execVldtd (vd a b : Reg) (m : Mask) (t : Ty) (s : State) : Out :=
  issueOne (fmtR 0x1A vd a b (vmFn false m t)) false vd m [a, b]
    (pure ⟨.vldtd (tileRow (s.reg a)) (tileCol (s.reg a)) ((s.reg b).toNat % 2 ^ 12) t, some (loadTy t), []⟩)
    (tensorId (s.reg b)) false s

/-- VLDZ (R144, R147). -/
def execVldz (vd a b : Reg) (m : Mask) (t : Ty) (s : State) : Out :=
  issueOne (fmtR 0x1B vd a b (vmFn false m t)) false vd m [a, b]
    (pure ⟨.vldz ((s.reg a).toNat % 2 ^ 12) (s.reg b).toNat t, some (loadTy t), []⟩) (tensorId (s.reg a)) false s

/-! ### Integer and floating-point arithmetic (R203 to R206) -/

/-- Two streams of one type that `ok` accepts. -/
def twoSrcs (w : Nat) (ok : Ty → Bool) (va vb : Reg) : M (Nat × Nat × Ty) := do
  let (x, t) ← dataSrc w ok va
  let (y, u) ← dataSrc w ok vb
  if t = u then pure (x, y, t) else faultWord w

/-- A member of VINT or VFP of two streams. -/
def vec2 (w : Nat) (ok : Ty → Bool) (op : WOp) (vd va vb : Reg) (m : Mask) (s : State) : Out :=
  issueOne w false vd m [] (do
    let (x, y, t) ← twoSrcs w ok va vb
    pure ⟨op, some t, [x, y]⟩) noFault false s

/-- A member of one stream, or of one stream and a scalar that `op` holds, read from `regs`. -/
def vec1 (w : Nat) (ok : Ty → Bool) (op : WOp) (vd va : Reg) (regs : List Reg) (m : Mask) (s : State) : Out :=
  issueOne w false vd m regs (do
    let (x, t) ← dataSrc w ok va
    pure ⟨op, some t, [x]⟩) noFault false s

/-- VADD (R203). -/
def execVadd (vd va vb : Reg) (m : Mask) (s : State) : Out :=
  vec2 (fmtR 0x24 vd va vb (vFn m 0)) tyIsInt (.vint 0 none) vd va vb m s

/-- VSUB (R203). -/
def execVsub (vd va vb : Reg) (m : Mask) (s : State) : Out :=
  vec2 (fmtR 0x24 vd va vb (vFn m 1)) tyIsInt (.vint 1 none) vd va vb m s

/-- VMUL (R203). -/
def execVmul (vd va vb : Reg) (m : Mask) (s : State) : Out :=
  vec2 (fmtR 0x24 vd va vb (vFn m 2)) tyIsInt (.vint 2 none) vd va vb m s

/-- VMULH (R203). -/
def execVmulh (vd va vb : Reg) (m : Mask) (s : State) : Out :=
  vec2 (fmtR 0x24 vd va vb (vFn m 3)) tyIsInt (.vint 3 none) vd va vb m s

/-- VMULHU (R203). -/
def execVmulhu (vd va vb : Reg) (m : Mask) (s : State) : Out :=
  vec2 (fmtR 0x24 vd va vb (vFn m 4)) tyIsInt (.vint 4 none) vd va vb m s

/-- VAND (R203). -/
def execVand (vd va vb : Reg) (m : Mask) (s : State) : Out :=
  vec2 (fmtR 0x24 vd va vb (vFn m 5)) tyIsInt (.vint 5 none) vd va vb m s

/-- VOR (R203). -/
def execVor (vd va vb : Reg) (m : Mask) (s : State) : Out :=
  vec2 (fmtR 0x24 vd va vb (vFn m 6)) tyIsInt (.vint 6 none) vd va vb m s

/-- VXOR (R203). -/
def execVxor (vd va vb : Reg) (m : Mask) (s : State) : Out :=
  vec2 (fmtR 0x24 vd va vb (vFn m 7)) tyIsInt (.vint 7 none) vd va vb m s

/-- VSLL (R203). -/
def execVsll (vd va vb : Reg) (m : Mask) (s : State) : Out :=
  vec2 (fmtR 0x24 vd va vb (vFn m 8)) tyIsInt (.vint 8 none) vd va vb m s

/-- VSRL (R203). -/
def execVsrl (vd va vb : Reg) (m : Mask) (s : State) : Out :=
  vec2 (fmtR 0x24 vd va vb (vFn m 9)) tyIsInt (.vint 9 none) vd va vb m s

/-- VSRA (R203). -/
def execVsra (vd va vb : Reg) (m : Mask) (s : State) : Out :=
  vec2 (fmtR 0x24 vd va vb (vFn m 10)) tyIsInt (.vint 10 none) vd va vb m s

/-- VMIN (R203). -/
def execVmin (vd va vb : Reg) (m : Mask) (s : State) : Out :=
  vec2 (fmtR 0x24 vd va vb (vFn m 11)) tyIsInt (.vint 11 none) vd va vb m s

/-- VMAX (R203). -/
def execVmax (vd va vb : Reg) (m : Mask) (s : State) : Out :=
  vec2 (fmtR 0x24 vd va vb (vFn m 12)) tyIsInt (.vint 12 none) vd va vb m s

/-- VMINU (R203). -/
def execVminu (vd va vb : Reg) (m : Mask) (s : State) : Out :=
  vec2 (fmtR 0x24 vd va vb (vFn m 13)) tyIsInt (.vint 13 none) vd va vb m s

/-- VMAXU (R203). -/
def execVmaxu (vd va vb : Reg) (m : Mask) (s : State) : Out :=
  vec2 (fmtR 0x24 vd va vb (vFn m 14)) tyIsInt (.vint 14 none) vd va vb m s

/-- VADDS (R203). -/
def execVadds (vd va vb : Reg) (m : Mask) (s : State) : Out :=
  vec2 (fmtR 0x24 vd va vb (vFn m 15)) tyIsInt (.vint 15 none) vd va vb m s

/-- VADDSU (R203). -/
def execVaddsu (vd va vb : Reg) (m : Mask) (s : State) : Out :=
  vec2 (fmtR 0x24 vd va vb (vFn m 16)) tyIsInt (.vint 16 none) vd va vb m s

/-- VSUBS (R203). -/
def execVsubs (vd va vb : Reg) (m : Mask) (s : State) : Out :=
  vec2 (fmtR 0x24 vd va vb (vFn m 17)) tyIsInt (.vint 17 none) vd va vb m s

/-- VSUBSU (R203). -/
def execVsubsu (vd va vb : Reg) (m : Mask) (s : State) : Out :=
  vec2 (fmtR 0x24 vd va vb (vFn m 18)) tyIsInt (.vint 18 none) vd va vb m s

/-- VABS (R203). -/
def execVabs (vd va : Reg) (m : Mask) (s : State) : Out :=
  vec1 (fmtR 0x24 vd va 0 (vFn m 19)) tyIsInt (.vint 19 none) vd va [] m s

/-- VNEG (R203). -/
def execVneg (vd va : Reg) (m : Mask) (s : State) : Out :=
  vec1 (fmtR 0x24 vd va 0 (vFn m 20)) tyIsInt (.vint 20 none) vd va [] m s

/-- VNOT (R203). -/
def execVnot (vd va : Reg) (m : Mask) (s : State) : Out :=
  vec1 (fmtR 0x24 vd va 0 (vFn m 21)) tyIsInt (.vint 21 none) vd va [] m s

/-- VPOPC (R203). -/
def execVpopc (vd va : Reg) (m : Mask) (s : State) : Out :=
  vec1 (fmtR 0x24 vd va 0 (vFn m 22)) tyIsInt (.vint 22 none) vd va [] m s

/-- VCLZ (R203). -/
def execVclz (vd va : Reg) (m : Mask) (s : State) : Out :=
  vec1 (fmtR 0x24 vd va 0 (vFn m 23)) tyIsInt (.vint 23 none) vd va [] m s

/-- VADD with a scalar (R198, R203). -/
def execVaddVintx (vd va vb : Reg) (m : Mask) (s : State) : Out :=
  vec1 (fmtR 0x25 vd va vb (vFn m 0)) tyIsInt (.vint 0 (some (s.reg vb))) vd va [vb] m s

/-- VSUB with a scalar (R198, R203). -/
def execVsubVintx (vd va vb : Reg) (m : Mask) (s : State) : Out :=
  vec1 (fmtR 0x25 vd va vb (vFn m 1)) tyIsInt (.vint 1 (some (s.reg vb))) vd va [vb] m s

/-- VMUL with a scalar (R198, R203). -/
def execVmulVintx (vd va vb : Reg) (m : Mask) (s : State) : Out :=
  vec1 (fmtR 0x25 vd va vb (vFn m 2)) tyIsInt (.vint 2 (some (s.reg vb))) vd va [vb] m s

/-- VMULH with a scalar (R198, R203). -/
def execVmulhVintx (vd va vb : Reg) (m : Mask) (s : State) : Out :=
  vec1 (fmtR 0x25 vd va vb (vFn m 3)) tyIsInt (.vint 3 (some (s.reg vb))) vd va [vb] m s

/-- VMULHU with a scalar (R198, R203). -/
def execVmulhuVintx (vd va vb : Reg) (m : Mask) (s : State) : Out :=
  vec1 (fmtR 0x25 vd va vb (vFn m 4)) tyIsInt (.vint 4 (some (s.reg vb))) vd va [vb] m s

/-- VAND with a scalar (R198, R203). -/
def execVandVintx (vd va vb : Reg) (m : Mask) (s : State) : Out :=
  vec1 (fmtR 0x25 vd va vb (vFn m 5)) tyIsInt (.vint 5 (some (s.reg vb))) vd va [vb] m s

/-- VOR with a scalar (R198, R203). -/
def execVorVintx (vd va vb : Reg) (m : Mask) (s : State) : Out :=
  vec1 (fmtR 0x25 vd va vb (vFn m 6)) tyIsInt (.vint 6 (some (s.reg vb))) vd va [vb] m s

/-- VXOR with a scalar (R198, R203). -/
def execVxorVintx (vd va vb : Reg) (m : Mask) (s : State) : Out :=
  vec1 (fmtR 0x25 vd va vb (vFn m 7)) tyIsInt (.vint 7 (some (s.reg vb))) vd va [vb] m s

/-- VSLL with a scalar (R198, R203). -/
def execVsllVintx (vd va vb : Reg) (m : Mask) (s : State) : Out :=
  vec1 (fmtR 0x25 vd va vb (vFn m 8)) tyIsInt (.vint 8 (some (s.reg vb))) vd va [vb] m s

/-- VSRL with a scalar (R198, R203). -/
def execVsrlVintx (vd va vb : Reg) (m : Mask) (s : State) : Out :=
  vec1 (fmtR 0x25 vd va vb (vFn m 9)) tyIsInt (.vint 9 (some (s.reg vb))) vd va [vb] m s

/-- VSRA with a scalar (R198, R203). -/
def execVsraVintx (vd va vb : Reg) (m : Mask) (s : State) : Out :=
  vec1 (fmtR 0x25 vd va vb (vFn m 10)) tyIsInt (.vint 10 (some (s.reg vb))) vd va [vb] m s

/-- VMIN with a scalar (R198, R203). -/
def execVminVintx (vd va vb : Reg) (m : Mask) (s : State) : Out :=
  vec1 (fmtR 0x25 vd va vb (vFn m 11)) tyIsInt (.vint 11 (some (s.reg vb))) vd va [vb] m s

/-- VMAX with a scalar (R198, R203). -/
def execVmaxVintx (vd va vb : Reg) (m : Mask) (s : State) : Out :=
  vec1 (fmtR 0x25 vd va vb (vFn m 12)) tyIsInt (.vint 12 (some (s.reg vb))) vd va [vb] m s

/-- VMINU with a scalar (R198, R203). -/
def execVminuVintx (vd va vb : Reg) (m : Mask) (s : State) : Out :=
  vec1 (fmtR 0x25 vd va vb (vFn m 13)) tyIsInt (.vint 13 (some (s.reg vb))) vd va [vb] m s

/-- VMAXU with a scalar (R198, R203). -/
def execVmaxuVintx (vd va vb : Reg) (m : Mask) (s : State) : Out :=
  vec1 (fmtR 0x25 vd va vb (vFn m 14)) tyIsInt (.vint 14 (some (s.reg vb))) vd va [vb] m s

/-- VADDS with a scalar (R198, R203). -/
def execVaddsVintx (vd va vb : Reg) (m : Mask) (s : State) : Out :=
  vec1 (fmtR 0x25 vd va vb (vFn m 15)) tyIsInt (.vint 15 (some (s.reg vb))) vd va [vb] m s

/-- VADDSU with a scalar (R198, R203). -/
def execVaddsuVintx (vd va vb : Reg) (m : Mask) (s : State) : Out :=
  vec1 (fmtR 0x25 vd va vb (vFn m 16)) tyIsInt (.vint 16 (some (s.reg vb))) vd va [vb] m s

/-- VSUBS with a scalar (R198, R203). -/
def execVsubsVintx (vd va vb : Reg) (m : Mask) (s : State) : Out :=
  vec1 (fmtR 0x25 vd va vb (vFn m 17)) tyIsInt (.vint 17 (some (s.reg vb))) vd va [vb] m s

/-- VSUBSU with a scalar (R198, R203). -/
def execVsubsuVintx (vd va vb : Reg) (m : Mask) (s : State) : Out :=
  vec1 (fmtR 0x25 vd va vb (vFn m 18)) tyIsInt (.vint 18 (some (s.reg vb))) vd va [vb] m s

/-- VFADD (R204). -/
def execVfadd (vd va vb : Reg) (m : Mask) (s : State) : Out :=
  vec2 (fmtR 0x26 vd va vb (vFn m 0)) tyIsFloat (.vfp 0 none) vd va vb m s

/-- VFSUB (R204). -/
def execVfsub (vd va vb : Reg) (m : Mask) (s : State) : Out :=
  vec2 (fmtR 0x26 vd va vb (vFn m 1)) tyIsFloat (.vfp 1 none) vd va vb m s

/-- VFMUL (R204). -/
def execVfmul (vd va vb : Reg) (m : Mask) (s : State) : Out :=
  vec2 (fmtR 0x26 vd va vb (vFn m 2)) tyIsFloat (.vfp 2 none) vd va vb m s

/-- VFDIV (R204). -/
def execVfdiv (vd va vb : Reg) (m : Mask) (s : State) : Out :=
  vec2 (fmtR 0x26 vd va vb (vFn m 3)) tyIsFloat (.vfp 3 none) vd va vb m s

/-- VFMIN (R204). -/
def execVfmin (vd va vb : Reg) (m : Mask) (s : State) : Out :=
  vec2 (fmtR 0x26 vd va vb (vFn m 4)) tyIsFloat (.vfp 4 none) vd va vb m s

/-- VFMAX (R204). -/
def execVfmax (vd va vb : Reg) (m : Mask) (s : State) : Out :=
  vec2 (fmtR 0x26 vd va vb (vFn m 5)) tyIsFloat (.vfp 5 none) vd va vb m s

/-- VFABS (R204). -/
def execVfabs (vd va : Reg) (m : Mask) (s : State) : Out :=
  vec1 (fmtR 0x26 vd va 0 (vFn m 6)) tyIsFloat (.vfp 6 none) vd va [] m s

/-- VFNEG (R204). -/
def execVfneg (vd va : Reg) (m : Mask) (s : State) : Out :=
  vec1 (fmtR 0x26 vd va 0 (vFn m 7)) tyIsFloat (.vfp 7 none) vd va [] m s

/-- VFSQRT (R204). -/
def execVfsqrt (vd va : Reg) (m : Mask) (s : State) : Out :=
  vec1 (fmtR 0x26 vd va 0 (vFn m 8)) tyIsFloat (.vfp 8 none) vd va [] m s

/-- VFRCP (R204). -/
def execVfrcp (vd va : Reg) (m : Mask) (s : State) : Out :=
  vec1 (fmtR 0x26 vd va 0 (vFn m 9)) tyIsFloat (.vfp 9 none) vd va [] m s

/-- VFRSQ (R204). -/
def execVfrsq (vd va : Reg) (m : Mask) (s : State) : Out :=
  vec1 (fmtR 0x26 vd va 0 (vFn m 10)) tyIsFloat (.vfp 10 none) vd va [] m s

/-- VFEXP2 (R204). -/
def execVfexp2 (vd va : Reg) (m : Mask) (s : State) : Out :=
  vec1 (fmtR 0x26 vd va 0 (vFn m 11)) tyIsFloat (.vfp 11 none) vd va [] m s

/-- VFLOG2 (R204). -/
def execVflog2 (vd va : Reg) (m : Mask) (s : State) : Out :=
  vec1 (fmtR 0x26 vd va 0 (vFn m 12)) tyIsFloat (.vfp 12 none) vd va [] m s

/-- VFSGNJ (R204). -/
def execVfsgnj (vd va vb : Reg) (m : Mask) (s : State) : Out :=
  vec2 (fmtR 0x26 vd va vb (vFn m 13)) tyIsFloat (.vfp 13 none) vd va vb m s

/-- VFRINT (R204). -/
def execVfrint (vd va : Reg) (m : Mask) (s : State) : Out :=
  vec1 (fmtR 0x26 vd va 0 (vFn m 14)) tyIsFloat (.vfp 14 none) vd va [] m s

/-- VFADD with a scalar (R198, R204). -/
def execVfaddVfpx (vd va vb : Reg) (m : Mask) (s : State) : Out :=
  vec1 (fmtR 0x27 vd va vb (vFn m 0)) tyIsFloat (.vfp 0 (some (s.reg vb))) vd va [vb] m s

/-- VFSUB with a scalar (R198, R204). -/
def execVfsubVfpx (vd va vb : Reg) (m : Mask) (s : State) : Out :=
  vec1 (fmtR 0x27 vd va vb (vFn m 1)) tyIsFloat (.vfp 1 (some (s.reg vb))) vd va [vb] m s

/-- VFMUL with a scalar (R198, R204). -/
def execVfmulVfpx (vd va vb : Reg) (m : Mask) (s : State) : Out :=
  vec1 (fmtR 0x27 vd va vb (vFn m 2)) tyIsFloat (.vfp 2 (some (s.reg vb))) vd va [vb] m s

/-- VFDIV with a scalar (R198, R204). -/
def execVfdivVfpx (vd va vb : Reg) (m : Mask) (s : State) : Out :=
  vec1 (fmtR 0x27 vd va vb (vFn m 3)) tyIsFloat (.vfp 3 (some (s.reg vb))) vd va [vb] m s

/-- VFMIN with a scalar (R198, R204). -/
def execVfminVfpx (vd va vb : Reg) (m : Mask) (s : State) : Out :=
  vec1 (fmtR 0x27 vd va vb (vFn m 4)) tyIsFloat (.vfp 4 (some (s.reg vb))) vd va [vb] m s

/-- VFMAX with a scalar (R198, R204). -/
def execVfmaxVfpx (vd va vb : Reg) (m : Mask) (s : State) : Out :=
  vec1 (fmtR 0x27 vd va vb (vFn m 5)) tyIsFloat (.vfp 5 (some (s.reg vb))) vd va [vb] m s

/-- VFSGNJ with a scalar (R198, R204). -/
def execVfsgnjVfpx (vd va vb : Reg) (m : Mask) (s : State) : Out :=
  vec1 (fmtR 0x27 vd va vb (vFn m 13)) tyIsFloat (.vfp 13 (some (s.reg vb))) vd va [vb] m s

/-- A fused multiply-add of three streams of one type (R205). -/
def vec3 (w k : Nat) (vd va vb vc : Reg) (m : Mask) (s : State) : Out :=
  issueOne w false vd m [] (do
    let (x, y, t) ← twoSrcs w tyIsFloat va vb
    let (z, u) ← dataSrc w tyIsFloat vc
    if t = u then pure ⟨.fma k, some t, [x, y, z]⟩ else faultWord w) noFault false s

/-- A compare, which makes a predicate stream (R206). -/
def compare2 (w : Nat) (ok : Ty → Bool) (op : WOp) (pd va vb : Reg) (m : Mask) (s : State) : Out :=
  issueOne w true pd m [] (do
    let (x, y, _) ← twoSrcs w ok va vb
    pure ⟨op, none, [x, y]⟩) noFault false s

def compare1 (w : Nat) (ok : Ty → Bool) (op : WOp) (pd va vb : Reg) (m : Mask) (s : State) : Out :=
  issueOne w true pd m [vb] (do
    let (x, _) ← dataSrc w ok va
    pure ⟨op, none, [x]⟩) noFault false s

/-- VFMA (R205). -/
def execVfma (vd va vb vc : Reg) (m : Mask) (s : State) : Out :=
  vec3 (fmtR 0x28 vd va vb (v4Fn vc m)) 0 vd va vb vc m s

/-- VFMS (R205). -/
def execVfms (vd va vb vc : Reg) (m : Mask) (s : State) : Out :=
  vec3 (fmtR 0x29 vd va vb (v4Fn vc m)) 1 vd va vb vc m s

/-- VFNMA (R205). -/
def execVfnma (vd va vb vc : Reg) (m : Mask) (s : State) : Out :=
  vec3 (fmtR 0x2A vd va vb (v4Fn vc m)) 2 vd va vb vc m s

/-- VFNMS (R205). -/
def execVfnms (vd va vb vc : Reg) (m : Mask) (s : State) : Out :=
  vec3 (fmtR 0x2B vd va vb (v4Fn vc m)) 3 vd va vb vc m s

/-- VCMP with an integer condition (R206). -/
def execVcmpInt (pd va vb : Reg) (m : Mask) (c : ICond) (s : State) : Out :=
  compare2 (fmtR 0x2C pd va vb (vFn m c.toNat)) tyIsInt (.cmpI c none) pd va vb m s

/-- VCMP with a floating-point condition (R206). -/
def execVcmpFp (pd va vb : Reg) (m : Mask) (c : FCond) (s : State) : Out :=
  compare2 (fmtR 0x2C pd va vb (vFn m (16 + c.toNat))) tyIsFloat (.cmpF c none) pd va vb m s

/-- VCMPX with an integer condition (R206). -/
def execVcmpxInt (pd va vb : Reg) (m : Mask) (c : ICond) (s : State) : Out :=
  compare1 (fmtR 0x2D pd va vb (vFn m c.toNat)) tyIsInt (.cmpI c (some (s.reg vb))) pd va vb m s

/-- VCMPX with a floating-point condition (R206). -/
def execVcmpxFp (pd va vb : Reg) (m : Mask) (c : FCond) (s : State) : Out :=
  compare1 (fmtR 0x2D pd va vb (vFn m (16 + c.toNat))) tyIsFloat (.cmpF c (some (s.reg vb))) pd va vb m s

/-- The pairs of the table Conversions, with the kinds allowed: 0 RND, 1 SR, 2 RTZ, 3 SAT, 4 F4, 5 F4SR (R207). -/
def cvtOk (k : Nat) (a b : Ty) : Bool :=
  let draws := decide (k ≤ 3)
  let plain := k == 0 || k == 2 || k == 3
  match a, b with
  | .f64, .f32 | .f32, .f16 | .f32, .bf16 | .f16, .e4m3 | .f16, .e5m2 | .bf16, .e4m3 | .bf16, .e5m2 => draws
  | .f32, .e2m1 => k == 4 || k == 5
  | .f32, .f64 | .f16, .f32 | .bf16, .f32 => plain
  | .i16, .f16 | .i16, .bf16 | .i32, .f32 | .i64, .f64 => draws
  | .f16, .i16 | .bf16, .i16 | .f32, .i32 | .f64, .i64 => plain
  | .i16, .i8 | .i32, .i16 | .i64, .i32 | .i8, .i16 | .i16, .i32 | .i32, .i64 => plain
  | _, _ => false

/-- VCVT of a kind (R207); SR and F4SR draw (R191). -/
def convert (w k : Nat) (vd va : Reg) (t : Ty) (m : Mask) (s : State) : Out :=
  issueOne w false vd m [] (do
    let (x, a) ← dataSrc w (fun a => cvtOk k a t) va
    let _ := a
    pure ⟨.cvt k, some t, [x]⟩) noFault (k == 1 || k == 5) s

/-- VCVT_RND (R207). -/
def execVcvtRnd (vd va : Reg) (t : Ty) (m : Mask) (s : State) : Out :=
  convert (fmtR 0x2E vd va t.reg (vFn m 0)) 0 vd va t m s

/-- VCVT_SR (R207). -/
def execVcvtSr (vd va : Reg) (t : Ty) (m : Mask) (s : State) : Out :=
  convert (fmtR 0x2E vd va t.reg (vFn m 1)) 1 vd va t m s

/-- VCVT_RTZ (R207). -/
def execVcvtRtz (vd va : Reg) (t : Ty) (m : Mask) (s : State) : Out :=
  convert (fmtR 0x2E vd va t.reg (vFn m 2)) 2 vd va t m s

/-- VCVT_SAT (R207). -/
def execVcvtSat (vd va : Reg) (t : Ty) (m : Mask) (s : State) : Out :=
  convert (fmtR 0x2E vd va t.reg (vFn m 3)) 3 vd va t m s

/-- VCVT.f4 to e2m1 (R207). -/
def execVcvtF4 (vd va : Reg) (m : Mask) (s : State) : Out :=
  convert (fmtR 0x2E vd va 10 (vFn m 4)) 4 vd va .e2m1 m s

/-- VCVT.f4sr to e2m1 (R207). -/
def execVcvtF4sr (vd va : Reg) (m : Mask) (s : State) : Out :=
  convert (fmtR 0x2E vd va 10 (vFn m 5)) 5 vd va .e2m1 m s

/-- VMOV (R208). -/
def execVmov (vd va : Reg) (m : Mask) (s : State) : Out :=
  vec1 (fmtR 0x2F vd va 0 (vFn m 0)) tyIsArith .mov vd va [] m s

/-- VBCAST (R208): a type above 7 is a stream fault. -/
def execVbcast (vd : Reg) (t : Ty) (b : Reg) (m : Mask) (s : State) : Out :=
  issueOne (fmtR 0x2F vd t.reg b (vFn m 1)) false vd m [b]
    (if tyIsArith t then pure ⟨.bcast (s.reg b), some t, []⟩ else faultWord (fmtR 0x2F vd t.reg b (vFn m 1))) noFault false s

/-- VSEL (R209): its mask selects and makes no element inactive. -/
def execVsel (vd va vb : Reg) (m : Reg) (s : State) : Out :=
  issueOne (fmtR 0x2F vd va vb (vFn (some m) 2)) false vd none [] (do
    let (x, y, t) ← twoSrcs (fmtR 0x2F vd va vb (vFn (some m) 2)) tyIsArith va vb
    let p ← predSrc (fmtR 0x2F vd va vb (vFn (some m) 2)) m
    pure ⟨.sel, some t, [x, y, p]⟩) noFault false s

/-- VSLIDE (R222): a captured k outside -7 to 7 is cause 0x1B with EVA S[B]. -/
def execVslide (vd va vb : Reg) (m : Mask) (s : State) : Out :=
  let k := (s.reg vb).toInt
  issueOne (fmtR 0x2F vd va vb (vFn m 3)) false vd m [vb] (do
    let (x, t) ← dataSrc (fmtR 0x2F vd va vb (vFn m 3)) tyIsArith va
    pure ⟨.slide k, some t, [x]⟩) (if -7 ≤ k ∧ k ≤ 7 then pure () else raise 0x1B 0 (s.reg vb)) false s

/-- VPERM (R222): the index stream is i32 or i64. -/
def execVperm (vd va vb : Reg) (m : Mask) (s : State) : Out :=
  issueOne (fmtR 0x2F vd va vb (vFn m 4)) false vd m [] (do
    let (x, t) ← dataSrc (fmtR 0x2F vd va vb (vFn m 4)) tyIsArith va
    let (y, _) ← dataSrc (fmtR 0x2F vd va vb (vFn m 4)) isIndexTy vb
    pure ⟨.perm, some t, [x, y]⟩) noFault false s

/-- VSCANSUM (R223). -/
def execVscansum (vd va : Reg) (m : Mask) (s : State) : Out :=
  vec1 (fmtR 0x2F vd va 0 (vFn m 5)) tyIsArith .scan vd va [] m s

/-- VREINT (R208): source and target of equal width. -/
def execVreint (vd va : Reg) (t : Ty) (m : Mask) (s : State) : Out :=
  issueOne (fmtR 0x2F vd va t.reg (vFn m 6)) false vd m [] (do
    let (x, _) ← dataSrc (fmtR 0x2F vd va t.reg (vFn m 6)) (fun a => tyIsArith a && tyIsArith t && tyBits a == tyBits t) va
    pure ⟨.reint, some t, [x]⟩) noFault false s

/-- VRAND (R196). -/
def execVrand (vd : Reg) (m : Mask) (s : State) : Out :=
  issueOne (fmtR 0x2F vd 0 0 (vFn m 7)) false vd m [] (pure ⟨.rand, some .i32, []⟩) noFault true s

/-- VRANDF (R196). -/
def execVrandf (vd : Reg) (m : Mask) (s : State) : Out :=
  issueOne (fmtR 0x2F vd 0 0 (vFn m 8)) false vd m [] (pure ⟨.randf, some .f32, []⟩) noFault true s

/-- VIDX (R210). -/
def execVidx (vd : Reg) (start : BitVec 11) (step : BitVec 10) (s : State) : Out :=
  issueOne (fmtX 0x30 vd start.toNat step.toNat) false vd none [] (pure ⟨.idx start.toInt step.toInt, some .i32, []⟩) noFault false s

/-- A member of PRED on the predicates of `srcs` (R224). -/
def predOp (w k : Nat) (pd : Reg) (srcs : List Reg) (s : State) : Out :=
  issueOne w true pd none [] (do
    let ids ← srcs.mapM fun r => predSrc w r
    pure ⟨.pred k, none, ids⟩) noFault false s

/-- PAND (R224). -/
def execPand (pd pa pb : Reg) (s : State) : Out :=
  predOp (fmtR 0x31 pd pa pb 0) 0 pd [pa, pb] s

/-- POR (R224). -/
def execPor (pd pa pb : Reg) (s : State) : Out :=
  predOp (fmtR 0x31 pd pa pb 1) 1 pd [pa, pb] s

/-- PXOR (R224). -/
def execPxor (pd pa pb : Reg) (s : State) : Out :=
  predOp (fmtR 0x31 pd pa pb 2) 2 pd [pa, pb] s

/-- PANDN (R224). -/
def execPandn (pd pa pb : Reg) (s : State) : Out :=
  predOp (fmtR 0x31 pd pa pb 3) 3 pd [pa, pb] s

/-- PNOT (R224). -/
def execPnot (pd pa : Reg) (s : State) : Out :=
  predOp (fmtR 0x31 pd pa 0 4) 4 pd [pa] s

/-- PSET (R224). -/
def execPset (pd : Reg) (s : State) : Out :=
  predOp (fmtR 0x31 pd 0 0 5) 5 pd [] s

/-- PCLR (R224). -/
def execPclr (pd : Reg) (s : State) : Out :=
  predOp (fmtR 0x31 pd 0 0 6) 6 pd [] s

/-- PMOV (R224). -/
def execPmov (pd pa : Reg) (s : State) : Out :=
  predOp (fmtR 0x31 pd pa 0 7) 7 pd [pa] s

/-- VDROP (R169). -/
def execVdrop (vd : Reg) (s : State) : Out :=
  vectorWord (fmtR 0x00 vd 0 0 9) s (.next
    (State.adv { s with st := { s.st with vnames := adel s.st.vnames vd.val }.reclaim }))

/-- CONVOY (R159, R169): the mark count goes up. -/
def execConvoy (s : State) : Out :=
  vectorWord (fmtR 0x00 0 0 0 7) s (.next (State.adv { s with st := { s.st with mark := (s.st.mark + 1) % 2 ^ 32 } }))

/-- VSYNC (R169): it waits for the passes in flight; queued sinks stay queued. -/
def execVsync (s : State) : Out :=
  vectorWord (fmtR 0x00 0 0 0 8) s (.next (if s.passesInFlight then s else s.adv))

end Sys2Proof.Machine
end

