-- ==== Sys2Proof/Machine/Convoy.lean ====
section
/-!
DEFINITION. Pass nodes, the slots they take, convoys, crossing values and the strip length (spec/09 R152, R155 to R159).
-/

namespace Sys2Proof.Machine

/-- A pass node (R152): a waypoint with, for a segment load, the further fields of the load; or a sink. -/
inductive Node where
  | wp (w : Waypoint) (more : List Waypoint)
  | sink (k : Sink)
  deriving DecidableEq, Repr, Inhabited

def Node.id (x : Node) : Nat := match x with | .wp w _ => w.id | .sink k => k.id
def Node.pc (x : Node) : Word := match x with | .wp w _ => w.pc | .sink k => k.pc
def Node.mark (x : Node) : Nat := match x with | .wp w _ => w.mark | .sink k => k.mark
def Node.major (x : Node) : Nat := match x with | .wp w _ => w.major | .sink k => k.major

/-- The waypoints a sink takes its elements, indices and mask from (R150, R152). -/
def Sink.operands (k : Sink) : List Nat := k.data ++ k.idx.toList ++ k.mask.toList

/-- The waypoints whose results a node uses (R156): those of every field of a segment load. -/
def Node.operands (x : Node) : List Nat :=
  match x with
  | .wp w m => w.operands ++ m.flatMap Waypoint.operands
  | .sink k => k.operands

/-- The waypoints that a node is. -/
def Node.makes (x : Node) : List Nat := match x with | .wp w m => w.id :: m.map fun v => v.id | .sink _ => []

/-- The waypoints as nodes: the fields of one segment load stand together (R152). -/
def wpNodes (ws : List Waypoint) : List Node :=
  match ws with
  | [] => []
  | w :: r =>
    match w.seg, wpNodes r with
    | some g, .wp v m :: ns => if v.seg = some g then .wp w (v :: m) :: ns else .wp w [] :: .wp v m :: ns
    | _, ns => .wp w [] :: ns

/-- A node put into its place in issue order. -/
def insertNode (x : Node) (l : List Node) : List Node :=
  match l with
  | [] => [x]
  | y :: r => if x.id < y.id then x :: y :: r else y :: insertNode x r

/-- The pass nodes, in issue order (R152). -/
def nodesOf (ws : List Waypoint) (ks : List Sink) : List Node := ks.foldl (fun l k => insertNode (.sink k) l) (wpNodes ws)

def Pass.nodes (p : Pass) : List Node := nodesOf p.wps p.sinks

/-- The slots of R157. -/
inductive Slot where
  | fa | fx | fs | px | rd | xf | ld | st
  deriving DecidableEq, Repr, Inhabited

/-- The table Convoy budget (R157). -/
def Slot.budget (x : Slot) : Nat := match x with | .fa => 2 | .ld => 3 | .st => 2 | _ => 1

/-- The table Slots of pass nodes, for a waypoint (R157, R220). -/
def WOp.slots (o : WOp) : List Slot :=
  match o with
  | .vld _ _ _ _ | .vlds _ _ _ | .vldt _ _ _ | .vldx _ _ | .vldtd _ _ _ _ => [.ld]
  | .vldz _ _ _ => [.ld, .xf]
  | .vint k _ => if k ≤ 4 ∨ (15 ≤ k ∧ k ≤ 18) then [.fa] else [.fx]
  | .vfp k _ => if k ≤ 2 then [.fa] else if k = 3 ∨ (8 ≤ k ∧ k ≤ 12) then [.fs] else [.fx]
  | .fma _ => [.fa]
  | .cvt k => if k = 1 ∨ k = 5 then [.fx, .fs] else [.fx]
  | .cmpI _ _ | .cmpF _ _ | .mov | .bcast _ | .sel | .reint | .idx _ _ | .pred _ => [.fx]
  | .slide _ | .perm | .scan => [.px]
  | .rand | .randf => [.fs]
  | .rowres _ _ => []

/-- The table Slots of pass nodes, for a sink (R157). -/
def SOp.slots (o : SOp) : List Slot :=
  match o with
  | .vstcmp _ _ => [.st, .px]
  | .vstc _ _ _ => [.st, .xf]
  | .red _ _ | .rowred _ _ _ => [.rd]
  | _ => [.st]

def Node.slots (x : Node) : List Slot := match x with | .wp w _ => w.op.slots | .sink k => k.op.slots

/-- The source that a PX node reads across positions (R157). -/
def Node.pxSource (x : Node) : Option Nat :=
  if x.slots.contains .px then
    (match x with
     | .wp w _ => w.srcs.head?
     | .sink k => k.data.head?)
  else none

/-- Whether slots can still be had beside those used (R157). -/
def fits (used more : List Slot) : Bool := more.all fun x => used.count x + more.count x ≤ x.budget

/-- The convoys formed so far: the present one, its slots, the convoy of each waypoint and sink, the mark count of the node
before, and the first node that does not fit. -/
structure Convoys where
  c : Nat
  used : List Slot
  conv : List (Nat × Nat)
  mark : Option Nat
  bad : Option (Nat × Word)

/-- One more node: greedily when `marked` is false (R158), by its mark when it is true (R159). -/
def Convoys.next (marked : Bool) (v : Convoys) (x : Node) : Convoys :=
  let cut := marked && (match v.mark with | none => false | some m => m != x.mark)
  let v1 : Convoys := if cut then { v with c := v.c + 1, used := [] } else v
  let clash := (match x.pxSource with | none => false | some i => afind v1.conv i == some v1.c)
  let excess := !fits v1.used x.slots || clash
  let v2 : Convoys := if excess && !marked then { v1 with c := v1.c + 1, used := [] } else v1
  { v2 with
    used := v2.used ++ x.slots
    conv := (x.id, v2.c) :: x.makes.map (fun i => (i, v2.c)) ++ v2.conv
    mark := some x.mark
    bad := if excess && marked && v2.bad.isNone then some (x.id, x.pc) else v2.bad }

/-- The convoys of the nodes of a pass (R158, R159). -/
def convoysOf (marked : Bool) (ns : List Node) : Convoys := ns.foldl (Convoys.next marked) ⟨1, [], [], none, none⟩

/-- The crossing values (R156): waypoints whose result a node of a later convoy uses. -/
def crossing (v : Convoys) (ns : List Node) : Nat :=
  ((ns.flatMap Node.makes).filter fun i => ns.any fun y =>
    y.operands.contains i && decide (aget 0 v.conv i < aget 0 v.conv y.id)).length

/-- The table Strip length (R155). -/
def stripLen (c : Nat) : Nat := if c ≤ 16 then 32 else if c ≤ 32 then 16 else 8

def Pass.convoys (p : Pass) : Convoys := convoysOf p.determ p.nodes
def Pass.stripLen (p : Pass) : Nat := Sys2Proof.Machine.stripLen (crossing p.convoys p.nodes)

end Sys2Proof.Machine
end

