-- ==== Sys2Proof/Machine/Random.lean ====
section
/-!
DEFINITION. The counter-based generator of spec/11 (R189, R190), and the CRC-8 of a Chanter header (spec/10, R178).
-/

namespace Sys2Proof.Machine

/-- One round of Philox4x32 on four words and a key of two (R189). -/
def philoxRound (k0 k1 x0 x1 x2 x3 : Nat) : Nat × Nat × Nat × Nat :=
  let p0 := 0xD2511F53 * x0
  let p1 := 0xCD9E8D57 * x2
  ((p1 / 2 ^ 32 % 2 ^ 32) ^^^ x1 ^^^ k0, p1 % 2 ^ 32, (p0 / 2 ^ 32 % 2 ^ 32) ^^^ x3 ^^^ k1, p0 % 2 ^ 32)

/-- `n` rounds of Philox4x32 (R189). -/
def philoxGo (n k0 k1 x0 x1 x2 x3 : Nat) : Nat × Nat × Nat × Nat :=
  match n with
  | 0 => (x0, x1, x2, x3)
  | n + 1 =>
    let (a, b, c, d) := philoxRound k0 k1 x0 x1 x2 x3
    philoxGo n ((k0 + 0x9E3779B9) % 2 ^ 32) ((k1 + 0xBB67AE85) % 2 ^ 32) a b c d

/-- Philox4x32 with 10 rounds (R189). -/
def philox (k0 k1 x0 x1 x2 x3 : Nat) : Nat × Nat × Nat × Nat := philoxGo 10 k0 k1 x0 x1 x2 x3

/-- Draw(K, I, D) of R190: one word of 32 bits. The index is taken modulo 2^64. -/
def draw (key ident : Word) (index : Nat) : Nat :=
  let d := index % 2 ^ 64
  let b := d / 4
  let k := key.toNat
  let i := ident.toNat
  let (w0, w1, w2, w3) := philox (k % 2 ^ 32) (k / 2 ^ 32) (b % 2 ^ 32) (b / 2 ^ 32) (i % 2 ^ 32) (i / 2 ^ 32)
  match d % 4 with
  | 0 => w0 | 1 => w1 | 2 => w2 | _ => w3

/-- `n` steps of an 8-bit CRC register, polynomial 0x07, no reflection (R178). -/
def crc8Steps (n r : Nat) : Nat :=
  match n with
  | 0 => r
  | n + 1 => crc8Steps n (if r / 128 % 2 = 1 then (r * 2 % 256) ^^^ 7 else r * 2 % 256)

/-- CRC-8 of bytes, from 0 and with no final change (R178). -/
def crc8 (bs : List Nat) : Nat := bs.foldl (fun r b => crc8Steps 8 (r ^^^ (b % 256))) 0

/-- The CRC field that a header's bits [31:8] call for, their bytes taken from the highest (R178). -/
def headerCrc (h : Nat) : Nat := crc8 [h / 2 ^ 24 % 256, h / 2 ^ 16 % 256, h / 2 ^ 8 % 256]

end Sys2Proof.Machine
end

