-- ==== Sys2Proof/Machine/Chanter.lean ====
section
/-!
DEFINITION. Chanter blocks and tensor descriptors (spec/10 R177 to R188), the decoding of loaded elements (spec/08 R132, R133),
and the reads of descriptors and level tables through the descriptor caches.
-/

namespace Sys2Proof.Machine

/-! ### Values of codes -/

/-- x * 2^k. -/
def FVal.scale (x : FVal) (k : Int) : FVal :=
  match x with
  | .num n m e s => .num n m (e + k) s
  | y => y

/-- The value of an element of a block with header `h`, of `w` bits, under its level when the selector is LT (R179). -/
def chanterVal (w h code level : Nat) : FVal :=
  let e : Int := (bitsAt h 22 8 : Nat)
  match bitsAt h 30 2 with
  | 0 => (ofIntF (sgn w code)).scale (e - 127)
  | 1 =>
    let ex : Int := if bitAt code (w - 1) then (bitsAt h 14 8 : Nat) else e
    .num (bitAt code (w - 2)) (code % 2 ^ (w - 2)) (ex - 127) false
  | 2 => (decodeF (if w = 4 then fmtE2m1 else fmtE4m3) code).scale (e - 127)
  | _ => (decodeF fmtBf16 level).scale (e - 127)

/-- The first failing check of a header that needs no table (R180): 1 CRC, 2 must-be-zero bits, 3 exponents, 4 table index. -/
def headerDetail (h poolcnt : Nat) : Nat :=
  let sel := bitsAt h 30 2
  let mbz := match sel with | 1 => bitsAt h 8 6 | 3 => 0 | _ => bitsAt h 8 14
  if h % 256 ≠ headerCrc h then 1
  else if mbz ≠ 0 then 2
  else if bitsAt h 22 8 = 255 ∨ (sel = 1 ∧ bitsAt h 14 8 = 255) then 3
  else if sel = 3 ∧ poolcnt ≤ bitsAt h 8 14 then 4
  else 0

/-- Whether a bf16 level is an infinity or a NaN (R180, R258). -/
def badLevel (l : Nat) : Bool := bitsAt l 7 8 == 255

/-- The header with a selector, an exponent and a parameter, and its CRC (R178). -/
def mkHeader (sel e param : Nat) : Nat :=
  let h := sel * 2 ^ 30 + e * 2 ^ 22 + param * 2 ^ 8
  h + headerCrc h

/-- The stream code of a code loaded as a type that is not Chanter (R132). -/
def loadCode (t : Ty) (c : Nat) : Nat :=
  match t with
  | .e4m3 => (roundF fmtF16 .rne false (decodeF fmtE4m3 c)).1
  | .e5m2 => c * 2 ^ 8
  | .e2m1 => (roundF fmtF16 .rne false (decodeF fmtE2m1 c)).1
  | _ => c

/-! ### Descriptors -/

/-- The fields of a tensor descriptor (R182). -/
structure Desc where
  valid : Bool
  rsvd : Nat
  bt : Bool
  scale : Int
  selmask : Nat
  ty : Nat
  poolcnt : Nat
  ctn : Nat
  cts : List Nat
  ce : Nat
  slot : Nat
  cols : Nat
  rows : Nat
  hpitch : Nat
  pitch : Nat
  poolbase : Nat
  hdrbase : Nat
  elembase : Nat
  deriving DecidableEq, Repr, Inhabited

/-- A descriptor from its 64 bytes (R182). -/
def parseDesc (bs : List Byte) : Desc :=
  let x := leNat bs
  { valid := bitAt x 511, rsvd := bitsAt x 481 30 + bitsAt x 463 1 + bitsAt x 443 5, bt := bitAt x 480,
    scale := sgn 8 (bitsAt x 472 8), selmask := bitsAt x 468 4, ty := bitsAt x 464 4, poolcnt := bitsAt x 448 15,
    ctn := bitsAt x 440 3, cts := [bitsAt x 384 14, bitsAt x 398 14, bitsAt x 412 14, bitsAt x 426 14],
    ce := bitsAt x 352 32, slot := bitsAt x 320 32, cols := bitsAt x 288 32, rows := bitsAt x 256 32,
    hpitch := bitsAt x 224 32, pitch := bitsAt x 192 32, poolbase := bitsAt x 128 64, hdrbase := bitsAt x 64 64,
    elembase := bitsAt x 0 64 }

/-- Blocks of a row (R177). -/
def Desc.blocks (d : Desc) : Nat := (d.cols + 31) / 32

/-- Bits of an element of the descriptor's type, and bytes of a row's elements (R183). -/
def Desc.bits (d : Desc) : Nat := ((Ty.ofCode d.ty).map tyBits).getD 8
def Desc.rowBytes (d : Desc) : Nat :=
  if d.ty ≥ 11 then d.blocks * (d.bits * 4) else (d.cols * d.bits + 7) / 8

/-- Bytes of a level table (R184). -/
def Desc.tableBytes (d : Desc) : Nat := if d.ty = 12 then 32 else 512

/-- What a descriptor is used for (R183). -/
inductive Use where
  | plain | quant (col0 : Int) (vl : Nat) | chunked
  deriving DecidableEq, Repr, Inhabited

/-- Descriptor validity (R183, R257); `t` is the instruction's T, none for an MMA or a job. -/
def descValid (d : Desc) (u : Use) (t : Option Ty) : Bool :=
  let al := if d.ty = 12 then 16 else if d.ty = 11 then 32 else max 1 (d.bits / 8)
  let every := d.valid && d.rsvd == 0 && decide (d.ty ≤ 12) && decide (1 ≤ d.rows) && decide (1 ≤ d.cols) &&
    decide (d.poolcnt ≤ 16384) && decide (d.ctn ≤ 4) && (match t with | none => true | some t => t.toNat == d.ty)
  let bytes := d.elembase % al == 0 && d.pitch % al == 0 && (decide (d.rows ≤ 1) || decide (d.rowBytes ≤ d.pitch))
  let kind :=
    if d.ty ≤ 10 then
      d.hdrbase == 0 && d.hpitch == 0 && d.poolbase == 0 && d.poolcnt == 0 && d.cts.all (· == 0) && d.ctn == 0 &&
      d.selmask == 0 && (d.scale == 0 || decide (8 ≤ d.ty))
    else
      d.hdrbase % 4 == 0 && d.hpitch % 4 == 0 && (decide (d.rows ≤ 1) || decide (4 * d.blocks ≤ d.hpitch)) &&
      d.scale == 0 && d.poolbase % d.tableBytes == 0
  every && kind &&
  (match u with
   | .plain => bytes
   | .quant col0 vl =>
     bytes && decide (11 ≤ d.ty) && d.selmask != 0 &&
     (!bitAt d.selmask 3 || (decide (1 ≤ d.ctn) && (d.cts.take d.ctn).all fun c => decide (c < d.poolcnt))) &&
     decide (0 ≤ col0) && col0 % 32 == 0 && (vl % 32 == 0 || decide ((d.cols : Int) ≤ col0 + vl))
   | .chunked =>
     d.slot != 0 && d.ce != 0 && d.slot % 256 == 0 && d.ce % 32 == 0 && decide (d.ce * d.bits / 8 ≤ 65536) &&
     d.elembase % 256 == 0)

/-- The byte offset of element (row, col) from ELEMBASE, and its nibble (R138, R144, R177). -/
def Desc.elemOff (d : Desc) (row col : Nat) : Nat × Nat :=
  if d.bits = 4 then (row * d.pitch + col / 2, col % 2) else (row * d.pitch + col * (d.bits / 8), 0)

/-- The address of the header of block `b` of row `r` (R177). -/
def Desc.hdrAddr (d : Desc) (r b : Nat) : Word := BitVec.ofNat 64 (d.hdrbase + r * d.hpitch + 4 * b)

/-! ### Reads through the descriptor caches (R181, R184, R187) -/

/-- Bytes read at device scope through a translated load, of at most one page. -/
def devLoad (w : Who) (va : Word) (n : Nat) : M (List Byte) := do
  let l ← translate w .load va (min n 8)
  match l with
  | .hbm pa ten => do
    let s ← get
    match (List.range ((n + 63) / 64)).find? fun i => s.linePoison (pa / 64 + i) with
    | some i => raise 0x13 0 ((va &&& ~~~ 3) + BitVec.ofNat 64 (64 * i))
    | none => pure (s.devRead ten pa n)
  | _ => do
    let (bs, p) ← readLoc w va l n
    if p then raise 0x13 0 ((← get).poisonedWord va l n)
    pure bs

/-- A descriptor or level table from the cluster's descriptor cache, filled if it is not there. A table is known by its address and size as
well, so that one read through a changed descriptor is not the old one's, which a pass forced before a TDINV may have filled again since
(R187). DEDUCED, log entry 113. -/
def cachedRead (w : Who) (tid : Nat) (table : Option (Nat × Nat)) (va : Word) (n : Nat) : M (List Byte) := do
  let s ← get
  match (aget [] s.mem.descs w.cluster).find? fun e => e.asid = w.asid ∧ e.tid = tid ∧ e.table = table with
  | some e => pure e.bytes
  | none => do
    let bs ← devLoad w va n
    modify fun s => s.modMem fun m =>
      { m with descs := aset m.descs w.cluster (⟨w.asid, tid, table, bs⟩ :: aget [] m.descs w.cluster) }
    pure bs

/-- The address of a descriptor (R181). -/
def descAddr (tdt : Word) (tid : Nat) : Word := tdt + BitVec.ofNat 64 (64 * tid)

def readDesc (w : Who) (tdt : Word) (tid : Nat) : M (List Byte) := cachedRead w tid none (descAddr tdt tid) 64

/-- The levels of a table of a descriptor's pool, as bf16 codes (R184). -/
def readTable (w : Who) (d : Desc) (tid k : Nat) : M (List Nat) := do
  let va := BitVec.ofNat 64 (d.poolbase + k * d.tableBytes)
  let bs ← cachedRead w tid (some (va.toNat, d.tableBytes)) va d.tableBytes
  pure ((List.range (d.tableBytes / 2)).map fun j => leNat ((bs.drop (2 * j)).take 2))

/-- Checks a header in the order of R180, reading the table that an LT header names. The answer is the table's levels. -/
def checkHeader (w : Who) (d : Desc) (tid h : Nat) (va : Word) : M (List Nat) := do
  let k := headerDetail h d.poolcnt
  if k ≠ 0 then raise 0x0E k va
  if bitsAt h 30 2 = 3 then do
    let ls ← readTable w d tid (bitsAt h 8 14)
    if ls.any badLevel then raise 0x0E 5 va
    pure ls
  else pure []

/-- The removal of descriptors and their tables from every descriptor cache of the device (R187, R188). -/
def State.dropDescs (s : State) (asid : Nat) (tid : Option Nat) : State :=
  s.modMem fun m => { m with descs := m.descs.map fun c =>
    (c.1, c.2.filter fun e => !(e.asid == asid && (match tid with | none => true | some t => e.tid == t))) }

/-- The device-scope release of TDINV and TDINVALL, and then the removal (R188). -/
def tdInvalidate (tid : Option Nat) (s : State) : Out :=
  runM (do
    releaseAt s.st.cluster s.who.owner .dev
    modify fun t => (t.dropDescs s.who.asid tid).adv) s

/-- TDINV (R188). -/
def execTdinv (a : Reg) (s : State) : Out :=
  whenReady [a] s <|
    let v := s.reg a
    if v.toNat / 2 ^ 12 ≠ 0 then .next (trapHere 0x0F 0 v s)
    else tdInvalidate (some v.toNat) s

/-- TDINVALL (R188). -/
def execTdinvall (s : State) : Out := tdInvalidate none s

end Sys2Proof.Machine
end

