-- ==== Sys2Proof/Machine/Elem.lean ====
section
/-!
DEFINITION. What one element of a waypoint or of a reduction computes (spec/12 R203 to R210, spec/13 R213 to R215), as functions
of codes.
-/

namespace Sys2Proof.Machine

/-- An integer held between two bounds. -/
def clampI (lo hi x : Int) : Int := if x < lo then lo else if hi < x then hi else x

/-- Ones among the low `w` bits, and zeros above the highest one. -/
def popBits (w x : Nat) : Nat := ((List.range w).filter fun i => bitAt x i).length
def clzBits (w x : Nat) : Nat := if x = 0 then w else w - 1 - Nat.log2 x

/-- The table Members of VINT and VINTX (R203), on codes below 2^w. -/
def vintOp (k w a b : Nat) : Nat :=
  let m := 2 ^ w
  let sh := b % w
  let lo : Int := -(2 ^ (w - 1) : Int)
  let hi : Int := (2 ^ (w - 1) : Int) - 1
  match k with
  | 0 => (a + b) % m
  | 1 => (a + m - b) % m
  | 2 => a * b % m
  | 3 => unsgn w (sgn w a * sgn w b / (m : Int))
  | 4 => a * b / m
  | 5 => a &&& b
  | 6 => a ||| b
  | 7 => a ^^^ b
  | 8 => a * 2 ^ sh % m
  | 9 => a / 2 ^ sh
  | 10 => unsgn w (sgn w a / (2 ^ sh : Int))
  | 11 => if sgn w b < sgn w a then b else a
  | 12 => if sgn w a < sgn w b then b else a
  | 13 => min a b
  | 14 => max a b
  | 15 => unsgn w (clampI lo hi (sgn w a + sgn w b))
  | 16 => min (a + b) (m - 1)
  | 17 => unsgn w (clampI lo hi (sgn w a - sgn w b))
  | 18 => a - b
  | 19 => unsgn w (sgn w a).natAbs
  | 20 => (m - a) % m
  | 21 => m - 1 - a
  | 22 => popBits w a
  | _ => clzBits w a

/-- The table Members of VFP and VFPX (R204). -/
def vfpOp (k : Nat) (f : Fmt) (mode : RM) (a b : Nat) : Nat × FFlags :=
  let x := decodeF f a
  let y := decodeF f b
  match k with
  | 0 => addF f mode x y
  | 1 => addF f mode x y.negate
  | 2 => prodF f mode x y
  | 3 => divF f mode x y
  | 4 => minmaxF f false a b
  | 5 => minmaxF f true a b
  | 6 => (absF f a, flNone)
  | 7 => (negF f a, flNone)
  | 8 => sqrtF f mode x
  | 9 => rcpF f mode x
  | 10 => rsqF f mode x
  | 11 => exp2F f mode x
  | 12 => log2F f mode x
  | 13 => (sgnjF f a b, flNone)
  | _ => rintF f mode x

/-- The fused members (R205): the negations come before the one rounding. -/
def fusedOp (k : Nat) (f : Fmt) (mode : RM) (a b c : Nat) : Nat × FFlags :=
  let x := decodeF f a
  let z := decodeF f c
  fmaF f mode (if k ≥ 2 then x.negate else x) (decodeF f b) (if k % 2 = 1 then z.negate else z)

/-- The integer conditions (R206). -/
def cmpIOp (c : ICond) (w a b : Nat) : Bool :=
  match c with
  | .eq => a == b
  | .ne => a != b
  | .lt => decide (sgn w a < sgn w b)
  | .le => decide (sgn w a ≤ sgn w b)
  | .gt => decide (sgn w b < sgn w a)
  | .ge => decide (sgn w b ≤ sgn w a)
  | .ltu => decide (a < b)
  | .leu => decide (a ≤ b)
  | .gtu => decide (b < a)
  | .geu => decide (b ≤ a)

/-- The floating-point conditions and their flags (R206). -/
def cmpFOp (c : FCond) (f : Fmt) (a b : Nat) : Bool × FFlags :=
  let x := decodeF f a
  let y := decodeF f b
  let un := x.isNan || y.isNan
  let quiet := if x.isSnan || y.isSnan then flNV else flNone
  let loud := if un then flNV else flNone
  let o := cmpF x y
  match c with
  | .eq => (!un && o == .eq, quiet)
  | .ne => (un || o != .eq, quiet)
  | .lt => (!un && o == .lt, loud)
  | .le => (!un && o != .gt, loud)
  | .gt => (!un && o == .gt, loud)
  | .ge => (!un && o != .lt, loud)
  | .un => (un, quiet)
  | .ord => (!un, quiet)

/-- VCVT of a kind from type `a` to type `t` (R207); `w` is the draw of the element. -/
def cvtOp (k : Nat) (mode : RM) (a t : Ty) (w x : Nat) : Nat × FFlags :=
  let bt := tyBits t
  let lo : Int := -(2 ^ (bt - 1) : Int)
  let hi : Int := (2 ^ (bt - 1) : Int) - 1
  match tyFmt a, tyFmt t with
  | none, none =>
    let v := sgn (tyBits a) x
    (unsgn bt (if k = 3 ∧ bt < tyBits a then clampI lo hi v else v), flNone)
  | some f, none =>
    let (v, fl) := toIntF (if k = 2 then .rtz else if k = 3 then .rne else mode) lo hi (decodeF f x)
    (unsgn bt v, fl)
  | src, some g =>
    let v := match src with | none => ofIntF (sgn (tyBits a) x) | some f => decodeF f x
    match k with
    | 1 | 5 => stochRound g false w v
    | 2 => roundF g .rtz false v
    | 3 => if bt ≤ tyBits a then roundF g .rne true v else roundF g .rne false v
    | _ => roundF g mode false v

/-- The members of PRED (R224). -/
def predOpE (k a b : Nat) : Nat :=
  match k with
  | 0 => a &&& b
  | 1 => a ||| b
  | 2 => a ^^^ b
  | 3 => a &&& (1 - b)
  | 4 => 1 - a
  | 5 => 1
  | 6 => 0
  | _ => a

/-! ### Reductions -/

/-- Comb of two values (R214). -/
def combV (t : Ty) (mode : RM) (x y : Nat) : Nat × FFlags :=
  match tyFmt t with
  | some f => addF f mode (decodeF f x) (decodeF f y)
  | none => ((x + y) % 2 ^ tyBits t, flNone)

/-- Comb with partials that may be absent (R214). -/
def comb (t : Ty) (mode : RM) (x y : Option Nat) : Option Nat × FFlags :=
  match x, y with
  | none, y => (y, flNone)
  | x, none => (x, flNone)
  | some a, some b =>
    let (v, fl) := combV t mode a b
    (some v, fl)

/-- Canon (R214). -/
def canon (t : Ty) (x : Nat) : Nat × FFlags :=
  match tyFmt t with
  | some f => if (decodeF f x).isNan then (f.cnan, if (decodeF f x).isSnan then flNV else flNone) else (x, flNone)
  | none => (x, flNone)

def isSnanCode (t : Ty) (x : Nat) : Bool := match tyFmt t with | some f => (decodeF f x).isSnan | none => false

/-- The members of VRED by number (R218, R219). -/
def redSum : Nat := 0
def redTree : Nat := 1
def redMax : Nat := 2
def redMin : Nat := 3
def redFfs : Nat := 11
def redPop : Nat := 12

/-- An order-free member joins an element to what it holds (R215): NaNs are set aside, and a fold that has met only NaNs holds
the canonical one. -/
def redJoin (k : Nat) (t : Ty) (acc : Option Nat) (x : Nat) : Nat × FFlags :=
  match tyFmt t with
  | some f =>
    let fl := if (decodeF f x).isSnan then flNV else flNone
    match acc with
    | none => (if (decodeF f x).isNan then f.cnan else x, fl)
    | some a => ((minmaxF f (k = redMax) a x).1, fl)
  | none =>
    let w := tyBits t
    match acc with
    | none => (x, flNone)
    | some a =>
      (match k with
       | 2 => vintOp 12 w a x
       | 3 => vintOp 11 w a x
       | 4 => max a x
       | 5 => min a x
       | 6 => a &&& x
       | 7 => a ||| x
       | _ => a ^^^ x, flNone)

/-- The table Empty results (R213). -/
def emptyResult (k : Nat) (t : Ty) : Nat :=
  let w := tyBits t
  match tyFmt t with
  | some f => if k = redMax then f.signBit true + f.infCode else if k = redMin then f.infCode else 0
  | none =>
    match k with
    | 2 => 2 ^ (w - 1)
    | 3 => 2 ^ (w - 1) - 1
    | 5 | 6 => 2 ^ w - 1
    | _ => 0

/-- The result of a fold as a code: the empty result, Canon of a sum, or the code kept (R213 to R215). -/
def foldResult (k : Nat) (t : Ty) (acc : Option Nat) : Nat :=
  match acc with
  | none => emptyResult k t
  | some a => if k ≤ redTree then (canon t a).1 else a

/-- The placement of a scalar result in 64 bits (R212). -/
def placeResult (k : Nat) (t : Ty) (x : Nat) : Word :=
  match tyFmt t with
  | some _ => BitVec.ofNat 64 x
  | none => if k ≤ redMin then wOfInt (sgn (tyBits t) x) else BitVec.ofNat 64 x

end Sys2Proof.Machine
end

