-- ==== Sys2Proof/Machine/Inflate.lean ====
section
/-!
DEFINITION. The transform unit (spec/05 R86 to R89): the DEFLATE subset of R87, its decode errors (R89), and the CRC-64 of R88.
-/

namespace Sys2Proof.Machine

/-! ### CRC-64 (R88) -/

def crc64Poly : Nat := 0x42F0E1EBA9EA3693

def crc64Steps (n r : Nat) : Nat :=
  match n with
  | 0 => r
  | n + 1 => crc64Steps n (if r / 2 ^ 63 = 1 then (r * 2 % 2 ^ 64) ^^^ crc64Poly else r * 2 % 2 ^ 64)

/-- CRC-64, ECMA-182 polynomial, from 0, no reflection, no final change (R88). -/
def crc64 (bs : List Byte) : Nat := bs.foldl (fun r b => crc64Steps 8 (r ^^^ (b.toNat * 2 ^ 56))) 0

/-! ### DEFLATE (R87): the errors are the details of R89 -/

/-- The bits of bytes, the least significant of each first. -/
def bitsOf (bs : List Byte) : List Bool := bs.flatMap fun b => (List.range 8).map fun i => bitAt b.toNat i

/-- `n` bits as a number, the first the least significant; detail 7 when there are too few. -/
def takeBits (n : Nat) (l : List Bool) : Except Nat (Nat × List Bool) :=
  match n, l with
  | 0, l => .ok (0, l)
  | _ + 1, [] => .error 7
  | n + 1, b :: r => do
    let (v, r') ← takeBits n r
    pure (boolBit b + 2 * v, r')

/-- A Huffman code: how many code words there are of each length from 1, and the symbols in order of their code words. -/
structure Huff where
  counts : List Nat
  syms : List Nat

/-- The code of a list of lengths; an over-subscribed set is detail 8. -/
def mkHuff (lens : List Nat) : Except Nat Huff :=
  let counts : List Nat := (List.range 15).map fun i => (lens.filter (· == i + 1)).length
  let left := counts.foldl (fun (x : Int) (c : Nat) => x * 2 - (c : Int)) 1
  let excess := (counts.foldl (fun (p : Int × Bool) (c : Nat) => (p.1 * 2 - (c : Int), p.2 || decide (p.1 * 2 - (c : Int) < 0))) (1, false)).2
  if excess || decide (left < 0) then .error 8
  else .ok ⟨counts, (List.range 15).flatMap fun i => (lens.zipIdx.filter fun p => p.1 == i + 1).map fun p => p.2⟩

/-- One symbol, bit by bit: detail 7 when the bits end, 2 when no code word matches 15 of them. A stream that ends inside bits which no code
word begins with needs more bytes: detail 7. DESIGN CHOICE, log entry 81. -/
def huffGo (counts syms : List Nat) (code first index : Nat) (l : List Bool) : Except Nat (Nat × List Bool) :=
  match counts, l with
  | [], _ => .error 2
  | _, [] => .error 7
  | c :: cs, b :: r =>
    let code := code + boolBit b
    if code < first + c then .ok (syms.getD (index + (code - first)) 0, r)
    else huffGo cs syms (code * 2) ((first + c) * 2) (index + c) r

def Huff.read (h : Huff) (l : List Bool) : Except Nat (Nat × List Bool) := huffGo h.counts h.syms 0 0 0 l

def lenBase : List Nat :=
  [3, 4, 5, 6, 7, 8, 9, 10, 11, 13, 15, 17, 19, 23, 27, 31, 35, 43, 51, 59, 67, 83, 99, 115, 131, 163, 195, 227, 258]
def lenExtra : List Nat := [0, 0, 0, 0, 0, 0, 0, 0, 1, 1, 1, 1, 2, 2, 2, 2, 3, 3, 3, 3, 4, 4, 4, 4, 5, 5, 5, 5, 0]
def distBase : List Nat :=
  [1, 2, 3, 4, 5, 7, 9, 13, 17, 25, 33, 49, 65, 97, 129, 193, 257, 385, 513, 769, 1025, 1537, 2049, 3073, 4097, 6145, 8193,
   12289, 16385, 24577]
def distExtra : List Nat :=
  [0, 0, 0, 0, 1, 1, 2, 2, 3, 3, 4, 4, 5, 5, 6, 6, 7, 7, 8, 8, 9, 9, 10, 10, 11, 11, 12, 12, 13, 13]
def clOrder : List Nat := [16, 17, 18, 0, 8, 7, 9, 6, 10, 5, 11, 4, 12, 3, 13, 2, 14, 1, 15]

/-- The output with `n` bytes from a distance back; detail 5 when it grows beyond ULEN. -/
def copyBack (ulen dist n : Nat) (out : Array Byte) : Except Nat (Array Byte) :=
  match n with
  | 0 => .ok out
  | n + 1 => if out.size ≥ ulen then .error 5 else copyBack ulen dist n (out.push (out.getD (out.size - dist) 0))

/-- The symbols of one block up to its end. Of two details of one symbol the distance's is reported first, detail 1 before detail 5.
DESIGN CHOICE, log entry 118. -/
def blockGo (ulen : Nat) (lit dist : Huff) (fuel : Nat) (out : Array Byte) (l : List Bool) :
    Except Nat (Array Byte × List Bool) := do
  match fuel with
  | 0 => .error 7
  | fuel + 1 =>
    let (s, l) ← lit.read l
    if s < 256 then
      if out.size ≥ ulen then .error 5 else blockGo ulen lit dist fuel (out.push (BitVec.ofNat 8 s)) l
    else if s = 256 then pure (out, l)
    else if s ≥ 286 then .error 9
    else
      let (x, l) ← takeBits (lenExtra.getD (s - 257) 0) l
      let n := lenBase.getD (s - 257) 0 + x
      let (d, l) ← dist.read l
      if d ≥ 30 then .error 9
      else
        let (y, l) ← takeBits (distExtra.getD d 0) l
        let back := distBase.getD d 0 + y
        if back > out.size then .error 1
        else
          let out ← copyBack ulen back n out
          blockGo ulen lit dist fuel out l

/-- The code lengths of a dynamic header, in reverse order as they come; detail 8 for a repeat with no previous length (R89), and for one
that runs past the end, which the table does not list. DESIGN CHOICE, log entry 88. -/
def lensGo (h : Huff) (want fuel : Nat) (acc : List Nat) (l : List Bool) : Except Nat (List Nat × List Bool) := do
  match fuel with
  | 0 => .error 8
  | fuel + 1 =>
    if acc.length = want then pure (acc.reverse, l)
    else if acc.length > want then .error 8
    else
      let (s, l) ← h.read l
      if s < 16 then lensGo h want fuel (s :: acc) l
      else if s = 16 then
        match acc with
        | [] => .error 8
        | p :: _ =>
          let (x, l) ← takeBits 2 l
          lensGo h want fuel (List.replicate (3 + x) p ++ acc) l
      else if s = 17 then
        let (x, l) ← takeBits 3 l
        lensGo h want fuel (List.replicate (3 + x) 0 ++ acc) l
      else
        let (x, l) ← takeBits 7 l
        lensGo h want fuel (List.replicate (11 + x) 0 ++ acc) l

/-- The two codes of a dynamic header (R87, R89). -/
def dynHeader (l : List Bool) : Except Nat (Huff × Huff × List Bool) := do
  let (hl, l) ← takeBits 5 l
  let (hd, l) ← takeBits 5 l
  let (hc, l) ← takeBits 4 l
  if hl + 257 > 286 ∨ hd + 1 > 30 then .error 8
  else
    let (cl, l) ← (List.range (hc + 4)).foldlM (fun (p : List Nat × List Bool) _ => do
      let (x, r) ← takeBits 3 p.2
      pure (p.1 ++ [x], r)) (([] : List Nat), l)
    let lens := (List.range 19).map fun i =>
      match clOrder.idxOf? i with
      | some k => cl.getD k 0
      | none => 0
    let h ← mkHuff lens
    let (ls, l) ← lensGo h (hl + hd + 258) (hl + hd + 260) [] l
    let lit ← mkHuff (ls.take (hl + 257))
    let dist ← mkHuff (ls.drop (hl + 257))
    pure (lit, dist, l)

def fixedLit : List Nat :=
  List.replicate 144 8 ++ List.replicate 112 9 ++ List.replicate 24 7 ++ List.replicate 8 8

/-- `n` bytes of a stored block; where one byte both lies past CLEN and would exceed ULEN, detail 7 is given. DESIGN CHOICE, log entry 88. -/
def storedGo (ulen n : Nat) (out : Array Byte) (l : List Bool) : Except Nat (Array Byte × List Bool) := do
  match n with
  | 0 => pure (out, l)
  | n + 1 =>
    let (x, l) ← takeBits 8 l
    if out.size ≥ ulen then .error 5 else storedGo ulen n (out.push (BitVec.ofNat 8 x)) l

/-- The blocks of a stream until BFINAL (R87). -/
def blocksGo (ulen fuel : Nat) (out : Array Byte) (l : List Bool) : Except Nat (Array Byte) := do
  match fuel with
  | 0 => .error 7
  | fuel + 1 =>
    let (fin, l) ← takeBits 1 l
    let (ty, l) ← takeBits 2 l
    let (out, l) ← match ty with
      | 0 => do
        let l := l.drop (l.length % 8)
        let (n, l) ← takeBits 16 l
        let (m, l) ← takeBits 16 l
        if n + m ≠ 65535 then .error 4 else storedGo ulen n out l
      | 1 => do
        let lit ← mkHuff fixedLit
        let dist ← mkHuff (List.replicate 32 5)
        blockGo ulen lit dist (l.length + 1) out l
      | 2 => do
        let (lit, dist, l) ← dynHeader l
        blockGo ulen lit dist (l.length + 1) out l
      | _ => .error 3
    if fin = 1 then pure out else blocksGo ulen fuel out l

/-- The chunk that a DEFLATE stream gives, exactly ULEN bytes, or the detail of R89. -/
def inflate (data : List Byte) (ulen : Nat) : Except Nat (List Byte) := do
  let l := bitsOf data
  let out ← blocksGo ulen (l.length + 1) #[] l
  if out.size < ulen then .error 6 else pure out.toList

end Sys2Proof.Machine
end

