-- ==== Sys2Proof/Machine/Eval.lean ====
section
/-!
DEFINITION. The elements that the waypoints of a pass give over a range of the tile (spec/08 R132 to R147, spec/09 R165 to R167,
spec/12, spec/13 R221 to R224): loads, element operations, reads across positions and scans, with the faults and flags they meet.
-/

namespace Sys2Proof.Machine

/-- An element: its code, whether it is padding (R146, R165), whether it is active, and whether it depends on an access that
faulted, in which case nothing follows from it. -/
structure Elem where
  val : Nat
  pad : Bool
  act : Bool
  bad : Bool
  deriving DecidableEq, Repr, Inhabited

def Elem.ok (v : Nat) : Elem := ⟨v, false, true, false⟩
def Elem.padding : Elem := ⟨0, true, false, false⟩
def Elem.lost : Elem := ⟨0, false, true, true⟩
def Elem.off (v : Nat) (bad : Bool) : Elem := ⟨v, false, false, bad⟩

/-- The elements of waypoints over the range, by waypoint. -/
abbrev Res := List (Nat × Array Elem)

/-- A chunk that a VLDZ drew on (R147): its slot, what it decodes to, whether its CRC agrees, and the last element drawn. -/
structure ChunkUse where
  node : Nat
  j : Nat
  slot : Word
  data : List Byte
  good : Bool
  last : Nat
  deriving DecidableEq, Repr, Inhabited

/-- A broadcast element that a row or column broadcast has read in the strip (R142): the node, the element of the broadcast, and what the
read gave, or nothing when it failed. -/
structure Shared where
  node : Nat
  idx : Nat
  raw : Option Nat
  deriving DecidableEq, Repr, Inhabited

/-- What an evaluation gathers: the fault that wins (R167), the flags raised by element and node, the Waymark statistics, the
chunks drawn on, the partial state (R161) and the broadcast elements read. -/
structure Ev where
  best : Option PFault
  fl : List (Nat × Nat × FFlags)
  stats : List NodeStat
  chunks : List ChunkUse
  parts : List Partial
  shared : List Shared
  deriving DecidableEq, Repr, Inhabited

/-- Before a range is evaluated. -/
def Ev.start (parts : List Partial) : Ev := ⟨none, [], [], [], parts, []⟩

abbrev E (α : Type) := StateT Ev M α

/-- A range of the elements of a pass: `n` elements in all, lanes by number (R155). -/
structure Strip where
  t : Strand
  p : Pass
  lo : Nat
  hi : Nat
  n : Nat
  lanes : Array (Nat × Nat)
  deriving Repr, Inhabited

/-! ### Whose accesses they are -/

/-- An access of a pass of a strand through a translation cache, by a core (R18, R68, R69). -/
def passWho (t : Strand) (p : Pass) (core tlb cap : Nat) : Who :=
  { cluster := t.cluster, self := some core, tlb := tlb, tlbCap := cap, asid := bitsAt p.context.toNat 0 16,
    tenant := bitsAt p.context.toNat 16 4, ptb := bitsAt p.ptbase.toNat 24 28 * 2 ^ 24, user := p.user, ctx := t.ctx,
    owner := 2 * t.sid }

/-- The access of an element: its lane's core and lane-group slice (R18, R69, R155). -/
def Strip.who (x : Strip) (e : Nat) : Who :=
  let (c, g) := x.lanes.getD ((e - x.lo) % max 1 x.lanes.size) (x.t.core, 0)
  passWho x.t x.p c (tlbGroup x.t.cluster c g) 64

/-- The reads of descriptors and level tables, through the scalar TLB of the front end (R69, R187). In them the self alias names the home
core, also of a wide strand. DESIGN CHOICE, log entry 74. -/
def deskWho (t : Strand) (p : Pass) : Who := passWho t p t.core (tlbScalar t.cluster t.core) 32

/-- The lanes of a strand by live-lane number (R155). -/
def laneArray (tab : List (Nat × Nat × Nat)) : Array (Nat × Nat) :=
  (tab.flatMap fun x => List.replicate x.2.2 (x.1, x.2.1)).toArray

/-! ### Faults, flags, statistics -/

/-- A fault of an element at a node: the lowest element wins, then the earliest node (R167). Of several faults of one element at one node
(the fields of a segment load among them) the first stands, which is the lowest field's. DESIGN CHOICE, log entry 75. -/
def noteFault (e node cause detail : Nat) (eva blame : Word) : E Unit := modify fun v =>
  let f : PFault := ⟨e, node, cause, detail, eva, blame, flNone⟩
  match v.best with
  | none => { v with best := some f }
  | some b => if b.elem < e ∨ (b.elem = e ∧ b.node ≤ node) then v else { v with best := some f }

/-- Flags of an element at a node, and the trap they call for (R200). -/
def noteFlags (e node : Nat) (blame fpctl : Word) (f : FFlags) : E Unit :=
  if f = flNone then pure ()
  else do
    modify fun v => { v with fl := (e, node, f) :: v.fl }
    if trapping fpctl f then noteFault e node 0x0D f.toNat 0 blame

def updStat (l : List NodeStat) (node : Nat) (g : NodeStat → NodeStat) : List NodeStat :=
  match l with
  | [] => [g ⟨node, 0, 0, 0, false⟩]
  | s :: r => if s.node = node then g s :: r else s :: updStat r node g

/-- Bytes that a node accessed, and an element that was active and not padding (R304). -/
def touch (node : Nat) (va : Word) (n : Nat) : E Unit := modify fun v =>
  { v with stats := updStat v.stats node fun s =>
      let a := va.toNat
      let b := a + n - 1
      if s.touched then { s with first := min s.first a, last := max s.last b }
      else { s with first := a, last := b, touched := true } }

def countActive (node : Nat) : E Unit := modify fun v =>
  { v with stats := updStat v.stats node fun s => { s with active := s.active + 1 } }

/-- An access of an element at a node: a trap of it is the element's fault, a wait stops the strip. -/
def atElem {α : Type} (e node : Nat) (blame : Word) (m : M α) : E (Option α) := do
  match ← (attempt m : M (Except Stop α)) with
  | .ok a => pure (some a)
  | .error .wait => throw Stop.wait
  | .error (.trap c d a) => do
    noteFault e node c d a blame
    pure none

/-! ### Element addresses (R138, R142, R143, R251) -/

/-- The forms of a direct stream: fields, a broadcast of rows or of columns, a stride, a row pitch. -/
inductive Form where
  | unit (c f : Nat)
  | row
  | col
  | stride (s : Int)
  | pitch (p : Int)
  deriving DecidableEq, Repr, Inhabited

/-- The size of `k` elements in the units that addresses of the type count: bytes, or nibbles for e2m1. -/
def unitsOf (t : Ty) (k : Int) : Int := if tyBits t = 4 then k else k * (tyBits t / 8 : Nat)

/-- The byte, and the nibble of it, at an offset counted in those units. -/
def placeAt (t : Ty) (base : Word) (off : Int) : Word × Nat :=
  if tyBits t = 4 then (base + wOfInt (off / 2), (off % 2).toNat) else (base + wOfInt off, 0)

/-- The offset of element `e`, of rows of `vl` columns. -/
def Form.off (f : Form) (t : Ty) (vl e : Nat) : Int :=
  match f with
  | .unit c k => unitsOf t (e * c + k : Nat)
  | .row => unitsOf t (e / vl : Nat)
  | .col => unitsOf t (e % vl : Nat)
  | .stride s => e * s
  | .pitch p => (e / vl : Nat) * p * (if tyBits t = 4 then 2 else 1) + unitsOf t (e % vl : Nat)

/-- Bytes that one element's access covers. -/
def szOf (t : Ty) : Nat := max 1 (tyBits t / 8)

/-- The base, the form and the type in memory of a direct load (R142, R143). -/
def WOp.direct (o : WOp) : Option (Word × Form × Ty) :=
  match o with
  | .vld form f base t =>
    some (base, (if form = 9 then .row else if form = 10 then .col else if form ≤ 1 then .unit 1 0 else .unit form f), t)
  | .vlds base st t => some (base, .stride st.toInt, t)
  | .vldt base p t => some (base, .pitch p.toInt, t)
  | _ => none

/-- The tensor element of a tile (R146, R255). -/
def tilePos (row0 col0 : Int) (vl e : Nat) : Int × Int := (row0 + (e / vl : Nat), col0 + (e % vl : Nat))

def Desc.holds (d : Desc) (q : Int × Int) : Bool :=
  decide (0 ≤ q.1) && decide (q.1 < d.rows) && decide (0 ≤ q.2) && decide (q.2 < d.cols)

/-- The address of a tensor element (R144). -/
def Desc.elemAddr (d : Desc) (row col : Nat) : Word × Nat :=
  let (o, nib) := d.elemOff row col
  (BitVec.ofNat 64 (d.elembase + o), nib)

/-- The descriptor of a tensor id that the pass read (R144). -/
def Pass.desc (p : Pass) (tid : Nat) : Desc := parseDesc (aget [] p.descs tid)

/-! ### Reads -/

/-- A read for a gather (R53, R54): local HBM at the memory-side cache, after the cluster wrote back the line if dirty. -/
def bywayRead (w : Who) (va : Word) (n : Nat) : M Nat := do
  match ← translate w .load va n with
  | .hbm pa ten => do
    modify fun s => s.cleanLines w.cluster fun t => t == pa / 64
    let s ← get
    if s.linePoison (pa / 64) then raise 0x13 0 (va &&& ~~~ 3)
    pure (leNat (s.devRead ten pa n))
  | l => do
    let (bs, p) ← readLoc w va l n
    if p then raise 0x13 0 ((← get).poisonedWord va l n)
    pure (leNat bs)

/-- The code of an element of a type in memory, from its byte or bytes. -/
def pickCode (t : Ty) (raw nib : Nat) : Nat := if tyBits t = 4 then raw / 16 ^ nib % 16 else raw

/-- `n` bytes from an address, line by line, for elements of `size` bytes (R102). -/
def readSpan (w : Who) (size : Nat) (va : Word) (n fuel : Nat) : M (List Byte) := do
  match fuel with
  | 0 => pure []
  | fuel + 1 =>
    if n = 0 then pure []
    else
      let k := min n (64 - va.toNat % 64)
      let l ← translate w .load va size
      let (bs, p) ← readLoc w va l k
      if p then raise 0x13 0 ((← get).poisonedWord va l k)
      let r ← readSpan w size (va + BitVec.ofNat 64 k) (n - k) fuel
      pure (bs ++ r)

/-- Elements of chunk `j` of a tensor, and its uncompressed length (R86). -/
def Desc.chunkCount (d : Desc) (j : Nat) : Nat := min d.ce (d.rows * d.cols - j * d.ce)
def Desc.chunkBytes (d : Desc) (j : Nat) : Nat := (d.chunkCount j * d.bits + 7) / 8
def Desc.slotAddr (d : Desc) (j : Nat) : Word := BitVec.ofNat 64 (d.elembase + j * d.slot)

/-- A chunk read and decoded whole (R86 to R89), whether its CRC agrees, and the bytes of the slot that were read. `size` is the element
size of a VLDZ, and 8 for a job, whose slots lie at multiples of 256 (R102). Detail 10 is found before DATA is read, and the other details
after all of it has been, so that a fault of a read stands before them. DESIGN CHOICE, log entry 118. -/
def readChunk (w : Who) (size : Nat) (d : Desc) (j : Nat) : M (List Byte × Bool × Nat) := do
  let sa := d.slotAddr j
  let h ← readSpan w size sa 16 2
  let clen := leNat (h.take 4)
  let ulen := leNat ((h.drop 4).take 4)
  if clen + 16 > d.slot ∨ ulen ≠ d.chunkBytes j then raise 0x11 10 sa
  let data ← readSpan w size (sa + 16) clen (clen / 64 + 2)
  match inflate data ulen with
  | .error k => raise 0x11 k sa
  | .ok bs => pure (bs, crc64 bs == leNat (h.drop 8), clen + 16)

/-- The chunk that an element draws on, decoded once for the range. The reads of its slot are made for the first element that draws on it:
that element's core is the one that the self alias names. DESIGN CHOICE, log entry 74. -/
def chunkFor (x : Strip) (node e : Nat) (blame : Word) (d : Desc) (j : Nat) : E (Option (List Byte)) := do
  let v ← get
  match v.chunks.find? fun c => c.node = node ∧ c.j = j with
  | some c => do
    modify fun v => { v with chunks := v.chunks.map fun c => if c.node = node ∧ c.j = j then { c with last := e } else c }
    pure (some c.data)
  | none => do
    match ← atElem e node blame (readChunk (x.who e) (max 1 (d.bits / 8)) d j) with
    | none => pure none
    | some (bs, good, n) => do
      touch node (d.slotAddr j) n
      modify fun v => { v with chunks := ⟨node, j, d.slotAddr j, bs, good, e⟩ :: v.chunks }
      pure (some bs)

/-- The value of a Chanter code of tensor element (row, col): its header is read and checked, and it is placed in f32
(R133, R179, R180). When the access or the check of the header and the access of the code would both fault, the header's fault is the one
reported. DESIGN CHOICE, log entry 75. -/
def chanterElem (x : Strip) (w : Waypoint) (node e : Nat) (d : Desc) (tid row col : Nat) (code : E (Option Nat)) : E Elem := do
  let ha := d.hdrAddr row (col / 32)
  touch node ha 4
  match ← atElem e node w.pc (loadAt (x.who e) ha 4) with
  | none => pure .lost
  | some h =>
    match ← atElem e node w.pc (checkHeader (deskWho x.t x.p) d tid h ha) with
    | none => pure .lost
    | some ls =>
      match ← code with
      | none => pure .lost
      | some c => do
        let (v, fl) := roundF fmtF32 .rne false (chanterVal d.bits h c (ls.getD c 0))
        noteFlags e node w.pc w.fpctl fl
        pure (.ok v)

/-- An element of a tensor through its descriptor; `gather` says that Byway reads it (R144, R53). -/
def tensorElem (x : Strip) (w : Waypoint) (node e : Nat) (t : Ty) (tid row col : Nat) (gather : Bool) : E Elem := do
  let d := x.p.desc tid
  let (va, nib) := d.elemAddr row col
  let rd : E (Option Nat) := do
    touch node va (szOf t)
    let r ← atElem e node w.pc ((if gather then bywayRead else loadAt) (x.who e) va (szOf t))
    pure (r.map fun raw => pickCode t raw nib)
  if t = .ch8 ∨ t = .ch4 then chanterElem x w node e d tid row col rd
  else
    match ← rd with
    | none => pure .lost
    | some c => pure (.ok (loadCode t c))

/-- An element of a compressed tensor (R147). -/
def chunkElem (x : Strip) (w : Waypoint) (node e : Nat) (t : Ty) (tid i : Nat) : E Elem := do
  let d := x.p.desc tid
  let j := i / d.ce
  let k := i % d.ce
  let rd : E (Option Nat) := do
    match ← chunkFor x node e w.pc d j with
    | none => pure none
    | some bs =>
      let bytes := if d.bits = 4 then (bs.drop (k / 2)).take 1 else (bs.drop (k * (d.bits / 8))).take (d.bits / 8)
      pure (some (pickCode t (leNat bytes) (k % 2)))
  if t = .ch8 ∨ t = .ch4 then chanterElem x w node e d tid (i / d.cols) (i % d.cols) rd
  else
    match ← rd with
    | none => pure .lost
    | some c => pure (.ok (loadCode t c))

/-! ### Waypoints -/

def Pass.wpTy (p : Pass) (id : Nat) : Ty := match wpOf p.wps id with | some w => w.ty.getD .i32 | none => .i32

/-- The element of a waypoint at a position of the range. -/
def Res.at (r : Res) (id i : Nat) : Elem := (aget #[] r id).getD i .lost

/-- The operands at the element's own position decide what becomes of it (R165). -/
inductive Gate where
  | settled (v : Elem)
  | active (srcs : List Elem)

def gateOf (w : Waypoint) (r : Res) (i : Nat) : Gate :=
  let ss := w.srcs.map fun k => r.at k i
  let mk := w.mask.map fun k => r.at k i
  if ss.any (fun v => v.pad) || (match mk with | some v => v.pad | none => false) then .settled .padding
  else
    match mk with
    | none => .active ss
    | some v =>
      if v.bad then .settled .lost
      else if v.val = 0 then
        .settled (match w.old with
          | none => .off 0 false
          | some o =>
            let u := r.at o i
            .off (if u.pad then 0 else u.val) u.bad)
      else .active ss

/-- The partial state of a node. -/
def partOf (ps : List Partial) (node : Nat) : Partial := (ps.find? fun q => q.node = node).getD ⟨node, [], 0, []⟩

def setPart (ps : List Partial) (q : Partial) : List Partial :=
  match ps with
  | [] => [q]
  | a :: r => if a.node = q.node then q :: r else a :: setPart r q

/-- A scalar operand of the stream's width (R198), or the second stream. -/
def secondOf (t : Ty) (x : Option Word) (ss : List Elem) : Nat :=
  match x with
  | some v => v.toNat % 2 ^ tyBits t
  | none => ((ss.drop 1).headD (.ok 0)).val

/-- A value, or nothing when an operand is lost. -/
def valueOr (ss : List Elem) (k : E Nat) : E Elem := do
  if ss.any fun v => v.bad then pure .lost
  else
    let v ← k
    pure (.ok v)

/-- A result with flags. -/
def flagged (w : Waypoint) (node e : Nat) (r : Nat × FFlags) : E Nat := do
  noteFlags e node w.pc w.fpctl r.2
  pure r.1

/-- The source element at position q for VSLIDE and VPERM (R221): zero outside the window of e or the tile. -/
def acrossElem (x : Strip) (r : Res) (src e : Nat) (q : Int) : Elem :=
  if q < 0 ∨ q.toNat ≥ x.n ∨ q.toNat / 8 ≠ e / 8 ∨ q.toNat < x.lo ∨ x.hi ≤ q.toNat then .ok 0
  else
    let v := r.at src (q.toNat - x.lo)
    if v.bad then .lost else .ok (if v.pad then 0 else v.val)

/-- One step of a scan (R223). -/
def scanElem (x : Strip) (w : Waypoint) (node e : Nat) (v : Nat) : E Nat := do
  let t := w.ty.getD .i32
  let q := partOf (← get).parts w.id
  let row := e / x.p.vl
  let (acc, f1) := comb t (rmOf w.fpctl) (afind q.accs row) (some v)
  let (c, f2) := canon t (acc.getD 0)
  modify fun s => { s with parts := setPart s.parts { q with accs := [(row, acc.getD 0)] } }
  flagged w node e (c, f1 ||| f2)

/-- The element of a broadcast that a tile element takes (R142). -/
def Form.shared (f : Form) (vl e : Nat) : Option Nat :=
  match f with
  | .row => some (e / vl)
  | .col => some (e % vl)
  | _ => none

/-- The bytes of an element of a direct load. A broadcast element is read once for the range, for the first element that needs it, whose
core is the one that the self alias names (R142). DESIGN CHOICE, log entry 74. -/
def directRead (x : Strip) (node e : Nat) (blame : Word) (f : Form) (va : Word) (n : Nat) : E (Option Nat) := do
  touch node va n
  match f.shared x.p.vl e with
  | none => atElem e node blame (loadAt (x.who e) va n)
  | some i =>
    match (← get).shared.find? fun u => u.node == node && u.idx == i with
    | some u => pure u.raw
    | none => do
      let r ← atElem e node blame (loadAt (x.who e) va n)
      modify fun v => { v with shared := ⟨node, i, r⟩ :: v.shared }
      pure r

/-- An active element of a waypoint (R142 to R147, R196, R203 to R210, R219, R222 to R224). -/
def evalElem (x : Strip) (node : Nat) (w : Waypoint) (r : Res) (e : Nat) (ss : List Elem) : E Elem := do
  let t := w.ty.getD .i32
  let a := (ss.headD (.ok 0)).val
  let mode := rmOf w.fpctl
  let key := x.t.sr.strandkey
  match w.op with
  | .vld _ _ _ _ | .vlds _ _ _ | .vldt _ _ _ =>
    match w.op.direct with
    | none => pure .lost
    | some (base, f, mt) => do
      let (va, nib) := placeAt mt base (f.off mt x.p.vl e)
      match ← directRead x node e w.pc f va (szOf mt) with
      | none => pure .lost
      | some raw => pure (.ok (loadCode mt (pickCode mt raw nib)))
  | .vldx tid mt =>
    if ss.any fun v => v.bad then pure .lost
    else do
      let d := x.p.desc tid
      let i := sgn (tyBits (x.p.wpTy (w.srcs.headD 0))) a
      if i < 0 ∨ i ≥ (d.rows * d.cols : Nat) then do
        noteFault e node 0x0F 0 (wOfInt i) w.pc
        pure .lost
      else tensorElem x w node e mt tid (i.toNat / d.cols) (i.toNat % d.cols) true
  | .vldtd row0 col0 tid mt =>
    let q := tilePos row0 col0 x.p.vl e
    tensorElem x w node e mt tid q.1.toNat q.2.toNat false
  | .vldz tid j0 mt =>
    chunkElem x w node e mt tid (j0 * (x.p.desc tid).ce + e)
  | .vint k b => valueOr ss (pure (vintOp k (tyBits t) a (secondOf t b ss)))
  | .vfp k b => valueOr ss (match tyFmt t with
      | none => pure 0
      | some f => flagged w node e (vfpOp k f mode a (secondOf t b ss)))
  | .fma k => valueOr ss (match tyFmt t with
      | none => pure 0
      | some f => flagged w node e (fusedOp k f mode a (secondOf t none ss) ((ss.drop 2).headD (.ok 0)).val))
  | .cmpI c b => valueOr ss (pure (boolBit (cmpIOp c (tyBits (x.p.wpTy (w.srcs.headD 0))) a
      (secondOf (x.p.wpTy (w.srcs.headD 0)) b ss))))
  | .cmpF c b => valueOr ss (
      let u := x.p.wpTy (w.srcs.headD 0)
      match tyFmt u with
      | none => pure 0
      | some f => do
        let (y, fl) := cmpFOp c f a (secondOf u b ss)
        flagged w node e (boolBit y, fl))
  | .cvt k => valueOr ss (flagged w node e
      (cvtOp k mode (x.p.wpTy (w.srcs.headD 0)) t (draw w.rngkey key (w.draw.toNat + e)) a))
  | .mov | .reint => valueOr ss (pure a)
  | .bcast v => pure (.ok (v.toNat % 2 ^ tyBits t))
  | .sel =>
    match ss with
    | [u, v, p] => if p.bad then pure .lost else
        let y := if p.val = 1 then u else v
        pure (if y.bad then .lost else .ok y.val)
    | _ => pure .lost
  | .slide k => pure (acrossElem x r (w.srcs.headD 0) e (e - k))
  | .perm =>
    let iv := (ss.drop 1).headD .lost
    if iv.bad then pure .lost
    else
      let i := sgn (tyBits (x.p.wpTy ((w.srcs.drop 1).headD 0))) iv.val
      pure (if 0 ≤ i ∧ i ≤ 7 then acrossElem x r (w.srcs.headD 0) e (8 * (e / 8 : Nat) + i) else .ok 0)
  | .scan => valueOr ss (scanElem x w node e a)
  | .rand => pure (.ok (draw w.rngkey key (w.draw.toNat + e)))
  | .randf => pure (.ok (roundF fmtF32 .rne false (.num false (draw w.rngkey key (w.draw.toNat + e) / 2 ^ 8) (-24) false)).1)
  | .idx st step => pure (.ok (unsgn 32 (st + e * step)))
  | .pred k => valueOr ss (pure (predOpE k a (secondOf .i8 none ss)))
  | .rowres slot _ => pure (.ok ((aget [] x.t.rows slot).getD (e / x.p.vl) 0))

/-- Whether a tile or a compressed tensor makes the element padding, whatever the mask (R146, R147, R165). -/
def tilePad (x : Strip) (w : Waypoint) (e : Nat) : Bool :=
  match w.op with
  | .vldtd row0 col0 tid _ => !(x.p.desc tid).holds (tilePos row0 col0 x.p.vl e)
  | .vldz tid j0 _ =>
    let d := x.p.desc tid
    decide (j0 * d.ce + e ≥ d.rows * d.cols)
  | _ => false

/-- A scan that meets an element which is lost, or of which it is not known whether it contributes, loses the rest of its row: the row is
kept in `count`. -/
def scanLost (w : Waypoint) (row : Nat) : E Bool := do
  match w.op with
  | .scan => pure ((partOf (← get).parts w.id).count == row + 1)
  | _ => pure false

def scanLose (w : Waypoint) (row : Nat) (v : Elem) : E Unit :=
  match w.op with
  | .scan => if v.bad then modify fun s => { s with parts := setPart s.parts { partOf s.parts w.id with count := row + 1 } } else pure ()
  | _ => pure ()

/-- The elements of a waypoint over the range. -/
def evalWp (x : Strip) (node : Nat) (w : Waypoint) (r : Res) : E (Array Elem) :=
  (List.range (x.hi - x.lo)).foldlM (fun (acc : Array Elem) i => do
    let e := x.lo + i
    let row := e / max 1 x.p.vl
    if tilePad x w e then pure (acc.push .padding)
    else
      match gateOf w r i with
      | .settled v => do
        if v.act then scanLose w row v
        pure (acc.push v)
      | .active ss =>
        if (← scanLost w row) then pure (acc.push .lost)
        else do
          let v ← evalElem x node w r e ss
          scanLose w row v
          if w.id = node then countActive node
          pure (acc.push v)) #[]

/-- The waypoints of the nodes that `want` accepts, in issue order. -/
def evalNodes (x : Strip) (want : Nat → Bool) (ns : List Node) : E Res :=
  ns.foldlM (fun (r : Res) n =>
    match n with
    | .sink _ => pure r
    | .wp w more => (w :: more).foldlM (fun (r : Res) v => do
        if want v.id then
          let es ← evalWp x w.id v r
          pure ((v.id, es) :: r)
        else pure r) r) []

/-- The range past a strip, up to `stop` and on to the end of its permute window, within which VSLIDE and VPERM read (R221). -/
def Strip.ahead (x : Strip) (stop : Nat) : Strip := { x with lo := x.hi, hi := min x.n ((stop + 7) / 8 * 8) }

/-- The pass with no floating-point trap enabled. -/
def Pass.untrapped (p : Pass) : Pass := { p with wps := p.wps.map fun w => { w with fpctl := w.fpctl &&& ~~~ 0x1F0 } }

/-- What the waypoints that some roots reach would give over another range, and the access that would fail there for the lowest element
(R167). No access is made for it (R71), but one that would have to wait is begun. -/
def evalAhead (x : Strip) (roots : List Nat) (parts : List Partial) : M (Res × Option PFault) := do
  let live := reach x.p.wps roots
  let y := { x with p := x.p.untrapped }
  let go : M (Res × Option PFault) := do
    let (r, v) ← (evalNodes y (fun i => live.contains i) y.p.nodes).run (Ev.start parts)
    pure (r, v.best)
  match ← probe go with
  | .ok r => pure r
  | .error _ => go

end Sys2Proof.Machine
end

