-- ==== Sys2Proof/Machine/Quant.lean ====
section
/-!
DEFINITION. The choice that the quantising store makes for one block (spec/15 R258 to R261).
-/

namespace Sys2Proof.Machine

/-- Whether m1 * 2^e1 is at most m2 * 2^e2. -/
def leScaled (m1 : Nat) (e1 : Int) (m2 : Nat) (e2 : Int) : Bool :=
  if e2 ≤ e1 then decide (m1 * pow2 (e1 - e2) ≤ m2) else decide (m1 ≤ m2 * pow2 (e2 - e1))

/-- The magnitude of a finite value. -/
def FVal.mag (x : FVal) : Nat × Int := match x with | .num _ m e _ => (m, e) | _ => (0, 0)

def FVal.isFinite (x : FVal) : Bool := match x with | .num _ _ _ _ => true | _ => false

/-- |x| at most |y|. -/
def leMag (x y : FVal) : Bool := leScaled x.mag.1 x.mag.2 y.mag.1 y.mag.2

/-- The largest magnitude of a list, 0 for none. -/
def maxMag (l : List FVal) : FVal := l.foldl (fun a x => if leMag x a then a else x) (.num false 0 0 false)

/-- The smallest E of 0 to 254 with X at most q * Scale(E); 0 when X is 0 (R258). -/
def fitE (x q : FVal) : Option Nat :=
  if x.mag.1 = 0 then some 0
  else (List.range 255).find? fun (e : Nat) => leScaled x.mag.1 x.mag.2 q.mag.1 (q.mag.2 + e - 127)

/-- A magnitude rounded to an integer, to the nearest even or by the draw (R259). -/
def roundInt (sr : Bool) (w : Nat) (x : FVal) : Nat :=
  let (m, e) := x.mag
  let (n, cls) := splitAt m e false 0
  if sr then (if w < m * pow2 (e + 32) / pow2 (-(e + 32)) % 2 ^ 32 then n + 1 else n)
  else if roundsUp .rne false n cls then n + 1 else n

/-- x - y, exactly, as an integer times a power of two. -/
def subTerms (x y : FVal) : Int × Int := sumTerms [x.term, y.negate.term]

/-- The lowest code whose level `p` picks. -/
def codeWith (ls : List FVal) (p : FVal → Bool) : Nat := ls.findIdx p

def largestOf (ls : List FVal) : FVal :=
  match ls with
  | [] => .num false 0 0 false
  | l :: r => r.foldl (fun a x => if cmpF a x == .lt then x else a) l

def smallestOf (ls : List FVal) : FVal :=
  match ls with
  | [] => .num false 0 0 false
  | l :: r => r.foldl (fun a x => if cmpF x a == .lt then x else a) l

/-- The code of the nearest level, the lower on a tie. -/
def nearestCode (ls : List FVal) (y : FVal) : Nat :=
  (ls.zipIdx.foldl (fun (b : Nat × (Nat × Int)) p =>
    let d := subTerms y p.1
    if leScaled b.2.1 b.2.2 d.1.natAbs d.2 && p.2 != 0 then b else (p.2, (d.1.natAbs, d.2))) (0, (0, 0))).1

/-- The code of a level for y (R259). -/
def levelCode (ls : List FVal) (sr : Bool) (w : Nat) (y : FVal) : Nat :=
  let eq (v : FVal) := fun l => cmpF l v == .eq
  if ls.any (eq y) then codeWith ls (eq y)
  else if cmpF y (smallestOf ls) == .lt then codeWith ls (eq (smallestOf ls))
  else if cmpF (largestOf ls) y == .lt then codeWith ls (eq (largestOf ls))
  else if sr then
    let lo := largestOf (ls.filter fun l => cmpF l y == .lt)
    let hi := smallestOf (ls.filter fun l => cmpF y l == .lt)
    let (s1, e1) := subTerms y lo
    let (s2, e2) := subTerms hi lo
    let t := s1.natAbs * pow2 (e1 + 32 - e2) / (s2.natAbs * pow2 (-(e1 + 32 - e2)))
    codeWith ls (eq (if w < t then hi else lo))
  else nearestCode ls y

/-- A candidate (R258): selector, exponent, PARAM, and its table's levels for LT. -/
structure Cand where
  sel : Nat
  e : Nat
  param : Nat
  levels : List Nat

/-- The header bits of a candidate, without the CRC (R178). -/
def Cand.header (c : Cand) : Nat := c.sel * 2 ^ 30 + c.e * 2 ^ 22 + c.param * 2 ^ 8

/-- The code of an element that is neither NaN nor inactive (R258 to R260); `w` is the width of a code. -/
def Cand.code (c : Cand) (w : Nat) (sr : Bool) (word : Nat) (x : FVal) : Nat :=
  let top := 2 ^ (w - 1)
  let mm := 2 ^ (w - 2) - 1
  let sg (n : Bool) := if n then 2 ^ (w - 2) else 0
  let sc (e : Nat) := x.scale (127 - (e : Int))
  let ls := c.levels.map (decodeF fmtBf16)
  match c.sel, x with
  | 0, .inf n => if n then top else top - 1
  | 1, .inf n => sg n + mm
  | 2, .inf n => (if n then top else 0) + (if w = 4 then 7 else 0x7E)
  | _, .inf n => codeWith ls fun l => cmpF l (if n then smallestOf ls else largestOf ls) == .eq
  | 0, _ =>
    let q := roundInt sr word (sc c.e)
    if x.neg then unsgn w (-(q : Int)) else q
  | 1, _ =>
    let eb : Nat := c.param / 2 ^ 6
    if leScaled x.mag.1 x.mag.2 mm ((eb : Int) - 127) then top + sg x.neg + roundInt sr word (sc eb)
    else sg x.neg + roundInt sr word (sc c.e)
  | 2, _ =>
    let f := if w = 4 then fmtE2m1 else fmtE4m3
    if sr then (stochRound f false word (sc c.e)).1 else (roundF f .rne false (sc c.e)).1
  | _, _ => levelCode ls sr word (sc c.e)

/-- The value of a code under a candidate (R179). -/
def Cand.value (c : Cand) (w code : Nat) : FVal := chanterVal w c.header code (c.levels.getD code 0)

/-- The candidates of a block (R258). `tabs` are the candidate tables with their pool indices. -/
def candidates (w selmask : Nat) (tabs : List (Nat × List Nat)) (x : FVal) : List Cand :=
  let int (q : Nat) : FVal := .num false q 0 false
  let one (sel q : Nat) : List Cand :=
    if bitAt selmask sel then
      match fitE x (int q) with
      | none => []
      | some e => [⟨sel, e, if sel = 1 then (e - (if w = 4 then 2 else 6)) * 2 ^ 6 else 0, []⟩]
    else []
  let lmax (ls : List Nat) := maxMag (ls.map (decodeF fmtBf16))
  let lts := if bitAt selmask 3 then tabs.filterMap fun t => (fitE x (lmax t.2)).map fun e => (⟨3, e, t.1, t.2⟩ : Cand) else []
  let all := one 0 (2 ^ (w - 1) - 1) ++ one 1 (2 ^ (w - 2) - 1) ++ one 2 (if w = 4 then 6 else 448) ++ lts
  match all, tabs with
  | [], t :: ts =>
    let best := ts.foldl (fun b t => if leMag (lmax t.2) (lmax b.2) then b else t) t
    [⟨3, 254, best.1, best.2⟩]
  | l, _ => l

/-- The f64 sum under RNE (R261). -/
def addF64 (a b : Nat) : Nat := (addF fmtF64 .rne (decodeF fmtF64 a) (decodeF fmtF64 b)).1

/-- (x - v)^2 rounded once to f64 (R261). -/
def sqErr (x v : FVal) : Nat :=
  let (s, e) := subTerms x v
  (roundF fmtF64 .rne false (.num false (s.natAbs * s.natAbs) (2 * e) false)).1

/-- The 32 codes, the header with its CRC and the error of the candidate chosen for a block (R258 to R261). -/
def quantBlock (w : Nat) (f : Fmt) (sr : Bool) (selmask : Nat) (tabs : List (Nat × List Nat)) (els : List BlockElem) :
    List Nat × Nat × Nat :=
  let act := els.filter fun b => b.active
  let stat := act.filter fun b => (decodeF f b.code).isFinite
  let x := maxMag (stat.map fun b => decodeF f b.code)
  let err (c : Cand) := stat.foldl (fun a b =>
    let v := decodeF f b.code
    addF64 a (sqErr v (c.value w (c.code w sr b.word v)))) 0
  match (candidates w selmask tabs x).map fun c => (err c, c) with
  | [] => (List.replicate 32 0, 0, 0)
  | p :: ps =>
    let (e, c) := ps.foldl (fun b q => if q.1 < b.1 then q else b) p
    let code (i : Nat) :=
      match act.find? fun b => b.pos = i with
      | none => 0
      | some b =>
        let v := decodeF f b.code
        if v.isNan then 0 else c.code w sr b.word v
    ((List.range 32).map code, mkHeader c.sel c.e c.param, e)

/-- The bytes of a block's codes (R177). -/
def packCodes (w : Nat) (cs : List Nat) : List Byte :=
  if w = 8 then cs.map (BitVec.ofNat 8)
  else (List.range 16).map fun i => BitVec.ofNat 8 (cs.getD (2 * i) 0 + 16 * cs.getD (2 * i + 1) 0)

end Sys2Proof.Machine
end

