-- ==== Sys2Proof/Machine/Sinks.lean ====
section
/-!
DEFINITION. What the sinks of a pass do with a range of elements (spec/13 R211 to R219, spec/15): the writes that a commit will
make, with their translations, and the folds.
-/

namespace Sys2Proof.Machine

/-- A write that waits for the commit of its strip: bytes, one nibble (R249), or an atomic add (R254). -/
inductive Wr where
  | bytes (w : Who) (l : Loc) (bs : List Byte)
  | nib (w : Who) (l : Loc) (k v : Nat)
  | add (w : Who) (l : Loc) (t : Ty) (v : Nat)
  deriving DecidableEq, Repr, Inhabited

/-- The write of an element of a type (R247, R249). -/
def elemWr (w : Who) (l : Loc) (t : Ty) (nib v : Nat) : Wr :=
  if tyBits t = 4 then .nib w l nib v else .bytes w l (leBytes (szOf t) v)

/-! ### Performing writes (R161, R249, R250, R254) -/

/-- What stands at a location, read at the point that serves it. -/
def peekLoc (w : Who) (l : Loc) (n : Nat) : M (List Byte) := do
  match l with
  | .hbm pa ten => do
    let (s1, bs, _) := (← get).cluRead w.cluster ten pa n
    set s1
    pure bs
  | .win key => pure ((← get).winRead key n)
  | .host pa => do
    let s ← get
    pure ((List.range n).map fun i => s.hostByte (pa + i))
  | .peer d pa => do
    let s ← get
    pure ((List.range n).map fun i => s.peerByte d (pa + i))

/-- The sum that VSTXADD leaves (R254). -/
def addOf (t : Ty) (m x : Nat) : Nat :=
  match tyFmt t with
  | some f => (addF f .rne (decodeF f m) (decodeF f x)).1
  | none => (m + x) % 2 ^ tyBits t

/-- One write: an add to local HBM is made at the memory-side cache, after the cluster's copy of the line has been written back and
dropped (R55); an add elsewhere at its destination. -/
def Wr.perform (x : Wr) : M Unit := do
  match x with
  | .bytes w l bs => writeLoc w l bs
  | .nib w l k v =>
    match l with
    | .hbm pa ten => modify fun s => s.cluWriteNibble w.cluster ten pa k v
    | l => do
      let b := (← peekLoc w l 1).headD 0
      writeLoc w l [mergeNibbles (k + 1) (BitVec.ofNat 8 (v % 16 * 16 ^ k)) b]
  | .add w l t v =>
    let n := szOf t
    match l with
    | .hbm pa ten =>
      modify fun s =>
        let s1 := s.flushLine w.cluster (pa / 64)
        s1.devWrite ten pa (leBytes n (addOf t (leNat (s1.devRead ten pa n)) v))
    | .win key => modify fun s => s.winWrite key (leBytes n (addOf t (leNat (s.winRead key n)) v))
    | l => do
      let m ← peekLoc w l n
      writeLoc w l (leBytes n (addOf t (leNat m) v))

/-- Where a location lies, as a space (local HBM, host memory, a window, a peer) and an address in it. -/
def Loc.place (l : Loc) : Nat × Nat :=
  match l with
  | .hbm pa _ => (0, pa)
  | .host pa => (1, pa)
  | .win key => (2, key)
  | .peer d pa => (3 + d, pa)

/-- The nibbles that a write sets without reading them: space, first, count. -/
def Wr.covers (x : Wr) : Option (Nat × Nat × Nat) :=
  match x with
  | .bytes _ l bs => some (l.place.1, 2 * l.place.2, 2 * bs.length)
  | .nib _ l k _ => some (l.place.1, 2 * l.place.2 + k, 1)
  | .add _ _ _ _ => none

/-- What the sinks of a pass have covered of poisoned granules, after a strip in which each wrote as `wrote` says (R250). -/
def State.coverAll (s : State) (c : Nat) (wrote : List (Nat × List Wr)) (old : List Cover) : State × List Cover :=
  wrote.foldl (fun (a : State × List Cover) q => a.1.cover c q.1 (q.2.filterMap Wr.covers) a.2) (s, old)

/-- A floating-point add, whose order among its like is not specified (R254). -/
def Wr.unordered (x : Wr) : Bool := match x with | .add _ _ t _ => (tyFmt t).isSome | _ => false

def Wr.loc (x : Wr) : Loc := match x with | .bytes _ l _ => l | .nib _ l _ _ => l | .add _ l _ _ => l
def Wr.size (x : Wr) : Nat := match x with | .bytes _ _ bs => bs.length | .nib _ _ _ _ => 1 | .add _ _ t _ => szOf t

/-- A write touches a granule of 8 bytes. -/
def Wr.touches (x : Wr) (g : Nat × Nat) : Bool :=
  x.loc.place.1 == g.1 && decide (x.loc.place.2 / 8 ≤ g.2) && decide (g.2 * 8 < x.loc.place.2 + x.size)

/-- The granule of a floating-point add, and how many other writes of the strip come before it there. -/
def addClass (ws : List Wr) (i : Nat) (x : Wr) : (Nat × Nat) × Nat :=
  let g := (x.loc.place.1, x.loc.place.2 / 8)
  (g, ((ws.take i).filter fun y => !y.unordered && y.touches g).length)

/-- Floating-point adds change places with each other in an order that is open (R254), but with no other write of the bytes that they
add to (R163, R248). -/
def permuteAdds (k : Nat) (ws : List Wr) : List Wr :=
  let adds := (ws.zipIdx.filter fun p => p.1.unordered).map fun p => (addClass ws p.2 p.1, p)
  ws.zipIdx.map fun p =>
    if !p.1.unordered then p.1
    else
      let mine := adds.filter fun a => a.1 == addClass ws p.2 p.1
      let turn := (mine.filter fun a => decide (a.2.2 < p.2)).length
      (((mine.mergeSort fun a b => decide (Config.addRank k a.2.2 ≤ Config.addRank k b.2.2))[turn]?).map fun a => a.2.1).getD p.1

/-- The writes of a strip: by element and then in queue order (R163); `cols` holds one array for each sink. -/
def performAll (n : Nat) (cols : List (Array (List Wr))) : M (List Wr) := do
  let ws := (List.range n).flatMap fun i => cols.flatMap fun c => c.getD i []
  let ws1 ← (if ws.any Wr.unordered then do
      let k ← takeFree
      pure (permuteAdds k ws)
    else pure ws)
  ws1.forM Wr.perform
  pure ws

/-! ### Which elements a sink takes (R165, R211, R248) -/

/-- Whether a sink takes the element at a position: none of its streams is padding there and its mask is set. -/
def sinkTakes (k : Sink) (r : Res) (i : Nat) : Bool :=
  !((k.data ++ k.idx.toList).any fun d => (r.at d i).pad) &&
  (match k.mask with
   | none => true
   | some m => !(r.at m i).pad && (r.at m i).val == 1)

/-- Whether it depends there on something lost. -/
def sinkLost (k : Sink) (r : Res) (i : Nat) : Bool := k.operands.any fun d => (r.at d i).bad

/-- VL after any trim (R154). -/
def Strip.vl (x : Strip) : Nat := if x.p.vrows = 1 then x.n else x.p.vl

/-! ### Stores -/

/-- The base, form and field offset of a direct store (R251). -/
def SOp.direct (o : SOp) (f : Nat) : Option (Word × Form) :=
  match o with
  | .vst c base => some (base, .unit c f)
  | .vsts base st => some (base, .stride st.toInt)
  | .vstt base p => some (base, .pitch p.toInt)
  | _ => none

/-- The translation of a store of `n` bytes, made of elements of `size` bytes (R102), noted as a fault of the element when it fails (R67,
R70). -/
def targetOf (x : Strip) (k : Sink) (e : Nat) (va : Word) (n size : Nat) : E (Option Loc) := do
  touch k.id va n
  atElem e k.id k.pc (translate (x.who e) .store va size)

/-- The translation of the store of one element. -/
def target (x : Strip) (k : Sink) (e : Nat) (va : Word) (n : Nat) : E (Option Loc) := targetOf x k e va n n

/-- The translation of an atomic add, which consumes what stands there (R254, R49, R98, R322). -/
def addTarget (w : Who) (va : Word) (n : Nat) : M Loc := do
  let l ← translate w .atomic va n
  let s ← get
  match l with
  | .hbm pa _ =>
    if ((s.cache w.cluster).any fun y => y.tag == pa / 64 && y.poison) || s.linePoison (pa / 64) then raise 0x13 0 (va &&& ~~~ 3)
    else pure l
  | .win key => if s.winPoisoned key n then raise 0x13 0 (s.poisonedWord va l n) else pure l
  | .host _ => pure l
  | .peer d _ => do if (← peerFails d) then raise 0x13 0 va else pure l

/-- The tail of a row under the agnostic policy, in nibbles from `start` (R165, R252, R255): `used` nibbles come before it. -/
def tailSpan (start used : Int) (pitch : Int) : Option (Int × Int) :=
  let p := start + used
  let e := min (start + 2 * pitch) ((p + 127) / 128 * 128)
  if p < e then some (p, e) else none

/-- The tail of tile row `row` of a VSTT or VSTTD. -/
def tailOf (x : Strip) (k : Sink) (row : Nat) : Option (Int × Int) :=
  let bits := tyBits (k.ty.getD .i8)
  let vl := x.vl
  if !bitAt k.vpol.toNat 1 ∨ vl = 0 then none
  else
    match k.op with
    | .vstt base pitch =>
      if pitch.toInt < ((vl * bits + 7) / 8 : Nat) then none
      else tailSpan (2 * ((base + wOfInt (row * pitch.toInt)).toNat : Int)) (vl * bits / 4 : Nat) pitch.toInt
    | .vsttd row0 col0 tid =>
      let d := x.p.desc tid
      let tr := row0 + row
      if tr < 0 ∨ tr ≥ d.rows ∨ col0 ≥ d.cols ∨ col0 + vl ≤ 0 then none
      else tailSpan (2 * (d.elembase + tr * d.pitch)) (min (col0 + vl) d.cols * bits / 4) d.pitch
    | _ => none

/-- The zeros of a tail, which are elements of the store's type (R102, R252). -/
def tailWrites (x : Strip) (k : Sink) (e : Nat) (sp : Int × Int) : E (List Wr) := do
  let (p, q) := sp
  let w := x.who e
  let size := szOf (k.ty.getD .i8)
  let odd := p % 2 = 1
  let n := (q / 2 - (p + 1) / 2).toNat
  let half ← (if odd then do
      match ← targetOf x k e (wOfInt (p / 2)) 1 size with
      | none => pure []
      | some l => pure [Wr.nib w l 1 0]
    else pure [])
  if n = 0 then pure half
  else
    match ← targetOf x k e (wOfInt ((p + 1) / 2)) n size with
    | none => pure half
    | some l => pure (half ++ [.bytes w l (List.replicate n 0)])

/-- The tail that follows element `e`, when `e` ends its row. Its accesses are that element's, also when it is not stored itself: a fault of
the tail stands there. DESIGN CHOICE, log entry 96. -/
def tailAfter (x : Strip) (k : Sink) (e : Nat) : E (List Wr) :=
  if (e + 1) % max 1 x.vl = 0 then
    match tailOf x k (e / max 1 x.vl) with
    | none => pure []
    | some sp => tailWrites x k e sp
  else pure []

/-- The writes of one stored element (R251, R253 to R256). -/
def storeElem (x : Strip) (k : Sink) (r : Res) (e i : Nat) : E (List Wr) := do
  let t := k.ty.getD .i8
  let sz := szOf t
  let w := x.who e
  let v := (r.at (k.data.headD 0) i).val
  let at1 (va : Word) (nib v : Nat) : E (List Wr) := do
    match ← target x k e va sz with
    | none => pure []
    | some l => pure [elemWr w l t nib v]
  let indexed (tid : Nat) (f : Word → E (List Wr)) : E (List Wr) := do
    let d := x.p.desc tid
    let ix := k.idx.getD 0
    let j := sgn (tyBits (x.p.wpTy ix)) (r.at ix i).val
    if j < 0 ∨ j ≥ (d.rows * d.cols : Nat) then do
      noteFault e k.id 0x0F 0 (wOfInt j) k.pc
      pure []
    else f (d.elemAddr (j.toNat / d.cols) (j.toNat % d.cols)).1
  match k.op with
  | .vst _ _ | .vsts _ _ | .vstt _ _ =>
    (k.data.zipIdx).foldlM (fun (acc : List Wr) q =>
      match k.op.direct q.2 with
      | none => pure acc
      | some (base, f) => do
        let (va, nib) := placeAt t base (f.off t x.p.vl e)
        let ws ← at1 va nib (r.at q.1 i).val
        pure (acc ++ ws)) []
  | .vstx tid => do
    let d := x.p.desc tid
    let ix := k.idx.getD 0
    let j := sgn (tyBits (x.p.wpTy ix)) (r.at ix i).val
    indexed tid fun va => at1 va (d.elemAddr (j.toNat / d.cols) (j.toNat % d.cols)).2 v
  | .vstxadd tid => indexed tid fun va => do
      touch k.id va sz
      match ← atElem e k.id k.pc (addTarget w va sz) with
      | none => pure []
      | some l => pure [.add w l t v]
  | .vsttd row0 col0 tid =>
    let d := x.p.desc tid
    let q := tilePos row0 col0 x.p.vl e
    let (va, nib) := d.elemAddr q.1.toNat q.2.toNat
    at1 va nib v
  | .vstcmp base _ => do
    let pt := partOf (← get).parts k.id
    let (va, nib) := placeAt t base (unitsOf t pt.count)
    modify fun s => { s with parts := setPart s.parts { pt with count := pt.count + 1 } }
    at1 va nib v
  | _ => pure []

/-- Whether a tile store leaves the element out because it lies outside its tensor (R255). -/
def sinkPad (x : Strip) (k : Sink) (e : Nat) : Bool :=
  match k.op with
  | .vsttd row0 col0 tid => !(x.p.desc tid).holds (tilePos row0 col0 x.p.vl e)
  | _ => false

/-! ### The quantising store (R257 to R261) -/

/-- The candidate tables of a descriptor (R258), with their levels. A pass reads and checks them at force, and reads them again, without the
check, for each block. DESIGN CHOICE, log entry 107. -/
def candTables (w : Who) (d : Desc) (tid : Nat) : M (List (Nat × List Nat)) :=
  if bitAt d.selmask 3 then (d.cts.take d.ctn).mapM fun k => do
    let ls ← readTable w d tid k
    pure (k, ls)
  else pure []

/-- The bytes of a block, and the address of its codes (R177). -/
def Desc.blockAddr (d : Desc) (row b : Nat) : Word := BitVec.ofNat 64 (d.elembase + row * d.pitch + b * (d.bits * 4))

/-- A block whose last tile element is `e` is chosen and written with its header, its codes as elements of their own size (R102); its error
joins the others (R257, R261). Its accesses, of the candidate tables, of the codes and of the header, in that order, are made for that element:
a fault stands there, and its core is the one that the self alias names. DESIGN CHOICE, log entries 74 and 106. -/
def writeBlock (x : Strip) (k : Sink) (e tid row b : Nat) (els : List BlockElem) : E (List Wr) := do
  let d := x.p.desc tid
  match ← atElem e k.id k.pc (candTables (deskWho x.t x.p) d tid) with
  | none => pure []
  | some tabs =>
    let f := (tyFmt (x.p.wpTy (k.data.headD 0))).getD fmtF32
    let (codes, h, err) := quantBlock d.bits f (bitAt k.vpol.toNat 2) d.selmask tabs els
    let bs := packCodes d.bits codes
    let w := x.who e
    let l1 ← targetOf x k e (d.blockAddr row b) bs.length (max 1 (d.bits / 8))
    let l2 ← target x k e (d.hdrAddr row b) 4
    modify fun s =>
      let pt := partOf s.parts k.id
      { s with parts := setPart s.parts { pt with accs := pt.accs ++ [(pt.accs.length, err)] } }
    match l1, l2 with
    | some a, some c => pure [.bytes w a bs, .bytes w c (leBytes 4 h)]
    | _, _ => pure []

/-- One tile element of a VSTC: it joins its block, and a NaN raises NV (R260). -/
def quantElem (x : Strip) (k : Sink) (r : Res) (row0 col0 : Int) (tid e i : Nat) : E (List Wr) := do
  let d := x.p.desc tid
  let q := tilePos row0 col0 x.p.vl e
  let b := q.2.toNat / 32
  if q.1 < 0 ∨ q.1 ≥ d.rows ∨ 32 * b ≥ d.cols then pure []
  else do
    let row := q.1.toNat
    let v := r.at (k.data.headD 0) i
    let act := sinkTakes k r i && decide (q.2 < d.cols) && !sinkLost k r i
    let f := (tyFmt (x.p.wpTy (k.data.headD 0))).getD fmtF32
    if act then countActive k.id
    if act && (decodeF f v.val).isNan then noteFlags e k.id k.pc k.fpctl flNV
    let word := if bitAt k.vpol.toNat 2 then draw k.rngkey x.t.sr.strandkey (k.draw.toNat + e) else 0
    let pt := partOf (← get).parts k.id
    let old := ((pt.blocks.find? fun z => z.1 = (row, b)).map fun z => z.2).getD []
    let els := old ++ [⟨q.2.toNat % 32, v.val, act, word⟩]
    let rest := pt.blocks.filter fun z => z.1 ≠ (row, b)
    let last := min (32 * (b : Int) + 31) (col0 + x.vl - 1)
    if q.2 = last then do
      modify fun s => { s with parts := setPart s.parts { pt with blocks := rest } }
      writeBlock x k e tid row b els
    else do
      modify fun s => { s with parts := setPart s.parts { pt with blocks := rest ++ [((row, b), els)] } }
      pure []

/-- The writes of a store over the range, one list for each element (R248). -/
def evalStore (x : Strip) (k : Sink) (r : Res) : E (Array (List Wr)) :=
  (List.range (x.hi - x.lo)).foldlM (fun (acc : Array (List Wr)) i => do
    let e := x.lo + i
    match k.op with
    | .vstc row0 col0 tid => do
      let ws ← quantElem x k r row0 col0 tid e i
      pure (acc.push ws)
    | _ => do
      let ws ← (if sinkTakes k r i && !sinkPad x k e && !sinkLost k r i then do
          countActive k.id
          storeElem x k r e i
        else pure [])
      let ts ← tailAfter x k e
      pure (acc.push (ws ++ ts))) #[]

/-- The blocks of a VSTC that still wait for elements which a trim has taken away (R257): element `e` was their last. The columns that the
pass does not run are written as code 0. DESIGN CHOICE, log entry 98. -/
def lateBlocks (x : Strip) (k : Sink) (e : Nat) : E (List Wr) := do
  match k.op with
  | .vstc _ _ tid => do
    let pt := partOf (← get).parts k.id
    modify fun s => { s with parts := setPart s.parts { pt with blocks := [] } }
    pt.blocks.foldlM (fun (acc : List Wr) b => do
      let ws ← writeBlock x k e tid b.1.1 b.1.2 b.2
      pure (acc ++ ws)) []
  | _ => pure []

/-- What a pass trimmed to elements that earlier strips committed still writes: the tail of its one row (R252) and the blocks that it
holds (R257). -/
def lateWrites (x : Strip) (k : Sink) : E (List Wr) := do
  if x.p.late then do
    let ts ← (match tailOf x k 0 with
      | none => pure []
      | some sp => tailWrites x k (x.lo - 1) sp)
    let bs ← lateBlocks x k (x.lo - 1)
    pure (ts ++ bs)
  else pure []

/-! ### Folds (R211 to R219) -/

/-- Whether a sink is known to leave an element out: one of its streams is padding there, or its mask is not set. -/
def sinkSkips (k : Sink) (r : Res) (i : Nat) : Bool :=
  (k.data ++ k.idx.toList).any (fun d => (r.at d i).pad) ||
  match k.mask with
  | none => false
  | some m => (r.at m i).pad || (!(r.at m i).bad && (r.at m i).val != 1)

/-- The contributing elements of the range, with their codes; an element that depends on something lost has none (R211). -/
def contributors (x : Strip) (k : Sink) (r : Res) : List (Nat × Option Nat) :=
  (List.range (x.hi - x.lo)).filterMap fun i =>
    if sinkSkips k r i then none
    else some (x.lo + i, if sinkLost k r i then none else some (r.at (k.data.headD 0) i).val)

/-- Those whose codes are there. -/
def known (cs : List (Nat × Option Nat)) : List (Nat × Nat) := cs.filterMap fun c => c.2.map fun v => (c.1, v)

/-- Those of a sum that are added before one that is lost: past it, what the sum gives is not there. -/
def summed (cs : List (Nat × Option Nat)) : List (Nat × Nat) := known (cs.takeWhile fun c => c.2.isSome)

/-- Whether it is open if a sink takes an element, because its mask depends there on something lost. -/
def sinkOpen (k : Sink) (r : Res) (i : Nat) : Bool := k.mask.any fun m => (r.at m i).bad

/-- Whether an element from the end of the range up to `stop` contributes; no answer when none is known to and of one it is open, because an
access for its mask fails. That access is no fault of this strip (R72). DEDUCED, log entry 51. -/
def contributesLater (x : Strip) (k : Sink) (stop : Nat) : E (Option Bool) := do
  if stop ≤ x.hi then pure (some false)
  else do
    let y := x.ahead stop
    let (r, _) ← (evalAhead y k.operands (← get).parts : M (Res × Option PFault))
    let cs := (contributors y k r).filter fun c => decide (c.1 < stop)
    pure (if cs.any fun c => !sinkOpen k r (c.1 - y.lo) then some true else if cs.isEmpty then some false else none)

/-- A signalling NaN that is seen to be the only contributing element of a sum raises NV in its strip (R214); one that is lost contributes
all the same. The answer is what the sum then holds: once the NV is raised, the canonical NaN. An NV that shows itself only later is raised at
completion. -/
def loneNan (x : Strip) (k : Sink) (t : Ty) (before : Option Nat) (cs : List (Nat × Option Nat)) (stop : Nat) (sum : Option Nat) :
    E (Option Nat) := do
  match before, cs with
  | none, [(e, some v)] =>
    if isSnanCode t v then do
      if (← contributesLater x k stop) == some false then do
        noteFlags e k.id k.pc k.fpctl flNV
        pure (some (canon t v).1)
      else pure sum
    else pure sum
  | _, _ => pure sum

/-- An ordered sum (R214). -/
def foldSum (k : Sink) (t : Ty) (acc : Option Nat) (els : List (Nat × Nat)) : E (Option Nat) :=
  els.foldlM (fun (a : Option Nat) q => do
    let (v, fl) := comb t (rmOf k.fpctl) a (some q.2)
    noteFlags q.1 k.id k.pc k.fpctl fl
    pure v) acc

/-- The pairings of the tree (R216). -/
def pairings (t : Ty) (mode : RM) (fuel d : Nat) (q : Array (Option Nat)) (fl : FFlags) : Option Nat × FFlags :=
  match fuel with
  | 0 => (q.getD 0 none, fl)
  | fuel + 1 =>
    if d < q.size then
      let (q1, f1) := (List.range q.size).foldl (fun (a : Array (Option Nat) × FFlags) l =>
        if l % (2 * d) = 0 ∧ l + d < q.size then
          let (v, f) := comb t mode (a.1.getD l none) (a.1.getD (l + d) none)
          (a.1.set! l v, a.2 ||| f)
        else a) (q, fl)
      pairings t mode fuel (2 * d) q1 f1
    else (q.getD 0 none, fl)

/-- A tree sum of one strip (R216); with a contributor lost there are no pairings. -/
def foldTree (x : Strip) (k : Sink) (t : Ty) (acc : Option Nat) (cs : List (Nat × Option Nat)) : E (Option Nat) := do
  let mode := rmOf k.fpctl
  let lanes := max 1 x.lanes.size
  let els := known (cs.filter fun c => !cs.any fun d => d.2.isNone && decide (d.1 < c.1) && (d.1 - x.lo) % lanes == (c.1 - x.lo) % lanes)
  match els.getLast? with
  | none => pure acc
  | some h => do
    let q ← els.foldlM (fun (a : Array (Option Nat)) p => do
      let l := (p.1 - x.lo) % lanes
      let (v, fl) := comb t mode (a.getD l none) (some p.2)
      noteFlags p.1 k.id k.pc k.fpctl fl
      pure (a.set! l v)) (Array.replicate lanes none)
    if els.length < cs.length then pure acc
    else do
      let (v, f1) := pairings t mode lanes 1 q flNone
      let (y, f2) := comb t mode acc v
      noteFlags h.1 k.id k.pc k.fpctl (f1 ||| f2)
      pure y

/-- A maximum, minimum or bitwise fold (R215). -/
def foldJoin (k : Sink) (m : Nat) (t : Ty) (acc : Option Nat) (els : List (Nat × Nat)) : E (Option Nat) :=
  els.foldlM (fun (a : Option Nat) q => do
    let (v, fl) := redJoin m t a q.2
    noteFlags q.1 k.id k.pc k.fpctl fl
    pure (some v)) acc

def accOf (pt : Partial) (row : Nat) : Option Nat := afind pt.accs row

def putAcc (k : Sink) (row : Nat) (v : Option Nat) : E Unit :=
  match v with
  | none => pure ()
  | some v => modify fun s =>
      let pt := partOf s.parts k.id
      { s with parts := setPart s.parts { pt with accs := aset pt.accs row v } }

/-- A fold over the range (R211, R218, R219). -/
def evalFold (x : Strip) (k : Sink) (r : Res) : E Unit := do
  let cs := contributors x k r
  let els := known cs
  els.forM fun _ => countActive k.id
  let t := x.p.wpTy (k.data.headD 0)
  let pt := partOf (← get).parts k.id
  match k.op with
  | .red m _ =>
    let acc := accOf pt 0
    if m = redSum ∨ m = redTree then do
      let v ← (if m = redSum then foldSum k t acc (summed cs) else foldTree x k t acc cs)
      putAcc k 0 (← loneNan x k t acc cs x.n v)
    else if m = redFfs then
      match acc, els.find? fun q => q.2 = 1 with
      | none, some q => putAcc k 0 (some q.1)
      | _, _ => pure ()
    else if m = redPop then putAcc k 0 (some (acc.getD 0 + (els.filter fun q => q.2 = 1).length))
    else do
      let v ← foldJoin k m t acc els
      putAcc k 0 v
  | .rowred mx _ _ =>
    let vl := max 1 x.p.vl
    let rows := (els.map fun q => q.1 / vl).eraseDups
    rows.forM fun row => do
      let all := cs.filter fun q => q.1 / vl = row
      let mine := known all
      let acc := accOf pt row
      if mx then do
        let v ← foldJoin k redMax t acc mine
        putAcc k row v
      else do
        let v ← foldSum k t acc (summed all)
        putAcc k row (← loneNan x k t acc all (min x.n ((row + 1) * vl)) v)
  | _ => pure ()

/-- A sink over the range: its writes, and what a trim has left to it. -/
def evalSink (x : Strip) (k : Sink) (r : Res) : E (Array (List Wr) × List Wr) := do
  match k.op with
  | .red _ _ | .rowred _ _ _ => do
    evalFold x k r
    pure (#[], [])
  | _ => do
    let a ← evalStore x k r
    let b ← lateWrites x k
    pure (a, b)

end Sys2Proof.Machine
end

