-- ==== Sys2Proof/Machine/Pass.lean ====
section
/-!
DEFINITION. Passes (spec/09): footprints and the range checker (R162), the whole-pass checks (R144, R159), forcing and starting
(R151, R152, R220), strips and their commit (R155, R161, R71), faults (R166, R167) and completion (R161, R212, R219, R261, R304).
-/

namespace Sys2Proof.Machine

/-! ### Footprints (R162) -/

/-- Bytes from the first up to the second. -/
abbrev Span2 := Nat × Nat

/-- The smallest interval that holds a list of them. DEDUCED, log entry 50. -/
def hull (l : List Span2) : Option Span2 :=
  match l with
  | [] => none
  | a :: r => some (r.foldl (fun b x => (min b.1 x.1, max b.2 x.2)) a)

/-- The elements of a pass, and those from the one at which it started or was resumed (R155, R162). -/
def Pass.elems (p : Pass) : Nat := p.vl * p.vrows
def Pass.rest (p : Pass) : List Nat := (List.range (p.elems - p.base)).map fun i => p.base + i

def spanAt (va : Word) (n : Nat) : Span2 := (va.toNat, va.toNat + n)

/-- A direct stream of `c` fields for an element. -/
def directSpans (t : Ty) (base : Word) (f : Nat → Form) (c : Nat) (p : Pass) : List Span2 :=
  p.rest.flatMap fun e => (List.range c).map fun k => spanAt (placeAt t base ((f k).off t p.vl e)).1 (szOf t)

/-- The bytes of a tensor, with its headers (R162). -/
def tensorSpans (d : Desc) : List Span2 :=
  let a := (d.elemAddr 0 0).1.toNat
  let z := (d.elemAddr (d.rows - 1) (d.cols - 1)).1.toNat + max 1 (d.bits / 8)
  (a, z) :: (if d.ty ≥ 11 then [(d.hdrbase, d.hdrbase + (d.rows - 1) * d.hpitch + 4 * d.blocks)] else [])

/-- The tensor bytes under a tile, with the headers that its elements use; `whole` takes whole blocks (R162, R257). -/
def tileSpans (d : Desc) (row0 col0 : Int) (whole : Bool) (p : Pass) : List Span2 :=
  p.rest.flatMap fun e =>
    let q := tilePos row0 col0 p.vl e
    if !d.holds q then []
    else
      let r := q.1.toNat
      let c := q.2.toNat
      (if whole then spanAt (d.blockAddr r (c / 32)) (d.bits * 4) else spanAt (d.elemAddr r c).1 (max 1 (d.bits / 8))) ::
      (if d.ty ≥ 11 then [spanAt (d.hdrAddr r (c / 32)) 4] else [])

/-- The slots that a tile draws on (R162). -/
def chunkSpans (d : Desc) (j0 : Nat) (p : Pass) : List Span2 :=
  p.rest.flatMap fun e =>
    let i := j0 * d.ce + e
    if i < d.rows * d.cols then [spanAt (d.slotAddr (i / d.ce)) d.slot] else []

/-- The whole of a pass as one range, for what depends on shapes only. -/
def Pass.whole (p : Pass) (t : Strand) : Strip := ⟨t, p, p.base, p.elems, p.elems, #[]⟩

/-- The tails that a store writes from that element on (R162, R252, R255). -/
def tailSpans (t : Strand) (p : Pass) (k : Sink) : List Span2 :=
  (List.range p.vrows).filterMap fun row =>
    if row * p.vl + p.vl ≤ p.base then none
    else (tailOf (p.whole t) k row).map fun q => ((q.1 / 2).toNat, ((q.2 + 1) / 2).toNat)

/-- The footprint of a node: none for a node without memory. -/
def footprint (t : Strand) (p : Pass) (x : Node) : Option Span2 :=
  if p.base ≥ p.elems then none
  else
    hull (match x with
      | .wp w _ =>
        match w.op with
        | .vld form _ base ty =>
          if 2 ≤ form ∧ form ≤ 8 then directSpans ty base (Form.unit form) form p
          else (match w.op.direct with | some (b, f, ty) => directSpans ty b (fun _ => f) 1 p | none => [])
        | .vlds _ _ _ | .vldt _ _ _ =>
          (match w.op.direct with | some (b, f, ty) => directSpans ty b (fun _ => f) 1 p | none => [])
        | .vldx tid _ => tensorSpans (p.desc tid)
        | .vldtd r c tid _ => tileSpans (p.desc tid) r c false p
        | .vldz tid j0 _ => chunkSpans (p.desc tid) j0 p
        | _ => []
      | .sink k =>
        let ty := k.ty.getD .i8
        match k.op with
        | .vst c base => directSpans ty base (Form.unit c) c p
        | .vsts base s => directSpans ty base (fun _ => .stride s.toInt) 1 p
        | .vstt base s => directSpans ty base (fun _ => .pitch s.toInt) 1 p ++ tailSpans t p k
        | .vstx tid | .vstxadd tid => tensorSpans (p.desc tid)
        | .vsttd r c tid => tileSpans (p.desc tid) r c false p ++ tailSpans t p k
        | .vstcmp base _ => [spanAt base ((p.elems * tyBits ty + 7) / 8)]
        | .vstc r c tid => tileSpans (p.desc tid) r c true p
        | _ => [])

def Node.isStore (x : Node) : Bool :=
  match x with
  | .wp _ _ => false
  | .sink k => match k.op with | .red _ _ | .rowred _ _ _ => false | _ => true

def Node.isLoad (x : Node) : Bool :=
  match x with
  | .wp w _ => w.major ≤ 0x1B
  | .sink _ => false

/-- `m` runs of `n` units, each `step` units from the one before it, share no unit, though their addresses go round at 2^64 bytes (R138);
a unit is a byte, or a nibble. -/
def runsApart (nibbles : Bool) (step : Int) (n m : Nat) : Bool :=
  let z : Nat := if nibbles then 2 ^ 65 else 2 ^ 64
  (List.range (m - 1)).all fun d =>
    let x := ((d + 1 : Nat) * step % z).toNat
    decide (n ≤ x) && decide (x + n ≤ z)

/-- No two elements of a stride or pitch fall on the same bits (R138, R162). -/
def apart (t : Ty) (f : Form) (vl vrows : Nat) : Bool :=
  let nib := tyBits t == 4
  match f with
  | .stride s => runsApart nib s (unitsOf t 1).toNat (vl * vrows)
  | .pitch p => runsApart nib (if nib then 2 * p else p) (unitsOf t vl).toNat vrows
  | _ => true

/-- No two elements of the tensor under a tile fall on the same bits (R144, R162). -/
def tileApart (d : Desc) (row0 col0 : Int) (vl vrows : Nat) : Bool :=
  let nib := d.bits == 4
  let rows := ((List.range vrows).filter fun r => decide (0 ≤ row0 + (r : Nat)) && decide (row0 + (r : Nat) < d.rows)).length
  let cols := ((List.range vl).filter fun c => decide (0 ≤ col0 + (c : Nat)) && decide (col0 + (c : Nat) < d.cols)).length
  runsApart nib (if nib then 2 * d.pitch else d.pitch) (if nib then cols else cols * (d.bits / 8)) rows

/-- An exact in-place pair of a load and a store (R162). The fault-only-first form is taken to be another form than that of any store, and
pairs with none. DESIGN CHOICE, log entry 93. -/
def exactPair (p : Pass) (x y : Node) : Bool :=
  match x, y with
  | .wp w _, .sink k =>
    let ty := k.ty.getD .i8
    (match w.op, k.op with
     | .vld form _ b t, .vst c b' => b == b' && tyBits t == tyBits ty && (if form = 0 then c == 1 else 2 ≤ form && form ≤ 8 && c == form)
     | .vlds b s t, .vsts b' s' => b == b' && s == s' && tyBits t == tyBits ty && apart ty (.stride s.toInt) p.vl p.vrows
     | .vldt b s t, .vstt b' s' => b == b' && s == s' && tyBits t == tyBits ty && apart ty (.pitch s.toInt) p.vl p.vrows
     | .vldtd r c tid _, .vsttd r' c' tid' => r == r' && c == c' && tid == tid' && tileApart (p.desc tid) r c p.vl p.vrows
     | _, _ => false)
  | _, _ => false

def meets (a b : Option Span2) : Option Span2 :=
  match a, b with
  | some a, some b => if max a.1 b.1 < min a.2 b.2 then some (max a.1 b.1, min a.2 b.2) else none
  | _, _ => none

/-! ### Whole-pass checks (R144, R159, R162) -/

/-- The tensor id, the use and the type of a node that names a descriptor (R183); `vl` is the VL of its pass at force (R257). -/
def Node.tensor (x : Node) (vl : Nat) : Option (Nat × Use × Option Ty) :=
  match x with
  | .wp w _ =>
    match w.op with
    | .vldx tid t => some (tid, .plain, some t)
    | .vldtd _ _ tid t => some (tid, .plain, some t)
    | .vldz tid _ t => some (tid, .chunked, some t)
    | _ => none
  | .sink k =>
    match k.op with
    | .vstx tid | .vstxadd tid | .vsttd _ _ tid => some (tid, .plain, k.ty)
    | .vstc _ c tid => some (tid, .quant c vl, k.ty)
    | _ => none

/-- A descriptor read and checked for a node (R144, R183, R258). -/
def openDesc (w : Who) (tdt : Word) (tid : Nat) (u : Use) (ty : Option Ty) : M (List Byte) := do
  let va := descAddr tdt tid
  let bs ← readDesc w tdt tid
  let d := parseDesc bs
  if !descValid d u ty then raise 0x0F 0 va
  match u with
  | .quant _ _ => do
    let tabs ← candTables w d tid
    if tabs.any fun t => t.2.any badLevel then raise 0x0F 0 va
    pure bs
  | _ => pure bs

/-- The first of two faults of one element: the earlier node (R167). -/
def firstFault (a b : Option PFault) : Option PFault :=
  match a, b with
  | none, b => b
  | a, none => a
  | some a, some b => some (if b.node < a.node then b else a)

/-- Reads the descriptors of a pass, with the fault of the first node whose descriptor fails. -/
def readDescs (t : Strand) (p : Pass) : M (Pass × Option PFault) :=
  p.nodes.foldlM (fun (a : Pass × Option PFault) x => do
    match x.tensor p.asked with
    | none => pure a
    | some (tid, u, ty) =>
      match ← attempt (openDesc (deskWho t p) t.sr.tdtbase tid u ty) with
      | .ok bs => pure ({ a.1 with descs := aset a.1.descs tid bs }, a.2)
      | .error .wait => throw Stop.wait
      | .error (.trap c d v) => pure (a.1, firstFault a.2 (some ⟨p.next, x.id, c, d, v, x.pc, flNone⟩))) ({ p with descs := [] }, none)

/-- A node has no footprint where its descriptor could not be read or is not valid for it. -/
def Pass.opened (p : Pass) (x : Node) : Bool :=
  match x.tensor p.asked with
  | none => true
  | some (tid, u, ty) => (afind p.descs tid).isSome && descValid (p.desc tid) u ty

/-- The fault of R159: a convoy formed by marks exceeds the budget. -/
def convoyFault (p : Pass) : Option PFault :=
  if p.determ then p.convoys.bad.map fun b => ⟨p.next, b.1, 0x0B, 0, 0, b.2, flNone⟩ else none

/-- The footprints of the nodes of a pass that `ok` accepts. -/
def footprints (t : Strand) (p : Pass) (ok : Node → Bool) : List (Node × Option Span2) :=
  (p.nodes.filter fun x => ok x && p.opened x).map fun x => (x, footprint t p x)

/-- The fault of R162: the lowest byte of any overlap that is not an exact pair, and the earliest store that holds it. -/
def overlapFault (t : Strand) (p : Pass) : Option PFault :=
  let loads := footprints t p Node.isLoad
  let bad := (footprints t p Node.isStore).flatMap fun y => loads.filterMap fun x =>
    if exactPair p x.1 y.1 then none else (meets x.2 y.2).map fun s => (y.1, s)
  match bad.map fun b => b.2.1 with
  | [] => none
  | a :: r =>
    let low := r.foldl min a
    (bad.find? fun b => b.2.1 ≤ low ∧ low < b.2.2).map fun b => ⟨p.next, b.1.id, 0x0A, 0, BitVec.ofNat 64 low, b.1.pc, flNone⟩

/-- The whole-pass checks of a pass whose descriptors were read, with their fault; a pass with no element left makes none
(R152). Of several faults of one node the convoy's is reported first, then the descriptor's, then the overlap. DESIGN CHOICE, log entry
94. -/
def wholeFault (t : Strand) (p : Pass) (df : Option PFault) : Option PFault :=
  if p.next ≥ p.elems then none
  else firstFault (firstFault (convoyFault p) df) (overlapFault t p)

/-- What two passes must not share while both run (R152). -/
def passesClash (t : Strand) (old new : Pass) : Bool :=
  let fp (p : Pass) (ok : Node → Bool) := (footprints t p ok).map fun q => q.2
  let hit (a b : List (Option Span2)) := a.any fun x => b.any fun y => (meets x y).isSome
  hit (fp old Node.isStore) (fp new fun x => x.isStore || x.isLoad) || hit (fp old Node.isLoad) (fp new Node.isStore)

/-- The new pass reads a row result of a pass in flight (R220). -/
def needsRows (old new : Pass) : Bool :=
  old.sinks.any fun k => match k.op with | .rowred _ wp _ => new.wps.any fun w => w.id == wp | _ => false

/-! ### Strips (R155, R161) -/

/-- The strand's pass at an index changed. -/
def Strand.setPass (t : Strand) (i : Nat) (p : Pass) : Strand := { t with passes := t.passes.set i p }
def State.setPass (s : State) (i : Nat) (p : Pass) : State := { s with st := s.st.setPass i p }

/-- The fault-only-first loads of a pass (R71). -/
def ffLoads (p : Pass) : List Waypoint := p.wps.filter fun w => match w.op with | .vld 1 _ _ _ => true | _ => false

/-- Whether a fault-only-first load would fault at an element, or read there an NS page that is not that of element 0 (R71). Nothing is
changed, but an access that must wait is begun. -/
def ffStops (x : Strip) (w : Waypoint) (e : Nat) : M Bool := do
  match w.op.direct with
  | none => pure false
  | some (base, f, t) =>
    let at1 (k : Nat) : Word := (placeAt t base (f.off t x.p.vl k)).1
    let go := translateFull (x.who e) .load (at1 e) (szOf t)
    match ← probe go with
    | .error .wait => do
      let _ ← go
      throw Stop.wait
    | .error (.trap c _ _) => pure (c != 0x13)
    | .ok (_, none) => pure false
    | .ok (_, some (bits, ns)) => pure (ns && (at1 e).toNat / 2 ^ bits != (at1 0).toNat / 2 ^ bits)

/-- The lowest element of the range at which a load does so; an inactive element does not. -/
def ffTrimOf (x : Strip) (r : Res) (w : Waypoint) : M (Option Nat) :=
  (List.range (x.hi - x.lo)).foldlM (fun (a : Option Nat) i => do
    if a.isSome then pure a
    else
      let on := (match w.mask with
        | none => true
        | some m => let v := r.at m i; !v.pad && !v.bad && v.val == 1)
      if on && (← ffStops x w (x.lo + i)) then pure (some (x.lo + i)) else pure none) none

/-- The trim of a pass by its fault-only-first loads: the lowest such element of them, unless it is element 0, which is a true fault
(R71). Masks are computed on the elements that the pass will run. DEDUCED, log entry 49. -/
def ffTrim (x : Strip) (parts : List Partial) (fuel : Nat) (k : Option Nat) : M (Option Nat) := do
  match fuel with
  | 0 => pure k
  | fuel + 1 =>
    let ws := ffLoads x.p
    let roots := ws.flatMap fun w => w.mask.toList
    let (r, _) ← (if roots.isEmpty then pure ([], none) else evalAhead x roots parts)
    let ks ← ws.filterMapM (ffTrimOf x r)
    match ks with
    | [] => pure k
    | a :: rest =>
      let m := rest.foldl min a
      if m = 0 then pure k
      else if roots.isEmpty then pure (some m)
      else ffTrim { x with hi := m, n := m } parts fuel (some m)

/-- The shape of a waypoint after a trim to `k` elements (R154). -/
def Waypoint.trim (k : Nat) (w : Waypoint) : Waypoint := { w with vl := k, vrows := 1 }

/-- A pass trimmed to `k` elements (R71). When all of them have committed, what their rows and blocks still lack is left to be
written. -/
def Pass.trim (p : Pass) (k : Nat) : Pass :=
  { p with
    vl := k
    vrows := 1
    wps := p.wps.map (Waypoint.trim k)
    sinks := p.sinks.map fun s => { s with vl := k, vrows := 1 }
    late := p.late || decide (k ≤ p.next)
    trimmed := true }

/-- The strand of a trimmed pass: VL, and the shapes of the pass's waypoints and of its row results (R71, R154, R219). -/
def Strand.trim (t : Strand) (p : Pass) (k : Nat) : Strand :=
  let rows := p.sinks.filterMap fun s => match s.op with | .rowred _ wp _ => some wp | _ => none
  let hit (w : Waypoint) : Bool := p.wps.any (fun v => v.id == w.id) || rows.contains w.id
  { t with
    wps := t.wps.map fun w => if hit w then w.trim k else w
    sr := { t.sr with vl := k } }

/-- The checks of a pass that starts or is resumed at `next`, whose descriptors have been read: its fault-only-first loads trim it at
once, before any strip runs (R71), and the whole-pass checks are made of what is left (R162). -/
def checkPass (i : Nat) (p0 : Pass) (df : Option PFault) : M Unit := do
  let s ← get
  let p := { p0 with base := p0.next }
  let n := p.elems
  let x : Strip := ⟨s.st, p, p.next, n, n, laneArray (s.laneTable s.st)⟩
  let trim ← (if (ffLoads p).isEmpty then pure none else ffTrim x p.parts (n + 1) none)
  let q := match trim with | none => p | some k => p.trim k
  let f := wholeFault s.st q df
  modify fun s =>
    let t := match trim with | none => s.st | some k => s.st.trim p k
    { s with st := t.setPass i { q with fault := f, faulted := q.faulted || f.isSome, checked := f.isNone } }

/-- A pass that runs unchecked reads its descriptors and is checked (R144, R168). -/
def openPass (i : Nat) (p : Pass) : M Unit := do
  let (q, df) ← readDescs (← get).st p
  checkPass i q df

/-- Whether an element of the pass past the range may still draw on a chunk. -/
def drawnLater (x : Strip) (c : Unsound) : E Bool := do
  match wpOf x.p.wps c.node with
  | none => pure false
  | some w =>
    match w.op with
    | .vldz tid j0 _ =>
      let d := x.p.desc tid
      let stop := min x.n (min ((c.j + 1) * d.ce) (d.rows * d.cols) - j0 * d.ce)
      if stop ≤ x.hi then pure false
      else
        match w.mask with
        | none => pure true
        | some m => do
          let (r, _) ← (evalAhead (x.ahead stop) [m] (← get).parts : M (Res × Option PFault))
          pure ((List.range (stop - x.hi)).any fun i => !(r.at m i).pad && ((r.at m i).bad || (r.at m i).val == 1))
    | _ => pure false

/-- A chunk that failed its check before the pass was stopped is decoded anew, for the first element of the strip, and its check made
again: whether it fails still. -/
def failsStill (x : Strip) (c : Unsound) : E Bool := do
  match wpOf x.p.wps c.node with
  | none => pure false
  | some w =>
    match w.op with
    | .vldz tid _ _ => do
      let _ ← chunkFor x c.node x.lo w.pc (x.p.desc tid) c.j
      pure ((← get).chunks.any fun u => u.node == c.node && u.j == c.j && !u.good)
    | _ => pure false

/-- The chunks whose CRC does not agree, drawn on so far: one whose last element has been drawn is a fault, the others are kept (R88). One
that failed before the pass was stopped is judged by its decoding since. The fault stands at the last element that was drawn from the
chunk. DESIGN CHOICE, log entry 85. -/
def chunkChecks (x : Strip) : E (List Unsound) := do
  let v ← get
  let fresh := (v.chunks.filter fun c => !c.good).map fun c => (⟨c.node, c.j, c.last, c.slot, false⟩ : Unsound)
  let old := x.p.unsound.filter fun u => !v.chunks.any fun c => c.node == u.node && c.j == u.j && (u.stale || !c.good)
  (fresh ++ old).filterM fun c => do
    let later ← drawnLater x c
    if !later && (!c.stale || (← failsStill x c)) then
      noteFault c.last c.node 0x10 0 c.slot (((wpOf x.p.wps c.node).map Waypoint.pc).getD 0)
    pure later

/-- Statistics of a strip joined to those of the pass (R304). -/
def joinStats (a b : List NodeStat) : List NodeStat :=
  b.foldl (fun l s => updStat l s.node fun o =>
    { o with
      active := o.active + s.active
      first := if o.touched && s.touched then min o.first s.first else if s.touched then s.first else o.first
      last := if o.touched && s.touched then max o.last s.last else if s.touched then s.last else o.last
      touched := o.touched || s.touched }) a

/-- The flags raised at an element by the nodes that `which` accepts. -/
def Ev.flagsAt (v : Ev) (e : Nat) (which : Nat → Bool) : FFlags :=
  (v.fl.filter fun q => q.1 == e && which q.2.1).foldl (fun a q => a ||| q.2.2) flNone

/-- The fault of a strip with the flags of R167: DETAIL holds those of the blamed node at the blamed element (R297). -/
def blamed (v : Ev) : Option PFault :=
  v.best.map fun f =>
    if f.cause = 0x0D then
      { f with
        detail := (v.flagsAt f.elem fun n => n == f.node).toNat
        flags := v.flagsAt f.elem fun n => decide (n ≤ f.node) }
    else f

/-- One strip of a checked pass: all its elements, and then its commit or its fault (R161, R167). FLAGS[1] of R304 is for a pass that met a
fault itself, and not for a younger one that was suspended with it. DESIGN CHOICE, log entry 125. -/
def runStrip (i : Nat) (p : Pass) : M Unit := do
  let s ← get
  let t := s.st
  let lanes := laneArray (s.laneTable t)
  let lo := p.next
  let x : Strip := ⟨t, p, lo, min p.elems (lo + max 1 lanes.size * p.stripLen), p.elems, lanes⟩
  let act : E (List (Array (List Wr) × List Wr) × List Unsound) := do
    let r ← evalNodes x (fun _ => true) p.nodes
    let cols ← p.sinks.mapM fun k => evalSink x k r
    let left ← chunkChecks x
    pure (cols, left)
  let ((cols, left), v) ← act.run (Ev.start p.parts)
  match blamed v with
  | some f => modify fun s => s.setPass i { p with fault := some f, strips := p.strips + 1, replayed := true, faulted := true }
  | none => do
    (cols.flatMap fun c => c.2).forM Wr.perform
    let _ ← performAll (x.hi - x.lo) (cols.map fun c => c.1)
    let wrote := (p.sinks.zip cols).map fun q => (q.1.id, q.2.2 ++ q.2.1.toList.flatten)
    let (s1, cover) := (← get).coverAll t.cluster wrote p.cover
    set (s1.setPass i { p with
      next := x.hi
      late := false
      cover := cover
      unsound := left
      strips := p.strips + 1
      parts := v.parts
      stats := joinStats p.stats v.stats
      flags := v.fl.foldl (fun a f => a ||| f.2.2) p.flags })

/-- Whether a pass that is checked has anything left to run. -/
def Pass.remains (p : Pass) : Bool := decide (p.next < p.elems) || p.late

/-- The turn of a pass that runs: its checks, when they are to be made (R168), or a strip. -/
def stripTurn (i : Nat) (p : Pass) : M Unit :=
  if !p.checked then openPass i p else if p.remains then runStrip i p else pure ()

/-! ### Completion (R161) -/

/-- The value that a sink writes to its scalar register at completion (R212, R213, R256). -/
def sinkResult (p : Pass) (k : Sink) : Option (Reg × Word) :=
  let pt := partOf p.parts k.id
  let t := p.wpTy (k.data.headD 0)
  match k.op with
  | .red m d =>
    if m = redFfs then some (d, match accOf pt 0 with | none => BitVec.allOnes 64 | some e => BitVec.ofNat 64 e)
    else if m = redPop then some (d, BitVec.ofNat 64 ((accOf pt 0).getD 0))
    else some (d, placeResult m t (foldResult m t (accOf pt 0)))
  | .vstcmp _ d => some (d, BitVec.ofNat 64 pt.count)
  | _ => none

/-- The values of a row result (R219). -/
def rowValues (p : Pass) (k : Sink) : Option (Nat × List Nat) :=
  match k.op with
  | .rowred mx _ slot =>
    let pt := partOf p.parts k.id
    let t := p.wpTy (k.data.headD 0)
    some (slot, (List.range p.vrows).map fun r => foldResult (if mx then redMax else redSum) t (accOf pt r))
  | _ => none

/-- The NV that Canon raises for what a sink has summed, a row or the whole (R214). -/
def sinkCanon (p : Pass) (k : Sink) : FFlags :=
  let at1 (row : Nat) : FFlags :=
    match accOf (partOf p.parts k.id) row with | none => flNone | some v => (canon (p.wpTy (k.data.headD 0)) v).2
  match k.op with
  | .red m _ => if m ≤ redTree then at1 0 else flNone
  | .rowred false _ _ => (List.range p.vrows).foldl (fun a r => a ||| at1 r) flNone
  | _ => flNone

/-- The trap of an NV of Canon that shows itself only when every strip has committed: what seemed to contribute after the signalling NaN did
not (R71, R214). It is blamed on its sink, and stops the pass past its last strip. DESIGN CHOICE, log entry 112. -/
def lateNan (p : Pass) : Option PFault :=
  (p.sinks.find? fun k => trapping k.fpctl (sinkCanon p k)).map fun k =>
    ⟨p.next, k.id, 0x0D, (sinkCanon p k).toNat, 0, k.pc, sinkCanon p k⟩

def Sink.isVstc (k : Sink) : Bool := match k.op with | .vstc _ _ _ => true | _ => false

/-- QERR after a pass (R261): the errors of its blocks, sink by sink. -/
def qerrOf (p : Pass) : Word :=
  BitVec.ofNat 64 ((p.sinks.filter Sink.isVstc).foldl (fun a k => (partOf p.parts k.id).accs.foldl (fun a q => addF64 a q.2) a) 0)

/-- The stream type of a node in a Waymark record: 15 for a predicate stream (R304). -/
def Node.tyCode (p : Pass) (x : Node) : Nat :=
  match x with
  | .wp w _ => (w.ty.map Ty.toNat).getD 15
  | .sink k =>
    match k.ty with
    | some t => t.toNat
    | none => match wpOf p.wps (k.data.headD 0) with | some w => (w.ty.map Ty.toNat).getD 15 | none => 15

/-- A Waymark record (R304). -/
def waymark (key : Word) (p : Pass) (x : Node) : List Byte :=
  let st := (p.stats.find? fun q => q.node = x.id).getD ⟨x.id, 0, 0, 0, false⟩
  let fl := boolBit p.trimmed + 2 * boolBit p.faulted + 4 * boolBit p.replayed + 8 * boolBit p.preempted
  leBytes 64 (x.pc.toNat + p.serial % 2 ^ 64 * 2 ^ 64 + p.vl % 2 ^ 32 * 2 ^ 128 + p.vrows % 2 ^ 16 * 2 ^ 160 +
    st.active % 2 ^ 64 * 2 ^ 192 + st.first % 2 ^ 64 * 2 ^ 256 + st.last % 2 ^ 64 * 2 ^ 320 + fl * 2 ^ 384 +
    x.tyCode p % 16 * 2 ^ 388 + x.major % 64 * 2 ^ 392 + p.convoys.c % 2 ^ 16 * 2 ^ 400 + p.strips % 2 ^ 32 * 2 ^ 416 +
    key.toNat * 2 ^ 448)

/-- Where the lines of a stored range lie, with their bytes. -/
def devTargets (w : Who) (va : Word) (bs : List Byte) (fuel : Nat) : M (List (Loc × List Byte)) := do
  match fuel with
  | 0 => pure []
  | fuel + 1 =>
    if bs.isEmpty then pure []
    else
      let k := min bs.length (64 - va.toNat % 64)
      let l ← translate w .store va (min k 8)
      let r ← devTargets w (va + BitVec.ofNat 64 k) (bs.drop k) fuel
      pure ((l, bs.take k) :: r)

/-- Bytes written at device scope through a translated store, line by line; when a line of it faults, none is written (R266, R304). -/
def devStore (w : Who) (va : Word) (bs : List Byte) (fuel : Nat) : M Unit := do
  let ts ← devTargets w va bs fuel
  ts.forM fun q =>
    match q.1 with
    | .hbm pa ten => modify fun s => (s.flushLine w.cluster (pa / 64)).devWrite ten pa q.2
    | l => writeLoc w l q.2

/-- Whether the ring is on (R304). -/
def ringOn (size : Nat) : Bool := size != 0 && decide (size ≤ 2 ^ 24) && size &&& (size - 1) == 0

/-- The Waymark records of a pass, at indices claimed as one run; a record whose write faults is dropped (R304, R305).
DEDUCED, log entry 54. -/
def writeWaymarks (p : Pass) : M Unit := do
  let s ← get
  let t := s.st
  let size := t.sr.wmsize.toNat % 2 ^ 32
  match s.ctx? t.ctx with
  | none => pure ()
  | some c =>
    if !ringOn size then pure ()
    else do
      let ns := p.nodes
      modify fun s => s.modCtx t.ctx fun c => { c with wmHead := (c.wmHead + ns.length) % 2 ^ 32 }
      let w := { deskWho t p with user := false }
      ns.zipIdx.forM fun q => do
        let va := t.sr.wmbase + BitVec.ofNat 64 (64 * ((c.wmHead + q.2) % 2 ^ 32 % size))
        match ← attempt (devStore w va (waymark t.sr.strandkey p q.1) 3) with
        | .error .wait => throw Stop.wait
        | _ => pure ()

/-- The flags of a pass that completes: those of its strips, and those of Canon (R161, R214). -/
def Pass.allFlags (p : Pass) : FFlags := p.sinks.foldl (fun a k => a ||| sinkCanon p k) p.flags

/-- What the completion of a pass leaves in the strand (R113, R153, R212, R219, R261). A pass of no element may complete before an older
one (R152), whose error QERR then no longer takes. Of two sinks of a pass with one destination the later in queue order stands.
DESIGN CHOICE, log entry 95. -/
def Strand.finish (t : Strand) (p : Pass) : Strand :=
  let t1 := p.sinks.foldl (fun (t : Strand) k =>
    let t := match sinkResult p k with | none => t | some (d, v) => t.set d v
    match rowValues p k with | none => t | some (slot, vs) => { t with rows := aset t.rows slot vs }) t
  let newer := t.qerrSerial.any fun k => decide (p.serial < k) && !t.passes.any fun q => q.serial == k
  let qe := if p.sinks.any Sink.isVstc && !newer then qerrOf p else t.sr.qerr
  ({ t1 with
      passes := t.passes.filter fun q => q.serial != p.serial
      sr := { t1.sr with qerr := qe, fpflags := t1.sr.fpflags ||| p.allFlags.setWidth 64 } } : Strand).reclaim

/-- A pass that may complete: it runs, every element has committed and no fault stands (R161). -/
def Pass.done (p : Pass) : Bool := p.st == .running && p.fault.isNone && p.checked && !p.remains

/-- A pass completes (R161), unless a trap shows itself at its end. -/
def completePass (p : Pass) : M Unit :=
  match lateNan p with
  | some f => modify fun s => { s with st := { s.st with
      passes := s.st.passes.map fun q => if q.serial = p.serial then { q with fault := some f, faulted := true } else q } }
  | none => do
    writeWaymarks p
    modify fun s => { s with st := s.st.finish p }

/-! ### Forcing (R151, R152) -/

/-- The queued sinks and the waypoints they reach, as a pass (R152). -/
def Strand.newPass (t : Strand) : Pass :=
  let live := reach t.wps (t.queue.flatMap Sink.operands)
  let k := t.queue.headD default
  { serial := t.serial, forcePc := t.pc, wps := t.wps.filter (fun w => live.contains w.id), sinks := t.queue, vl := k.vl,
    vrows := k.vrows, context := t.sr.context, ptbase := t.sr.ptbase, user := t.mode == .u, determ := bitAt t.sr.determ.toNat 0,
    st := .running, base := 0, next := 0, asked := k.vl, late := false, unsound := [], checked := false, strips := 0, parts := [], stats := [], flags := flNone, descs := [],
    fault := none, trimmed := false, faulted := false, replayed := false, preempted := false, cover := [] }

/-- A new pass reads a row result of a suspended one: it does not start until that one has been resumed and has completed (R220). -/
def behindStopped (ps : List Pass) (new : Pass) : Bool := ps.any fun o => !o.inFlight && needsRows o new

/-- A new pass waits: an older one in flight has not been checked, or they must not run together (R152), or one that has not completed
holds its row sink (R220). -/
def mustWait (t : Strand) (new : Pass) : Bool :=
  behindStopped t.passes new ||
  (t.passes.filter Pass.inFlight).any fun o => !o.checked || needsRows o new || passesClash t o new

/-- The passes of a strand with one more, behind those in flight; a suspended one, which no force waits for (R298), stands behind it, but
for one that holds a row sink of it (R220). -/
def joined (ps : List Pass) (p : Pass) : List Pass :=
  if behindStopped ps p then ps ++ [p] else ps.filter Pass.inFlight ++ [p] ++ ps.filter fun q => !q.inFlight

/-- A pass joins those of the strand. -/
def State.joinPass (s : State) (p : Pass) : State := { s with st := { s.st with passes := joined s.st.passes p } }

/-- A pass of no element completes at once (R152); a completion that waits has claimed no index (R305). -/
def forceEmpty (p : Pass) : M Unit := do
  modify fun s => s.joinPass { p with checked := true }
  whole (completePass p)

/-- A pass of some elements: it reads its descriptors (R144), and starts at once with its checks, or waits for an older one. A suspended
pass keeps it only where it holds its row sink (R220): only EXIT forces beside one (R298), and EXIT waits for what it forces (R310).
DEDUCED, log entry 22. -/
def forceSome (p0 : Pass) : M Unit := do
  let (p1, df) ← readDescs (← get).st p0
  let s ← get
  let st : PassSt := if mustWait s.st p1 then .waiting else .running
  let p := { p1 with st := st, fault := if st = .waiting then df else none }
  modify fun s => s.joinPass p
  if st = .running then checkPass (s.st.passes.filter Pass.inFlight).length p df else pure ()

/-- Takes the queue into a new pass (R152). The caller has seen to it that fewer than two are in flight. An access of it that must wait
makes the forcing instruction wait: what the strand does after it comes after what the pass reads at force (R61, R144). -/
def forceQueue : M Unit := do
  let t := (← get).st
  if t.queue.isEmpty then pure ()
  else do
    let p := t.newPass
    modify fun s => { s with st := { s.st with
      queue := []
      serial := t.serial + 1
      qerrSerial := if p.sinks.any Sink.isVstc then some p.serial else s.st.qerrSerial } }
    if p.elems = 0 then forceEmpty p else forceSome p

/-- Forces the queue, waiting while two passes are in flight (R151, R152); an instruction that waits has forced nothing. -/
def force : M Unit := heldStrand do
  let t := (← get).st
  if t.queue.isEmpty then pure ()
  else if (t.passes.filter Pass.inFlight).length ≥ 2 then waitHere
  else forceQueue

/-- A waiting pass starts (R152, R220): its whole-pass checks are made with the descriptors it read at force; one that was suspended
meanwhile reads them in its own turn (R144). -/
def startWaiting (i : Nat) (p : Pass) : M Unit :=
  if p.fault.isNone && p.descs.isEmpty && p.nodes.any fun x => (x.tensor p.asked).isSome then
    modify fun s => s.setPass i { p with st := .running, checked := false }
  else checkPass i { p with st := .running, fault := none } p.fault

end Sys2Proof.Machine
end

