-- ==== Sys2Proof/Machine/Store.lean ====
section
/-!
DEFINITION. The issue of the sinks: every store of spec/15 and every member of VRED (spec/13), and FORCE (spec/09 R169). At issue a
sink is checked and queued; with Q = 0 it forces the queue.
-/

namespace Sys2Proof.Machine

/-- A sink with the captures of R136 and R148. -/
def mkSink (t : Strand) (w : Nat) (op : SOp) (ty : Option Ty) (data : List Nat) (idx mask : Option Nat) : Sink :=
  { id := t.nextWp, pc := t.pc, major := w / 2 ^ 26, op := op, ty := ty, vl := t.sr.vl, vrows := t.sr.vrows, data := data, idx := idx,
    mask := mask, vpol := t.sr.vpol, fpctl := t.sr.fpctl, draw := t.sr.draw, rngkey := t.sr.rngkey, mark := t.mark }

/-- A sink reaches a row-result waypoint whose own row sink is still queued (R220). -/
def reachesQueuedRow (t : Strand) (roots : List Nat) : Bool :=
  let live := reach t.wps roots
  t.queue.any fun k => match k.op with | .rowred _ wp _ => live.contains wp | _ => false

/-- The queue must be forced before a sink joins it (R150, R220). -/
def mustForce (t : Strand) (roots : List Nat) : Bool :=
  decide (8 ≤ t.queue.length) || t.queue.any (fun k => k.vl != t.sr.vl || k.vrows != t.sr.vrows) || reachesQueuedRow t roots

/-- The waits of R153 and R154, asked again after a force of the same instruction: its registers, and VL. -/
def stillReady (regs : List Reg) : M Unit := do
  let s ← get
  if s.unsettled || regs.any s.pending then waitHere else pure ()

/-- QueueSink (R150) of a sink that names `regs`: the force that comes first, the wait of R152, then `make` joins the queue, and Q = 0
forces it. After that first force the sink waits as any instruction does for a register that is now pending and for a VL that is now
unsettled (R153, R154), and is then issued anew, with the shape of that moment. -/
def queueSink (q : Bool) (regs : List Reg) (roots : List Nat) (make : Strand → Strand) : M Unit := do
  if mustForce (← get).st roots then do
    force
    stillReady regs
  heldStrand do
    modify fun s => { s with st := make s.st }
    if q then pure ()
    else if ((← get).st.passes.filter Pass.inFlight).length ≥ 2 then waitHere
    else forceQueue
    modify fun s => State.adv { s with st := s.st.reclaim }

/-- A sink put at the end of the queue. -/
def Strand.enqueue (t : Strand) (k : Sink) : Strand :=
  { t with queue := t.queue ++ [{ k with id := t.nextWp }], nextWp := t.nextWp + 1 }

/-- A data stream of the store's type (R247). -/
def storeSrc (w : Nat) (t : Ty) (r : Reg) : M Nat := do
  let (x, _) ← dataSrc w (fun u => u == t) r
  pure x

/-- The stores of one or more fields at addresses in registers (R251, R256): streams, mask, alignment. With two misaligned registers EVA holds
the first, S[A]: DESIGN CHOICE, log entry 78. A stream fault of a data stream or of the mask comes before one of alignment: DESIGN CHOICE,
log entry 102. -/
def directStore (w : Nat) (vss : List Reg) (q : Bool) (m : Mask) (t : Ty) (regs : List Reg) (al : List Word) (op : SOp) (s : State) : Out :=
  vectorIssue w regs (do
    let ds ← vss.mapM fun r => storeSrc w t r
    let mk ← maskSrc w m
    al.forM fun v => alignedReg t v
    let k := mkSink s.st w op (some t) ds none mk
    queueSink q regs k.operands fun t => t.enqueue k) s

/-- A scatter (R253, R254): a data stream, an index stream, a tensor id; `det` is the determinism trap of R254. -/
def scatter (w : Nat) (vs a b : Reg) (q : Bool) (m : Mask) (t : Ty) (ok det : Bool) (op : SOp) (s : State) : Out :=
  vectorIssue w [a] (do
    if det then raise 0x0C 0 (BitVec.ofNat 64 w)
    if !ok then faultWord w
    let d ← storeSrc w t vs
    let (x, _) ← dataSrc w isIndexTy b
    let mk ← maskSrc w m
    tensorId (s.reg a)
    let k := mkSink s.st w op (some t) [d] (some x) mk
    queueSink q [a] k.operands fun t => t.enqueue k) s

/-- A store of a tile through a descriptor (R255, R257): `ok` says which stream types it takes. -/
def tileStore (w : Nat) (vs a b : Reg) (q : Bool) (m : Mask) (t : Ty) (ok : Ty → Bool) (draws : Bool) (op : SOp) (s : State) : Out :=
  vectorIssue w [a, b] (do
    let (d, _) ← dataSrc w ok vs
    let mk ← maskSrc w m
    tensorId (s.reg b)
    let k := mkSink s.st w op (some t) [d] none mk
    queueSink q [a, b] k.operands fun t =>
      let t1 := t.enqueue k
      if draws then t1.advDraw else t1) s

/-- FORCE (R169). -/
def execForce (s : State) : Out :=
  vectorWord (fmtR 0x00 0 0 0 6) s (runM (do
    force
    modify State.adv) s)

/-- VST (R251). -/
def execVst (vs a : Reg) (q : Bool) (m : Mask) (t : Ty) (s : State) : Out :=
  directStore (fmtR 0x1C vs a 0 (vmFn q m t)) [vs] q m t [a] [s.reg a] (.vst 1 (s.reg a)) s

/-- VST.seg (R251): one sink for the b fields. -/
def execVstSeg (vs a b : Reg) (q : Bool) (m : Mask) (t : Ty) (s : State) : Out :=
  directStore (fmtR 0x1C vs a b (vmFn q m t)) ((List.range b.val).map (regPlus vs)) q m t [a] [s.reg a] (.vst b.val (s.reg a)) s

/-- VSTS (R251). -/
def execVsts (vs a b : Reg) (q : Bool) (m : Mask) (t : Ty) (s : State) : Out :=
  directStore (fmtR 0x1D vs a b (vmFn q m t)) [vs] q m t [a, b] [s.reg a, s.reg b] (.vsts (s.reg a) (s.reg b)) s

/-- VSTT (R251, R252). -/
def execVstt (vs a b : Reg) (q : Bool) (m : Mask) (t : Ty) (s : State) : Out :=
  directStore (fmtR 0x1E vs a b (vmFn q m t)) [vs] q m t [a, b] [s.reg a, s.reg b] (.vstt (s.reg a) (s.reg b)) s

/-- VSTX (R253). -/
def execVstx (vs a b : Reg) (q : Bool) (m : Mask) (t : Ty) (s : State) : Out :=
  scatter (fmtR 0x1F vs a b (vmFn q m t)) vs a b q m t true false (.vstx ((s.reg a).toNat % 2 ^ 12)) s

/-- VSTXADD (R254): DETERM refuses a floating-point type, types 8 to 10 among them (R171), before every stream fault (R332). -/
def execVstxadd (vs a b : Reg) (q : Bool) (m : Mask) (t : Ty) (s : State) : Out :=
  scatter (fmtR 0x20 vs a b (vmFn q m t)) vs a b q m t (tyIsArith t) (bitAt s.st.sr.determ.toNat 0 && (tyFmt t).isSome)
    (.vstxadd ((s.reg a).toNat % 2 ^ 12)) s

/-- VSTTD (R255). -/
def execVsttd (vs a b : Reg) (q : Bool) (m : Mask) (t : Ty) (s : State) : Out :=
  tileStore (fmtR 0x21 vs a b (vmFn q m t)) vs a b q m t (fun u => u == t) false
    (.vsttd (tileRow (s.reg a)) (tileCol (s.reg a)) ((s.reg b).toNat % 2 ^ 12)) s

/-- VSTC (R257): an f16, bf16 or f32 stream; under VPOL.QRND it draws (R191). -/
def execVstc (vs a b : Reg) (q : Bool) (m : Mask) (t : Ty) (s : State) : Out :=
  tileStore (fmtR 0x22 vs a b (vmFn q m t)) vs a b q m t (fun u => u == .f16 || u == .bf16 || u == .f32) (bitAt s.st.sr.vpol.toNat 2)
    (.vstc (tileRow (s.reg a)) (tileCol (s.reg a)) ((s.reg b).toNat % 2 ^ 12)) s

/-- VSTCMP (R256): the count goes to S[B] at completion. -/
def execVstcmp (vs a b : Reg) (q : Bool) (m : Mask) (t : Ty) (s : State) : Out :=
  directStore (fmtR 0x23 vs a b (vmFn q m t)) [vs] q m t [a, b] [s.reg a] (.vstcmp (s.reg a) b) s

/-! ### Reductions -/

/-- A reduction of a data stream to S[d] (R218). -/
def reduce (w k : Nat) (ok : Ty → Bool) (d va : Reg) (m : Mask) (q : Bool) (s : State) : Out :=
  vectorIssue w [d] (do
    if k = redTree ∧ bitAt s.st.sr.determ.toNat 0 then raise 0x0C 0 (BitVec.ofNat 64 w)
    let (x, _) ← dataSrc w ok va
    let mk ← maskSrc w m
    let k := mkSink s.st w (.red k d) none [x] none mk
    queueSink q [d] k.operands fun t => t.enqueue k) s

/-- VFFS and VPOP: a predicate stream to S[d] (R218). -/
def reducePred (w k : Nat) (d va : Reg) (m : Mask) (q : Bool) (s : State) : Out :=
  vectorIssue w [d] (do
    let x ← predSrc w va
    let mk ← maskSrc w m
    let k := mkSink s.st w (.red k d) none [x] none mk
    queueSink q [d] k.operands fun t => t.enqueue k) s

/-- The least row-result slot that no waypoint holds (R219). -/
def freeRowSlot (ws : List Waypoint) : Nat := if (rowSlots ws).contains 0 then 1 else 0

/-- The sink of a row reduction, its row-result waypoint, and VD bound to it (R219). -/
def Strand.enqueueRow (t : Strand) (vd : Reg) (ty : Ty) (mx : Bool) (k : Sink) : Strand :=
  let slot := freeRowSlot (referenced t (adel t.vnames vd.val) t.pnames t.passes k.operands)
  let wp : Waypoint :=
    { id := t.nextWp + 1, pc := k.pc, major := k.major, op := .rowres slot t.nextWp, ty := some ty, vl := k.vl,
      vrows := k.vrows, srcs := [], mask := none, old := none, vpol := k.vpol, fpctl := k.fpctl, draw := k.draw,
      rngkey := k.rngkey, mark := k.mark, seg := none }
  { t with
    queue := t.queue ++ [{ k with id := t.nextWp, op := .rowred mx (t.nextWp + 1) slot }]
    nextWp := t.nextWp + 2
    vnames := aset t.vnames vd.val (t.nextWp + 1)
    wps := t.wps ++ [wp] }

/-- VREDROW and VREDROWMAX (R219): VD is a vector name, and what it names is checked as R131 says; more than 128 rows are a stream
fault. -/
def reduceRows (w : Nat) (mx : Bool) (vd va : Reg) (m : Mask) (q : Bool) (s : State) : Out :=
  vectorIssue w [] (do
    let (x, ty) ← dataSrc w tyIsArith va
    let mk ← maskSrc w m
    let _ ← oldSrc w false vd m (some ty)
    if s.st.sr.vrows > 128 then faultWord w
    let k := mkSink s.st w (.rowred mx 0 0) none [x] none mk
    let t := (← get).st
    needWaypoints w (adel t.vnames vd.val) t.pnames k.operands 1 true
    queueSink q [] k.operands fun t => t.enqueueRow vd ty mx k) s

/-- VREDSUM (R214). -/
def execVredsum (d va : Reg) (m : Mask) (q : Bool) (s : State) : Out :=
  reduce (fmtR 0x32 d va 0 (vredFn q m 0)) 0 tyIsArith d va m q s

/-- VREDSUMT (R216, R217). -/
def execVredsumt (d va : Reg) (m : Mask) (q : Bool) (s : State) : Out :=
  reduce (fmtR 0x32 d va 0 (vredFn q m 1)) 1 tyIsArith d va m q s

/-- VREDMAX (R215). -/
def execVredmax (d va : Reg) (m : Mask) (q : Bool) (s : State) : Out :=
  reduce (fmtR 0x32 d va 0 (vredFn q m 2)) 2 tyIsArith d va m q s

/-- VREDMIN (R215). -/
def execVredmin (d va : Reg) (m : Mask) (q : Bool) (s : State) : Out :=
  reduce (fmtR 0x32 d va 0 (vredFn q m 3)) 3 tyIsArith d va m q s

/-- VREDMAXU (R215). -/
def execVredmaxu (d va : Reg) (m : Mask) (q : Bool) (s : State) : Out :=
  reduce (fmtR 0x32 d va 0 (vredFn q m 4)) 4 tyIsInt d va m q s

/-- VREDMINU (R215). -/
def execVredminu (d va : Reg) (m : Mask) (q : Bool) (s : State) : Out :=
  reduce (fmtR 0x32 d va 0 (vredFn q m 5)) 5 tyIsInt d va m q s

/-- VREDAND (R215). -/
def execVredand (d va : Reg) (m : Mask) (q : Bool) (s : State) : Out :=
  reduce (fmtR 0x32 d va 0 (vredFn q m 6)) 6 tyIsInt d va m q s

/-- VREDOR (R215). -/
def execVredor (d va : Reg) (m : Mask) (q : Bool) (s : State) : Out :=
  reduce (fmtR 0x32 d va 0 (vredFn q m 7)) 7 tyIsInt d va m q s

/-- VREDXOR (R215). -/
def execVredxor (d va : Reg) (m : Mask) (q : Bool) (s : State) : Out :=
  reduce (fmtR 0x32 d va 0 (vredFn q m 8)) 8 tyIsInt d va m q s

/-- VREDROW (R219). -/
def execVredrow (d va : Reg) (m : Mask) (q : Bool) (s : State) : Out :=
  reduceRows (fmtR 0x32 d va 0 (vredFn q m 9)) false d va m q s

/-- VREDROWMAX (R219). -/
def execVredrowmax (d va : Reg) (m : Mask) (q : Bool) (s : State) : Out :=
  reduceRows (fmtR 0x32 d va 0 (vredFn q m 10)) true d va m q s

/-- VFFS (R218). -/
def execVffs (d va : Reg) (m : Mask) (q : Bool) (s : State) : Out :=
  reducePred (fmtR 0x32 d va 0 (vredFn q m 11)) 11 d va m q s

/-- VPOP (R218). -/
def execVpop (d va : Reg) (m : Mask) (q : Bool) (s : State) : Out :=
  reducePred (fmtR 0x32 d va 0 (vredFn q m 12)) 12 d va m q s

end Sys2Proof.Machine
end

