-- ==== Sys2Proof/Machine/Sync.lean ====
section
/-!
DEFINITION. Fences (spec/18 R270, R279), groups, arrival markers and their phases (R273 to R276, R289) and the barriers (R280).
-/

namespace Sys2Proof.Machine

/-! ### Every strand at once -/

/-- Every strand of the machine. -/
def State.strands (s : State) : List Strand := s.st :: s.bench

/-- An event of R310 reaches the strands that `who` accepts: a WAIT under way will end. -/
def State.wake (s : State) (who : Strand → Bool) : State :=
  s.mapStrands fun t => if t.waiting && who t then { t with woken := true } else t

/-! ### Groups (R273, R275, R289) -/

/-- The group-table index of a strand's slot, while its VALID bit is 1 (R116). -/
def Strand.groupIdx (t : Strand) (g : Nat) : Option Nat :=
  if bitAt t.sr.groups.toNat (32 + g) then some (bitsAt t.sr.groups.toNat (8 * g) 8) else none

/-- The open entry of a context's group table. -/
def State.groupAt (s : State) (ctx idx : Nat) : Option Group :=
  match s.ctx? ctx with
  | none => none
  | some c => afind c.groups idx

def State.groupOf (s : State) (t : Strand) (g : Nat) : Option Group :=
  match t.groupIdx g with
  | none => none
  | some k => s.groupAt t.ctx k

/-- A strand holds a group-table entry in some slot. -/
def Strand.inGroup (t : Strand) (ctx idx : Nat) : Bool := t.ctx == ctx && (List.range 4).any fun g => t.groupIdx g == some idx

/-- A phase completes when ARRC + EXITED reaches N (R275, R289). -/
def Group.phase (g : Group) : Group := { g with c := g.c + 1, arrc := g.arrn, arrn := 0 }

def Group.full (g : Group) : Bool := decide (g.n ≤ g.arrc + g.exited)

/-- The phases that an entry completes, at most two while a member remains. -/
def Group.settle (g : Group) (fuel : Nat) : Group :=
  match fuel with
  | 0 => g
  | fuel + 1 => if g.full && decide (g.exited < g.n) then g.phase.settle fuel else g

/-- An entry of the group table after a change: its phases complete, its members' waits see that (R310), and it closes when
EXITED reaches N (R289). -/
def State.setGroup (s : State) (ctx idx : Nat) (g : Group) : State :=
  let g1 := g.settle 3
  let s1 := s.modCtx ctx fun c => { c with groups := if g1.exited ≥ g1.n then adel c.groups idx else aset c.groups idx g1 }
  if g1.c = g.c then s1 else s1.wake fun t => t.inGroup ctx idx

/-- The scope of a group entry. -/
def Group.scopeOf (g : Group) : Scope := Scope.ofCode g.scope

/-! ### Arrival markers (R274) -/

/-- The matrix operations of a strand that have not completed (R239). -/
def State.mopsOf (s : State) (t : Strand) : List Nat := ((s.cluster t.cluster).mops.filter fun o => o.sid = t.sid).map fun o => o.id

/-- A marker is due once the older passes and matrix operations have completed. -/
def State.markerDue (s : State) (t : Strand) (m : Marker) : Bool :=
  !(t.passes.any fun p => p.serial < m.serial) && !(s.mopsOf t).any m.mops.contains

/-- The scope of the group that a marker arrives at. -/
def State.markerScope (s : State) (t : Strand) (m : Marker) : Scope := ((s.groupOf t m.slot).map Group.scopeOf).getD .core

/-- A marker that is due fires once its release can be made: no write-back of its cluster is held (R60), and at system scope nothing of
what the release covers is owed (R263, R270). -/
def State.markerReady (s : State) (t : Strand) (m : Marker) : Bool :=
  s.markerDue t m &&
  match s.markerScope t m with
  | .core | .clu => true
  | .dev => !s.holdsDirty t.cluster
  | .sys => !s.holdsDirty t.cluster && (s.owedTo (2 * t.sid)).isEmpty

/-- A member's arrival at a phase counted (R289); one at a phase already completed stands in no count. -/
def Group.arrive (g : Group) (phase : Nat) : Group :=
  if phase = g.c then { g with arrc := g.arrc + 1 } else if phase = g.c + 1 then { g with arrn := g.arrn + 1 } else g

/-- An exit as a group counts it, of a member whose first `fired` arrivals have been made: those counted for this member and slot are
withdrawn, and EXITED gains it (R289). -/
def Group.exit (g : Group) (fired : Nat) : Group :=
  { g with
    arrc := g.arrc - (if g.c < fired then 1 else 0)
    arrn := g.arrn - (if g.c + 1 < fired then 1 else 0)
    exited := g.exited + 1 }

/-- A marker of a slot stands in a list. -/
def marksSlot (ms : List Marker) (g : Nat) : Bool := ms.any fun m => m.slot == g

/-- The group after the arrival of a marker, behind which the markers `rest` stand. A strand that is gone counts as exited in a slot once
its last marker there has fired, so that every marker of a phase synchronises with what observes the phase (R275). DEDUCED, log entry
114. -/
def Group.counted (g : Group) (isGone : Bool) (m : Marker) (rest : List Marker) : Group :=
  if isGone && !marksSlot rest m.slot then (g.arrive m.phase).exit (m.phase + 1) else g.arrive m.phase

/-- The oldest marker of the strand fires: a release at the group's scope, and the arrival (R274, R275). -/
def State.fireMarker (s : State) : State :=
  match s.st.markers with
  | [] => s
  | m :: rest =>
    let s1 : State := { s with st := { s.st with markers := rest } }
    match s.st.groupIdx m.slot with
    | none => s1
    | some idx =>
      match s.groupAt s.st.ctx idx with
      | none => s1
      | some g =>
        ((s1.release s.st.cluster g.scopeOf).share (2 * s.st.sid)).setGroup s.st.ctx idx (g.counted (s.st.stand == .none) m rest)

/-- The markers that can fire do so, in placement order. -/
def State.fireReady (s : State) (fuel : Nat) : State :=
  match fuel with
  | 0 => s
  | fuel + 1 =>
    match s.st.markers with
    | [] => s
    | m :: _ => if s.markerReady s.st m then s.fireMarker.fireReady fuel else s

/-- ARRIVAL_MARKER_FIRE (R274): the strand's oldest marker, when it may fire; a pre-empted strand's waits for its restore. One that is due
and whose group has system scope asks for what its release must wait for. -/
def execArrivalMarkerFire (s : State) : Out :=
  match s.st.markers with
  | [] => .next s
  | m :: _ =>
    if s.st.stand ≠ .saved && s.markerReady s.st m then .next s.fireMarker
    else if s.st.stand ≠ .saved && s.markerDue s.st m then runE (releaseAt s.st.cluster (2 * s.st.sid) (s.markerScope s.st m)) s
    else .next s

/-! ### BAR (R280) -/

/-- The word of a barrier member; a suspended pass makes it illegal (R298). Where the slot's group has closed, its member finds a phase count
of 0 and core scope. DESIGN CHOICE, log entry 109. -/
def barrierWord (fn : Nat) (g : Fin 4) (s : State) (k : Group → M Unit) : Out :=
  let w := fmtR 0x34 0 0 (slotReg g) fn
  syncWord w s (match s.st.groupIdx g.val with
    | none => trapWord 0x1A 0 w s
    | some idx => runM (k ((s.groupAt s.st.ctx idx).getD ⟨0, 0, 0, 0, 0, 0⟩)) s)

def Strand.arrived (t : Strand) (g : Fin 4) : Nat := t.arrive.getD g.val 0
def Strand.started (t : Strand) (g : Fin 4) : Nat := t.start.getD g.val 0

/-- BAR.ARRIVE (R274, R276, R280, R289). -/
def execBarArrive (g : Fin 4) (s : State) : Out :=
  barrierWord 0 g s fun e => do
    let a := s.st.arrived g
    if a ≥ e.c + 2 then waitHere
    if a + 1 ≥ 2 ^ 32 then raise 0x1A 0 (BitVec.ofNat 64 (fmtR 0x34 0 0 (slotReg g) 0))
    force
    modify fun s => State.adv { s with st := { s.st with
      markers := s.st.markers ++ [⟨g.val, a, s.st.serial, s.mopsOf s.st⟩]
      arrive := s.st.arrive.set g.val (a + 1) } }

/-- BAR.WAIT (R280): no arrival yet is barrier misuse. -/
def execBarWait (g : Fin 4) (s : State) : Out :=
  barrierWord 1 g s fun e => do
    if s.st.arrived g = s.st.started g then raise 0x1A 0 (BitVec.ofNat 64 (fmtR 0x34 0 0 (slotReg g) 1))
    if e.c < s.st.arrived g then waitHere
    acquireAt s.st.cluster e.scopeOf
    modify State.adv

/-- BAR.TEST (R280): s31 receives the answer. -/
def execBarTest (g : Fin 4) (s : State) : Out :=
  syncWord (fmtR 0x34 0 0 (slotReg g) 2) s <| whenReady [31] s <| barrierWord 2 g s fun e => do
    if s.st.arrived g = s.st.started g then raise 0x1A 0 (BitVec.ofNat 64 (fmtR 0x34 0 0 (slotReg g) 2))
    if e.c ≥ s.st.arrived g then do
      acquireAt s.st.cluster e.scopeOf
      modify fun s => s.put 31 1
    else modify fun s => s.put 31 0

/-! ### Fences (R270, R279) -/

/-- A full fence at a scope (R270): at system scope it waits for the peers and links that its writes went to. -/
def fence (fn : Nat) (sc : Scope) (s : State) : Out :=
  syncWord (fmtR 0x34 0 0 0 fn) s (runM (do
    force
    if (← get).passesInFlight then waitHere
    releaseAt s.st.cluster s.who.owner sc
    acquireAt s.st.cluster sc
    modify State.adv) s)

/-- FENCE.C (R279). -/
def execFenceC (s : State) : Out := fence 3 .core s

/-- FENCE.K (R279). -/
def execFenceK (s : State) : Out := fence 4 .clu s

/-- FENCE.D (R279). -/
def execFenceD (s : State) : Out := fence 5 .dev s

/-- FENCE.S (R279). -/
def execFenceS (s : State) : Out := fence 6 .sys s

end Sys2Proof.Machine
end

