-- ==== Sys2Proof/Machine/Copy.lean ====
section
/-!
DEFINITION. The copy engines (spec/05 R76 to R91): job cards and their checks, the range checker, the movement of data, and
completion.
-/

namespace Sys2Proof.Machine

/-! ### The job card (R77) -/

/-- The fields of a job card. -/
structure Card where
  kind : Nat
  scope : Nat
  fof : Bool
  esize : Nat
  tid : Nat
  rsvd : Nat
  len : Nat
  src : Nat
  dst : Nat
  aux : Nat
  rbase : Nat
  wbase : Nat
  rlen : Nat
  wlen : Nat
  cwa : Nat
  deriving DecidableEq, Repr, Inhabited

def parseCard (ws : List Word) : Card :=
  let dw (i : Nat) := (ws.getD i 0).toNat
  let x := dw 0
  { kind := bitsAt x 0 4, scope := bitsAt x 4 2, fof := bitAt x 6, esize := bitsAt x 8 2, tid := bitsAt x 10 12,
    rsvd := bitsAt x 7 1 + bitsAt x 22 10, len := bitsAt x 32 32, src := dw 1, dst := dw 2, aux := dw 3, rbase := dw 4, wbase := dw 5,
    rlen := bitsAt (dw 6) 0 32, wlen := bitsAt (dw 6) 32 32, cwa := dw 7 }

/-- Bytes of an element of a gather. -/
def Card.size (c : Card) : Nat := 2 ^ c.esize

/-- Bytes of an uncompressed chunk that is not the last (R86). -/
def Desc.fullChunk (d : Desc) : Nat := d.ce * d.bits / 8

/-- The chunks that hold the first `n` bytes of uncompressed data: the one after them lies beyond a short last chunk too (R86). -/
def Desc.chunksOf (d : Desc) (n : Nat) : Nat := (n + max 1 d.fullChunk - 1) / max 1 d.fullChunk

/-- Chunk slots that a decompress job reads (R79, R86). -/
def chunksFor (c : Card) (d : Desc) : Nat := if d.fullChunk = 0 then 0 else d.chunksOf c.len

/-- The range that a job reads, as the table Kinds of job defines it, gathered elements apart; none for a fill. -/
def readRange (c : Card) (d : Desc) : Option Span2 :=
  match c.kind with
  | 0 => some (c.src, c.src + c.len)
  | 2 => some (c.aux, c.aux + 4 * (c.len / c.size))
  | 3 => some (d.elembase + c.src * d.slot, d.elembase + (c.src + chunksFor c d) * d.slot)
  | _ => none

def Card.readFoot (c : Card) : Span2 := (c.rbase, c.rbase + 64 * c.rlen)
def Card.writeFoot (c : Card) : Span2 := (c.wbase, c.wbase + 64 * c.wlen)

def within (a b : Span2) : Bool := decide (a.1 ≥ a.2) || (decide (b.1 ≤ a.1) && decide (a.2 ≤ b.2))
def overlap (a b : Span2) : Bool := decide (max a.1 b.1 < min a.2 b.2)

/-- The checks of R78, but for the descriptor of a decompress. A job with LEN = 0 passes those of its ranges, which are empty, and not those
of the card's fields. Ranges and footprints that run past 2^64 are compared as they are written, without going round.
DESIGN CHOICE, log entries 92 and 119. -/
def Card.ok (c : Card) (d : Desc) : Bool :=
  decide (c.kind ≤ 3) && c.scope != 0 && c.rsvd == 0 && (c.kind == 3 || c.tid == 0) && (c.kind == 2 || (c.esize == 0 && c.aux == 0)) &&
  c.cwa % 32 == 0 && c.rbase % 64 == 0 && c.wbase % 64 == 0 &&
  (c.kind != 2 || (c.src % c.size == 0 && c.aux % c.size == 0 && c.len % c.size == 0)) &&
  (match readRange c d with
   | none => true
   | some r => !overlap r (c.dst, c.dst + c.len) && within r c.readFoot) &&
  within (c.dst, c.dst + c.len) c.writeFoot

/-- Two jobs conflict (R81). -/
def conflicts (a b : Card) : Bool :=
  overlap a.writeFoot b.readFoot || overlap a.writeFoot b.writeFoot || overlap b.writeFoot a.readFoot

def Job.c (j : Job) : Card := parseCard j.card

/-- The completion scope of a card. -/
def jobScope (k : Nat) : Scope := match k with | 2 => .dev | 3 => .sys | _ => .clu

/-- A handle: the count of those given in [32:0], which never is 0, and bits of no stated value (R91, R295).
DESIGN CHOICE, log entry 13. -/
def mkHandle (k : Nat) : Word := ((Config.handleBits k).setWidth 64 <<< 33) + BitVec.ofNat 64 (k % 2 ^ 32 + 1)

/-- Who a job's accesses are made for (R69, R76): no core, so the self alias names none. -/
def Job.who (j : Job) (cluster : Nat) : Who :=
  { cluster := cluster, self := none, tlb := tlbCopy cluster (j.order % 4), tlbCap := 64, asid := bitsAt j.context.toNat 0 16,
    tenant := bitsAt j.context.toNat 16 4, ptb := bitsAt j.ptbase.toNat 24 28 * 2 ^ 24, user := j.user, ctx := j.ctx,
    owner := 2 * j.order + 1 }

def State.modJob (s : State) (c : Nat) (h : Word) (f : Job → Job) : State :=
  s.modCluster c fun x => { x with jobs := x.jobs.map fun k => if k.handle = h then f k else k }

/-! ### Moving data (R79, R80, R83) -/

/-- The size with which a range reaches the accumulator store: one with a base or length that is not a multiple of 4 fails
there (R102). -/
def rangeSize (base len : Nat) : Nat := if base % 4 = 0 ∧ len % 4 = 0 then 8 else 1

/-- One byte read for a job, with its poison (R80); `gather` reads local HBM through Byway (R53, R54). -/
def jobByte (w : Who) (va : Word) (size : Nat) (gather : Bool) : M (Byte × Bool) := do
  let l ← translate w .load va size
  match l with
  | .hbm pa ten =>
    if gather then do
      modify fun s => s.cleanLines w.cluster fun t => t == pa / 64
      let s ← get
      pure ((s.devRead ten pa 1).headD 0, s.linePoison (pa / 64))
    else do
      let (bs, p) ← readLoc w va l 1
      pure (bs.headD 0, p)
  | _ => do
    let (bs, p) ← readLoc w va l 1
    pure (bs.headD 0, p)

/-- The index of a gathered element (R79, R80): its poison is a fault. -/
def jobIndex (w : Who) (c : Card) (i : Nat) : M Int := do
  let bs ← (List.range 4).mapM fun k => do
    let va := BitVec.ofNat 64 (c.aux + 4 * i + k)
    let (b, p) ← jobByte w va (rangeSize c.aux (4 * (c.len / c.size))) false
    if p then raise 0x13 0 (va &&& ~~~ 3)
    pure b
  pure (sgn 32 (leNat bs))

/-- The source of the destination byte at an offset (R79, R82); no access is made for a fill. -/
def jobSource (w : Who) (c : Card) (o : Nat) : M (Byte × Bool) := do
  match c.kind with
  | 0 => jobByte w (BitVec.ofNat 64 (c.src + o)) (rangeSize c.src c.len) false
  | 1 => pure (BitVec.ofNat 8 (c.src / 256 ^ (o % 8)), false)
  | _ => do
    let i ← jobIndex w c (o / c.size)
    let a := BitVec.ofNat 64 c.src + wOfInt (c.size * i)
    if !within (a.toNat, a.toNat + c.size) c.readFoot then raise 0x19 0 a
    let va := a + BitVec.ofNat 64 (o % c.size)
    jobByte w va (rangeSize a.toNat c.size) true

/-- A run of destination bytes of one line. -/
structure JobRun where
  loc : Loc
  bytes : List Byte
  poison : Bool
  deriving DecidableEq, Repr, Inhabited

/-- A byte joined to the runs: a new run begins at each line. -/
def joinRun (runs : List JobRun) (va : Nat) (l : Loc) (b : Byte) (p : Bool) : List JobRun :=
  match runs with
  | r :: rest => if va % 64 = 0 then ⟨l, [b], p⟩ :: r :: rest else { r with bytes := r.bytes ++ [b], poison := r.poison || p } :: rest
  | [] => [⟨l, [b], p⟩]

/-- Marks what a run poisons: its line (R80), or every word of a window that the run touches (R98). A host or peer page has no marks of this
device. DESIGN CHOICE, log entry 79. -/
def State.poisonRun (s : State) (c : Nat) (r : JobRun) : State :=
  match r.loc with
  | .hbm pa _ => s.spoilLine c (pa / 64)
  | .win k => s.spoilWords ((List.range ((k + r.bytes.length + 3) / 4 - k / 4)).map fun i => k / 4 + i)
  | _ => s

/-- What a job has covered of poisoned granules, after a run without poison (R49, R80). -/
def State.coverRun (s : State) (w : Who) (r : JobRun) : State :=
  match (s.cluster w.cluster).jobs.find? fun j => 2 * j.order + 1 = w.owner with
  | none => s
  | some j =>
    let (s1, l) := s.cover w.cluster 0 [(r.loc.place.1, 2 * r.loc.place.2, 2 * r.bytes.length)] j.cover
    s1.modJob w.cluster j.handle fun k => { k with cover := l }

def performRun (w : Who) (r : JobRun) : M Unit := do
  writeLoc w r.loc r.bytes
  modify fun s => if r.poison then s.poisonRun w.cluster r else s.coverRun w r

/-- The bytes of a destination range taken one after another from `src`, each with its source and then its destination: the runs to
be written, or how the lowest failing offset failed (R83). Where the source and the destination of one offset both fail, the source's failure
is reported. DESIGN CHOICE, log entry 105. -/
def gatherRuns (w : Who) (c : Card) (src : Nat → M (Byte × Bool)) (o n : Nat) : M (Except Stop (List JobRun)) :=
  attempt ((List.range n).foldlM (fun (rs : List JobRun) i => do
    let (b, p) ← src (o + i)
    let va := c.dst + o + i
    let l ← translate w .store (BitVec.ofNat 64 va) (rangeSize c.dst c.len)
    pure (joinRun rs va l b p)) [])

/-- How far a job came: bytes written, and its failure. -/
structure JobEnd where
  done : Nat
  fail : Option (Nat × Nat × Word)
  deriving DecidableEq, Repr, Inhabited

/-- The data of a copy, fill or gather, `fuel` times 64 bytes of the destination (R83); an access that must wait ends the turn where it
is. -/
def moveBytes (w : Who) (c : Card) (o fuel : Nat) : M JobEnd := do
  match fuel with
  | 0 => pure ⟨o, none⟩
  | fuel + 1 =>
    if o ≥ c.len then pure ⟨c.len, none⟩
    else
      let n := min 64 (c.len - o)
      match ← gatherRuns w c (jobSource w c) o n with
      | .ok rs => do
        rs.reverse.forM (performRun w)
        moveBytes w c (o + n) fuel
      | .error .wait => pure ⟨o, none⟩
      | .error (.trap k d v) => pure ⟨o, some (k, d, v)⟩

/-- The headers of the blocks that supply an element of a chunk, of `bytes` bytes, to a job, read and checked (R86, R180). DEDUCED, log
entry 82. -/
def jobHeaders (w : Who) (c : Card) (d : Desc) (j bytes : Nat) : M Unit :=
  if d.ty < 11 then pure ()
  else
    let els := (List.range (min (d.chunkCount j) ((bytes * 8 + d.bits - 1) / d.bits))).map fun i => j * d.ce + i
    let bl := els.map fun i => (i / d.cols, i % d.cols / 32)
    bl.eraseDups.forM fun b => do
      let va := d.hdrAddr b.1 b.2
      let h ← loadAt w va 4
      let _ ← checkHeader w d c.tid h va
      pure ()

/-- One chunk of a decompress, decoded and checked (R86 to R89), with the headers of its blocks. A LEN that reaches past the tensor's last
chunk finds no chunk of any expected length there. DESIGN CHOICE, log entry 80. -/
def jobChunk (w : Who) (c : Card) (d : Desc) (j bytes : Nat) : M (List Byte) := do
  if j * d.ce ≥ d.rows * d.cols then raise 0x11 10 (d.slotAddr j)
  let (bs, good, _) ← readChunk w 8 d j
  if !good then raise 0x10 0 (d.slotAddr j)
  jobHeaders w c d j bytes
  pure bs

/-- The data of a decompress, `fuel` chunks (R83, R89); an access that must wait ends the turn where it is. -/
def moveChunks (w : Who) (c : Card) (d : Desc) (j o fuel : Nat) : M JobEnd := do
  match fuel with
  | 0 => pure ⟨o, none⟩
  | fuel + 1 =>
    if o ≥ c.len then pure ⟨c.len, none⟩
    else
      let step : M (Except Stop (List JobRun × Nat)) := attempt (do
        let bs ← jobChunk w c d j (c.len - o)
        let arr := bs.toArray
        let n := min bs.length (c.len - o)
        match ← gatherRuns w c (fun k => pure (arr.getD (k - o) 0, false)) o n with
        | .ok rs => pure (rs, n)
        | .error e => throw e)
      match ← step with
      | .ok (rs, n) => do
        rs.reverse.forM (performRun w)
        moveChunks w c d (j + 1) (o + n) fuel
      | .error .wait => pure ⟨o, none⟩
      | .error (.trap k x v) => pure ⟨o, some (k, x, v)⟩

/-- The first units of the data of a job that it has not moved yet (R79), 64 bytes of the destination or a chunk each, or all of them: one
step. DESIGN CHOICE, log entry 66. -/
def moveJob (cluster : Nat) (j : Job) (n : Option Nat) : M JobEnd := do
  let w := j.who cluster
  let c := j.c
  let d := parseDesc j.desc
  if c.kind = 3 then moveChunks w c d (c.src + d.chunksOf j.done) j.done (n.getD (c.len + 1))
  else moveBytes w c j.done (n.getD (c.len / 64 + 2))

/-- The job with its end (R83): SHORT for a translation fault under FOF. A decode error and a header's failed check give a DETAIL (R84,
R180). DEDUCED, log entry 82. -/
def Job.endWith (j : Job) (e : JobEnd) : Job :=
  match e.fail with
  | none => { j with st := .ended, done := e.done, status := 1 }
  | some (k, d, v) =>
    { j with
      st := .ended
      done := e.done
      status := if j.c.fof && (k == 5 || k == 6) then 2 else 3
      cause := k
      detail := if k = 0x11 ∨ k = 0x0E then d else 0
      eva := v }

/-! ### The range checker (R81) -/

def Cluster.job? (x : Cluster) (h : Word) : Option Job := x.jobs.find? fun j => j.handle = h ∧ j.st ≠ .settled

/-- The jobs that the engines of a cluster have taken and not ended. -/
def Cluster.engaged (x : Cluster) : Nat := (x.jobs.filter fun k => k.st == .running).length

/-- A job may start: one of the 4 engines is free (R76), and no earlier conflicting job of its context stands before it. -/
def Cluster.mayStart (x : Cluster) (j : Job) : Bool :=
  decide (x.engaged < 4) &&
  !(x.jobs.any fun k => k.ctx == j.ctx && decide (k.order < j.order) && k.st != .settled && conflicts k.c j.c)

/-- Earlier conflicting jobs that completed at cluster scope are performed at device scope before a job starts. -/
def settleFor (c : Nat) (j : Job) : M Unit := do
  if ((← get).cluster c).jobs.any fun k => k.st == .settled && k.ctx == j.ctx && conflicts k.c j.c then do
    holdDirty c .dev
    modify fun s => (s.writeBackAll c).modCluster c fun x => { x with jobs := x.jobs.filter fun k => k.st ≠ .settled }
  else pure ()

/-- The job after a turn of its engine: it has ended, or goes on. -/
def Job.after (j : Job) (e : JobEnd) : Job :=
  if e.fail.isNone && decide (e.done < j.c.len) then { j with st := .running, done := e.done } else j.endWith e

/-- JOB_START (R81): a job that may start does so, and one that has started goes on, for some units of its data or to its end. -/
def execJobStart (c : Nat) (x : JobTurn) (s : State) : Out :=
  match (s.cluster c).job? (BitVec.ofNat 64 x.handle) with
  | none => .next s
  | some j =>
    if j.st = .running ∨ (j.st = .queued ∧ (s.cluster c).mayStart j) then
      runE (do
        if j.st = .queued then settleFor c j
        let e ← moveJob c j x.units
        modify fun s => s.modJob c j.handle fun k => k.after e) s
    else .next s

/-! ### Completion (R84) -/

/-- The completion word of a job. -/
def Job.word (j : Job) : Nat := j.done * 2 ^ 32 + j.c.scope * 2 ^ 24 + j.detail * 2 ^ 16 + j.cause * 2 ^ 8 + j.status

/-- The writes of a completion: the release at the card's scope, the two dwords of a FAULT, the completion word (R84). -/
def writeCompletion (c : Nat) (j : Job) (w : Who) : M Unit := do
  let sc := jobScope j.c.scope
  let at1 (off v : Nat) : M Unit := do
    let va := BitVec.ofNat 64 (j.c.cwa + off)
    let l ← translate w .store va 8
    pointWrite w sc l 8 v
  releaseAt c (j.who c).owner sc
  if j.status = 3 then do
    at1 8 j.eva.toNat
    at1 16 j.cardVa.toNat
  at1 0 j.word

/-- A job leaves the queue: one of cluster scope stays known to the range checker; a SHORT queues its background fault, if there is
room (R301); waits of its context in the cluster see the word (R310). -/
def State.dropJob (s : State) (c : Nat) (j : Job) : State :=
  let s1 := s.modCluster c fun x => { x with
    jobs := x.jobs.filterMap fun k =>
      if k.handle = j.handle then (if j.c.scope = 1 then some { k with st := .settled } else none) else some k
    bg := if j.status = 2 ∧ x.bg.length < 64 then x.bg ++ [⟨j.eva, j.context, j.cardVa⟩] else x.bg }
  s1.wake fun t => t.ctx == j.ctx && t.cluster == c

/-- The completion of a job, its words written as accesses of `w`; the answer is the address at which its completion area failed. -/
def completeJob (c : Nat) (j : Job) (w : Who) : M (Option Word) := do
  match ← attempt (writeCompletion c j w) with
  | .error .wait => throw Stop.wait
  | .ok _ => do
    modify fun s => s.dropJob c j
    pure none
  | .error (.trap _ _ v) => do
    modify fun s => s.dropJob c j
    pure (some v)

/-- A job as XCANCEL or the end of its context stops it (R76, R91): it has written whole units of 64 bytes, or whole chunks. One whose data
has already ended DONE, SHORT or FAULT, but whose completion word is not written yet, is CANCELLED too. DESIGN CHOICE, log entry 104. -/
def Job.cancelled (j : Job) : Job := { j with st := .ended, status := 4, cause := 0, detail := 0 }

/-! ### XENG (R91) -/

/-- The strand's XCOPY in progress. -/
def State.setCopying (s : State) (c : Option Copying) : State := { s with st := { s.st with copying := c } }

/-- A job card read and checked (R78). The descriptor of a decompress is read before the checks, so that its fault wins over cause 0x19.
DESIGN CHOICE, log entry 87. -/
def readCard (w : Who) (tdt va : Word) : M (List Word × List Byte) := do
  aligned va 64
  let ws ← loadDwords w va 8
  let c := parseCard ws
  let desc ← (if c.kind = 3 then readDesc w tdt c.tid else pure [])
  if !(c.ok (parseDesc desc) && (c.kind != 3 || descValid (parseDesc desc) .chunked none)) then raise 0x19 0 va
  pure (ws, desc)

/-- The first part of XCOPY, up to its wait for the queue (R91): the card is read and checked once, then comes the release, and then the
completion word becomes PENDING. An XCOPY that waits keeps what it has done. DEDUCED, log entry 76. -/
def beginCopy (va : Word) : M Copying := do
  let s ← get
  let c ← (match s.st.copying.filter fun c => c.pc == s.st.pc with
    | some c => pure c
    | none => do
      let (ws, desc) ← readCard s.who s.st.sr.tdtbase va
      let c : Copying := ⟨s.st.pc, ws, desc, false, false⟩
      modify fun t => t.setCopying (some c)
      pure c)
  if !c.released then do
    releaseAt s.st.cluster s.who.owner .clu
    modify fun t => t.setCopying (some { c with released := true })
  if !c.posted then do
    storeAt s.who (BitVec.ofNat 64 (parseCard c.card).cwa) 8 0
    modify fun t => t.setCopying (some { c with released := true, posted := true })
  pure c

/-- The queue of a cluster's copy engines is full: every job that is not over for its context holds a place. DESIGN CHOICE, log entry 84. -/
def Cluster.queueFull (x : Cluster) : Bool := decide (128 ≤ (x.jobs.filter fun j => j.st ≠ .settled).length)

/-- A job joins the queue of its cluster with what its strand captures (R76). -/
def State.acceptJob (s : State) (va : Word) (ws : List Word) (desc : List Byte) : State :=
  let k := s.sys.nextJob
  let j : Job := ⟨mkHandle k, s.st.ctx, k, s.st.sr.context, s.st.sr.ptbase, s.st.mode == .u, s.st.sr.tdtbase, va, ws, desc,
    .queued, 0, 0, 0, 0, 0, []⟩
  (s.modSys fun y => { y with nextJob := k + 1 }).modCluster s.st.cluster fun x => { x with jobs := x.jobs ++ [j] }

/-- XCOPY (R76, R78, R91): the job is accepted once there is room. -/
def execXcopy (d a : Reg) (s : State) : Out :=
  let va := s.reg a
  whenReady [d, a] s <| runM (do
    let c ← beginCopy va
    if ((← get).cluster s.st.cluster).queueFull then waitHere
    modify fun t => ((t.setCopying none).acceptJob va c.card c.desc).put d (mkHandle t.sys.nextJob)) s

/-- The copy of a completion word in the cluster's cache is evicted, so that the next read fetches it (R92, R265). -/
def State.refetch (s : State) (l : Loc) : State := match l with | .hbm pa _ => s.flushLine s.st.cluster (pa / 64) | _ => s

/-- A completion word read by the strand (R91). -/
def readCompletion (va : Word) : M Nat := do
  aligned va 32
  let w ← loadAt (← get).who va 8
  if w % 256 = 0 then do
    let l ← translate (← get).who .load va 8
    modify fun s => s.refetch l
  else acquireAt (← get).st.cluster (jobScope (bitsAt w 24 2))
  pure w

/-- XWAIT: it waits while the word is PENDING; a FAULT is cause 0x19 with EVA the dword at CWA + 8. -/
def execXwait (d a : Reg) (s : State) : Out :=
  let va := s.reg a
  whenReady [d, a] s <| runM (do
    let w ← readCompletion va
    if w % 256 = 0 then waitHere
    if w % 256 = 3 then do
      let v ← loadAt s.who (va + 8) 8
      raise 0x19 0 (BitVec.ofNat 64 v)
    modify fun t => t.put d (BitVec.ofNat 64 w)) s

/-- XPOLL: the word as it stands. -/
def execXpoll (d a : Reg) (s : State) : Out :=
  whenReady [d, a] s <| runM (do
    let w ← readCompletion (s.reg a)
    modify fun t => t.put d (BitVec.ofNat 64 w)) s

end Sys2Proof.Machine
end

