-- ==== Sys2Proof/Machine/Matrix.lean ====
section
/-!
DEFINITION. The matrix engine (spec/14): the issue of the MATRIX members, and what a queued MMA or MZERO computes. The events
that run and complete queued operations, and end a slot period, stand in Events.lean.
-/

namespace Sys2Proof.Machine

/-! ### Control of the engine (R246) -/

def matrixFault {α : Type} (detail w : Nat) : M α := raise 0x12 detail (BitVec.ofNat 64 w)

def mxWord (d a b : Reg) (fn : Nat) : Nat := fmtR 0x33 d a b fn

/-- A bit at or above a count. -/
def bitsAbove (x n : Nat) : Bool := x / 2 ^ n != 0

/-- MTARGET (R246, detail 2 of R243). -/
def execMtarget (a : Reg) (s : State) : Out :=
  let w := mxWord 0 a 0 3
  let x := (s.reg a).toNat
  matrixWord w s <| runM (do
    if bitsAbove x (min 24 (s.liveCores s.st.cluster)) then matrixFault 2 w
    modify fun s => State.adv { s with st := { s.st with mtarget := BitVec.ofNat 24 x } }) s

/-- MSHAPE (R246, detail 1 of R243). -/
def execMshape (a b : Reg) (s : State) : Out :=
  let w := mxWord 0 a b 4
  let m := (s.reg a).toNat
  let n := (s.reg b).toNat
  matrixWord w s <| runM (do
    if m < 1 ∨ 256 < m ∨ n < 1 ∨ 256 < n then matrixFault 1 w
    modify fun s => State.adv { s with st := { s.st with mm := m, mn := n } }) s

/-- The distinct ASIDs of the valid entries of a slot table (R244). -/
def slotAsids (t : List (Nat × Nat)) : List Nat :=
  ((t.filter fun e => bitAt e.2 16).map fun e => e.2 % 2 ^ 16).eraseDups

/-- The slot of this period of TIMER becomes active in an MCC with the entry that it holds as the period begins (R244). -/
def State.latchSlot (s : State) (c : Nat) : State :=
  let p := s.timer / 80000
  if (s.cluster c).period = p then s
  else s.modCluster c fun x => { x with period := p, active := aget 0 x.slots (p % 16) }

/-- MSLOT (R246, detail 9 of R243): the new entry counts from the next slot period. -/
def execMslot (d a b : Reg) (s : State) : Out :=
  let w := mxWord d a b 5
  let k := (s.reg a).toNat
  let v := (s.reg b).toNat
  matrixWord w s <| privileged w s <| runM (do
    let t := (s.cluster s.st.cluster).slots
    if k > 15 ∨ v / 2 ^ 17 ≠ 0 ∨ (slotAsids (aset t k v)).length > 8 then matrixFault 9 w
    modify fun s => ((s.latchSlot s.st.cluster).modCluster s.st.cluster fun x => { x with slots := aset x.slots k v }).put d (BitVec.ofNat 64 (aget 0 t k))) s

/-- MSYNC (R246): it waits for the strand's own operations, then reads and clears the overflow bits of a tensor id. -/
def execMsync (d a : Reg) (s : State) : Out :=
  let v := s.reg a
  matrixWord (mxWord d a 0 2) s <| runM (do
    if v.toNat / 2 ^ 12 ≠ 0 then raise 0x0F 0 v
    if !(s.mopsOf s.st).isEmpty then waitHere
    let x := s.cluster s.st.cluster
    let mine := x.overflow.filter fun o => o.1 = s.st.ctx ∧ o.2.2 = v.toNat
    modify fun s => (s.modCluster s.st.cluster fun x => { x with overflow := x.overflow.filter fun o => !mine.contains o }).put d
      (BitVec.ofNat 64 ((List.range 24).foldl (fun m c => if mine.any fun o => o.2.1 = c then m + 2 ^ c else m) 0))) s

/-! ### The operands (R228 to R231) -/

/-- A descriptor of an operand (R230): EVA is its address where it is not valid. -/
def mxDesc (tid : Nat) : M (List Byte) := do
  let s ← get
  let bs ← readDesc s.who s.st.sr.tdtbase tid
  if descValid (parseDesc bs) .plain none then pure bs else raise 0x0F 0 (descAddr s.st.sr.tdtbase tid)

/-- The kinds of operand type in the table Matrix type pairings. -/
inductive MKind where
  | f64 | f32 | half | byte | nibble | int
  deriving DecidableEq, Repr, Inhabited

def mkindOf (ty : Nat) : Option MKind :=
  match Ty.ofCode ty with
  | some .f64 => some .f64
  | some .f32 => some .f32
  | some .f16 | some .bf16 => some .half
  | some .e4m3 | some .e5m2 | some .ch8 => some .byte
  | some .e2m1 | some .ch4 => some .nibble
  | some .i8 => some .int
  | _ => none

/-- The accumulator type and the k-block length of a pair of types (R229). -/
def pairing (a b : Nat) : Option (Nat × Nat) :=
  match mkindOf a, mkindOf b with
  | some .f64, some .f64 => some (7, 4)
  | some .f32, some .f32 => some (6, 8)
  | some .half, some .half => some (6, 32)
  | some .byte, some .byte | some .byte, some .nibble | some .nibble, some .byte | some .nibble, some .nibble => some (6, 32)
  | some .int, some .int => some (2, 32)
  | _, _ => none

/-- The fields of a cluster-window address (R16). -/
def winCore (a : Nat) : Nat := bitsAt a 24 5
def winOff (a : Nat) : Nat := bitsAt a 0 24

/-- An array of a scratchpad operand: in the window, on a core `ok` accepts, wholly below offset 0x40_0000 (R230). -/
def inScratch (ok : Nat → Bool) (base len : Nat) : Bool :=
  base / 2 ^ 29 == Config.winBase && ok (winCore base) && decide (winOff base + len ≤ 0x400000)

/-- Bytes from the base of an array to its end. -/
def Desc.elemBytes (d : Desc) : Nat := (d.rows - 1) * d.pitch + d.rowBytes
def Desc.hdrBytes (d : Desc) : Nat := (d.rows - 1) * d.hpitch + 4 * d.blocks

/-- An ordinary virtual address: canonical, and not of the cluster window (R16, R62). -/
def ordinary (a : Nat) : Bool := canonical (BitVec.ofNat 64 a) && !isWindow (BitVec.ofNat 64 a)

/-- A or B placed as R230 asks, its level tables among them; `self` is the rule of a local B. -/
def placedIn (live : Nat) (self : Bool) (d : Desc) : Bool :=
  let ok (c : Nat) : Bool := if self then c == 31 else decide (c < live)
  inScratch ok d.elembase d.elemBytes && (decide (d.ty < 11) || inScratch ok d.hdrbase d.hdrBytes) && ordinary d.poolbase

/-- C placed as R230 asks. -/
def placedC (d : Desc) : Bool :=
  d.elembase / 2 ^ 29 == Config.winBase && winCore d.elembase == 31 && decide (0x800000 ≤ winOff d.elembase) &&
  d.elembase % 64 == 0 && d.pitch % 64 == 0 && decide (winOff d.elembase + d.elemBytes ≤ 0x1000000)

/-- The queue of an MCC holds 32 operations that have not completed (R240). -/
def mxRoom : M Unit := do
  let s ← get
  if (s.cluster s.st.cluster).mops.length ≥ 32 then waitHere else pure ()

/-- An operation joins the queue of its MCC (R237, R240). -/
def enqueueMop (o : MOp) : M Unit := do
  mxRoom
  modify fun s =>
    let k := s.sys.nextMop
    ((s.modSys fun y => { y with nextMop := k + 1 }).modCluster s.st.cluster fun x =>
      { x with mops := x.mops ++ [{ o with id := k }] }).adv

/-- What an operation captures at issue (R227, R245), with the address space and the mode of its reads of level tables (R241).
DESIGN CHOICE, log entry 120. -/
def mkMop (t : Strand) (zero : Bool) (tids : Nat × Nat × Nat) (descs : List Byte × List Byte × List Byte) (a b : Nat)
    (acc bloc : Bool) : MOp :=
  { id := 0, sid := t.sid, ctx := t.ctx, launch := t.launch, pc := t.pc, zero := zero, asid := bitsAt t.sr.context.toNat 0 16,
    context := t.sr.context, ptbase := t.sr.ptbase, user := t.mode == .u, tids := tids, descs := descs, acc := acc, bloc := bloc,
    row0 := bitsAt a 0 16, k0 := bitsAt a 16 16, col0 := bitsAt a 32 16, crow0 := bitsAt b 16 16, ccol0 := bitsAt b 32 16,
    kcnt := bitsAt b 0 16, m := t.mm, n := t.mn, mask := t.mtarget, started := false, kdone := 0,
    heads := [], accs := [], failed := 0, done := false }

/-- The C tile lies within C (R231). -/
def tileFits (d : Desc) (o : MOp) : Bool := decide (o.crow0 + o.m ≤ d.rows) && decide (o.ccol0 + o.n ≤ d.cols)

/-- MMA at issue (R245). -/
def execMma (d a b : Reg) (s : State) : Out :=
  let w := mxWord d a b 0
  let x := (s.reg d).toNat
  let y := (s.reg a).toNat
  let z := (s.reg b).toNat
  matrixWord w s <| runM (do
    if x / 2 ^ 38 ≠ 0 ∨ y / 2 ^ 48 ≠ 0 ∨ z / 2 ^ 48 ≠ 0 then matrixFault 4 w
    if s.st.mtarget = 0 then matrixFault 3 w
    let ba ← mxDesc (bitsAt x 0 12)
    let bb ← mxDesc (bitsAt x 12 12)
    let bc ← mxDesc (bitsAt x 24 12)
    let da := parseDesc ba
    let db := parseDesc bb
    let dc := parseDesc bc
    match pairing da.ty db.ty with
    | none => matrixFault 5 w
    | some (t, _) => if t = dc.ty then pure () else matrixFault 5 w
    let live := s.liveCores s.st.cluster
    if !(placedIn live false da && placedIn live (bitAt x 36) db && placedC dc) then matrixFault 6 w
    let o := mkMop s.st false (bitsAt x 0 12, bitsAt x 12 12, bitsAt x 24 12) (ba, bb, bc) y z (bitAt x 37) (bitAt x 36)
    if !tileFits dc o then matrixFault 7 w
    enqueueMop o) s

/-- MZERO at issue (R246). -/
def execMzero (d b : Reg) (s : State) : Out :=
  let w := mxWord d 0 b 1
  let x := (s.reg d).toNat
  let z := (s.reg b).toNat
  matrixWord w s <| runM (do
    if x % 2 ^ 24 ≠ 0 ∨ x / 2 ^ 36 ≠ 0 ∨ z % 2 ^ 16 ≠ 0 ∨ z / 2 ^ 48 ≠ 0 then matrixFault 4 w
    if s.st.mtarget = 0 then matrixFault 3 w
    let bc ← mxDesc (bitsAt x 24 12)
    let dc := parseDesc bc
    if !(dc.ty = 2 ∨ dc.ty = 6 ∨ dc.ty = 7) then matrixFault 5 w
    if !placedC dc then matrixFault 6 w
    let o := mkMop s.st true (0, 0, bitsAt x 24 12) ([], [], bc) 0 z false false
    if !tileFits dc o then matrixFault 7 w
    enqueueMop o) s

/-! ### Execution (R232 to R236, R241) -/

/-- The physical core of a logical one. -/
def State.physCore (s : State) (c k : Nat) : Nat := ((s.cluster c).logical[k]?).getD 0

/-- The key of a window byte of a logical core. -/
def State.coreKeyAt (s : State) (c k off : Nat) : Nat := c * 2 ^ 29 + s.physCore c k * 2 ^ 24 + off

/-- The logical core that holds an array of an operand, for a target (R230, R18). -/
def coreFor (base t : Nat) : Nat := if winCore base = 31 then t else winCore base

def MOp.a (o : MOp) : Desc := parseDesc o.descs.1
def MOp.b (o : MOp) : Desc := parseDesc o.descs.2.1
def MOp.c (o : MOp) : Desc := parseDesc o.descs.2.2

/-- Rows, columns and k indices of the tile that are not padding (R231). -/
def MOp.rowsIn (o : MOp) : Nat := min o.m (o.a.rows - o.row0)
def MOp.colsIn (o : MOp) : Nat := min o.n ((if o.b.bt then o.b.rows else o.b.cols) - o.col0)
def MOp.ksIn (o : MOp) : Nat := min o.kcnt (min (o.a.cols - o.k0) ((if o.b.bt then o.b.cols else o.b.rows) - o.k0))

/-- The place in B of product index k and column j (R186, R231). -/
def MOp.bPos (o : MOp) (k j : Nat) : Nat × Nat := if o.b.bt then (o.col0 + j, o.k0 + k) else (o.k0 + k, o.col0 + j)

/-- The logical cores that an operation works for. -/
def MOp.targets (o : MOp) : List Nat := (List.range 24).filter fun t => bitAt o.mask.toNat t

/-- The logical cores whose stores an operation names (R240). -/
def MOp.names (o : MOp) (k : Nat) : Bool :=
  o.targets.contains k ||
  (!o.zero && [o.a.elembase, o.a.hdrbase, o.b.elembase, o.b.hdrbase].any fun b => b / 2 ^ 29 == Config.winBase && winCore b == k)

/-- The blocks of headers of an operand from (row, col) over `r` rows and `c` columns, in ascending order. -/
def hdrPlaces (row col r c : Nat) : List (Nat × Nat) :=
  if r = 0 ∨ c = 0 then []
  else (List.range r).flatMap fun i => (List.range ((col + c - 1) / 32 - col / 32 + 1)).map fun b => (row + i, col / 32 + b)

/-- The headers of an operand that supply a product that is not padding (R231, R241): which, target, row, block. -/
def MOp.hdrs (o : MOp) : List (Nat × Nat × Nat × Nat) :=
  if o.rowsIn = 0 ∨ o.colsIn = 0 ∨ o.ksIn = 0 then []
  else
    let forA := if o.a.ty < 11 then [] else (hdrPlaces o.row0 o.k0 o.rowsIn o.ksIn).map fun p => (0, 0, p)
    let places := if o.b.bt then hdrPlaces o.col0 o.k0 o.colsIn o.ksIn else hdrPlaces o.k0 o.col0 o.ksIn o.colsIn
    let ts := if o.bloc then o.targets else [0]
    let forB := if o.b.ty < 11 then [] else ts.flatMap fun t => places.map fun p => (1, t, p)
    forA ++ forB

/-- Who a matrix operation reads level tables for (R69, R230). -/
def MOp.who (o : MOp) (c : Nat) : Who :=
  { cluster := c, self := none, tlb := tlbScalar c Config.mccCore, tlbCap := 32, asid := o.asid,
    tenant := bitsAt o.context.toNat 16 4, ptb := bitsAt o.ptbase.toNat 24 28 * 2 ^ 24, user := o.user, ctx := o.ctx,
    owner := 2 * o.sid }

/-- A header read and checked (R180, R241); poison is no trap (R236). DEDUCED, log entry 47. A level table at a non-canonical address fails
with cause 0x1D as a read at another fault does with its own. DESIGN CHOICE, log entry 121. -/
def readHdr (c : Nat) (o : MOp) (k : Nat × Nat × Nat × Nat) : M MHdr := do
  let (which, t, row, blk) := k
  let d := if which = 0 then o.a else o.b
  let s ← get
  let va := d.hdrAddr row blk
  let key := s.coreKeyAt c (coreFor va.toNat t) (winOff va.toNat)
  if s.winPoisoned key 4 then pure ⟨k, 0, [], true⟩
  else
    let h := leNat (s.winRead key 4)
    match ← attempt (checkHeader (o.who c) d (if which = 0 then o.tids.1 else o.tids.2.1) h va) with
    | .ok ls => pure ⟨k, h, ls, false⟩
    | .error (.trap 0x13 _ _) => pure ⟨k, h, [], true⟩
    | .error e => throw e

/-- The exact value of an operand, and whether it is poisoned (R232). -/
def operandAt (s : State) (c : Nat) (d : Desc) (which t : Nat) (hs : List MHdr) (row col : Nat) : FVal × Bool :=
  let (off, nib) := d.elemOff row col
  let n := max 1 (d.bits / 8)
  let va := (BitVec.ofNat 64 (d.elembase + off)).toNat
  let key := s.coreKeyAt c (coreFor d.elembase t) (winOff va)
  let code := (if d.bits = 4 then leNat (s.winRead key 1) / 16 ^ nib % 16 else leNat (s.winRead key n))
  let bad := s.winPoisoned key n
  match Ty.ofCode d.ty with
  | some .i8 => (ofIntF (sgn 8 code), bad)
  | some .ch8 | some .ch4 =>
    (match hs.find? fun h => h.key = (which, t, row, col / 32) with
     | some h => (chanterVal d.bits h.h code (h.levels.getD code 0), bad || h.poison)
     | none => (.num false 0 0 false, bad))
  | some ty =>
    (match tyFmt ty with
     | some f => ((decodeF f code).scale d.scale, bad)
     | none => (.num false 0 0 false, bad))
  | none => (.num false 0 0 false, bad)

/-- One block sum (R233 to R235): `xs` are its products. One that used poisoned data sets the sticky bit by what was computed with the codes
that stand there (R236). DESIGN CHOICE, log entry 100. -/
def blockSum (tc : Nat) (acc : Accum) (xs : List (FVal × Bool)) : Accum :=
  if xs.isEmpty then acc
  else
    let bad := acc.poison || xs.any fun x => x.2
    let vs := xs.map fun x => x.1
    if tc = 2 then
      let total := match sumFinite .rne (ofIntF (sgn 32 acc.code) :: vs) with
        | .num neg m e _ => let v : Int := (m * pow2 e : Nat); if neg then -v else v
        | _ => 0
      let r := max (-(2 ^ 31)) (min (2 ^ 31 - 1) total)
      ⟨unsgn 32 r, bad, r != total⟩
    else
      let f := if tc = 7 then fmtF64 else fmtF32
      let ws := decodeF f acc.code :: vs
      let (r, _) := finish f .rne (sumF .rne ws)
      ⟨r, bad, ws.all FVal.isFinite && (decodeF f r).isInf⟩

/-- The key of element (i, j) of the C tile on a target, and the element's bytes (R103). -/
def tileKey (s : State) (c : Nat) (o : MOp) (t i j : Nat) : Nat × Nat :=
  let d := o.c
  let n := d.bits / 8
  (s.coreKeyAt c t (winOff d.elembase + (o.crow0 + i) * d.pitch + (o.ccol0 + j) * n), n)

/-- An element of the C tile written; a poisoned one takes a value that is not stated (R236). DESIGN CHOICE, log entry 48. -/
def writeTile (s : State) (key n : Nat) (a : Accum) : State :=
  if a.poison then
    let v := (Config.poisonedValue s.free).toNat % 256 ^ n
    let s1 : State := { s.winWrite key (leBytes n v) with free := s.free + 1 }
    s1.spoilWords ((List.range (n / 4)).map fun i => key / 4 + i)
  else s.winWrite key (leBytes n a.code)

/-- The overflow set of an MCC with a bit set (R235). -/
def State.setOverflow (s : State) (c ctx t tid : Nat) : State :=
  s.modCluster c fun x => { x with overflow := if x.overflow.contains (ctx, t, tid) then x.overflow else (ctx, t, tid) :: x.overflow }

/-- The k-block length of an operation (R229), and how many it has: with K = 0 each element is still written once (R233). -/
def MOp.kb (o : MOp) : Nat := ((pairing o.a.ty o.b.ty).map fun p => p.2).getD 32
def MOp.kblocks (o : MOp) : Nat := max 1 ((o.kcnt + o.kb - 1) / o.kb)

/-- The elements of the tile on every target: target, row, column. -/
def MOp.places (o : MOp) : List (Nat × Nat × Nat) :=
  o.targets.flatMap fun t => (List.range o.m).flatMap fun i => (List.range o.n).map fun j => (t, i, j)

/-- The accumulators as an operation begins (R233). -/
def MOp.firstAccs (o : MOp) (s : State) (c : Nat) : List Accum :=
  o.places.map fun p =>
    let (key, n) := tileKey s c o p.1 p.2.1 p.2.2
    if o.acc then ⟨leNat (s.winRead key n), s.winPoisoned key n, false⟩ else ⟨0, false, false⟩

/-- The k indices of the next block whose products are not padding, as their first and how many (R231, R233). -/
def MOp.blockKs (o : MOp) : Nat × Nat :=
  let lo := o.kdone * o.kb
  (lo, min (lo + o.kb) o.ksIn - lo)

/-- The next block has a sum to make on each target. -/
def MOp.hasSum (o : MOp) : Bool := decide (0 < o.rowsIn) && decide (0 < o.colsIn) && decide (0 < o.blockKs.2)

/-- The operands of A by row, and of B by column for a target, over the next block. -/
def MOp.aBlock (o : MOp) (s : State) (c : Nat) : Array (Array (FVal × Bool)) :=
  let (lo, n) := o.blockKs
  ((List.range o.rowsIn).map fun i => ((List.range n).map fun k =>
    operandAt s c o.a 0 0 o.heads (o.row0 + i) (o.k0 + lo + k)).toArray).toArray

def MOp.bBlock (o : MOp) (s : State) (c t : Nat) : Array (Array (FVal × Bool)) :=
  let (lo, n) := o.blockKs
  ((List.range o.colsIn).map fun j => ((List.range n).map fun k =>
    let p := o.bPos (lo + k) j
    operandAt s c o.b 1 (if o.bloc then t else 0) o.heads p.1 p.2).toArray).toArray

/-- The products of an element over a block; an element of padding has none. -/
def productsOf (ra rb : Array (Array (FVal × Bool))) (i j : Nat) : List (FVal × Bool) :=
  if i < ra.size ∧ j < rb.size then
    let x := ra.getD i #[]
    let y := rb.getD j #[]
    (List.range x.size).map fun k =>
      let p := x.getD k default
      let q := y.getD k default
      ((mulF p.1 q.1).1, p.2 || q.2)
  else []

/-- The next k-block of an operation on every target (R233, R245): each element is written once (R104). A target of `bad` whose block
failed three times takes its tile as poisoned (R242), and a sum that was discarded there sets no sticky bit. DESIGN CHOICE, log entry 86. -/
def runBlock (c : Nat) (o : MOp) (bad : BitVec 24) (s : State) : State × MOp :=
  let failed := if o.hasSum then o.failed ||| (bad &&& o.mask) else o.failed
  let ra := o.aBlock s c
  let shared := o.bBlock s c 0
  let bs := o.targets.map fun t => (t, if o.bloc then o.bBlock s c t else shared)
  let (s1, accs) := (o.places.zip o.accs).foldl (fun (q : State × List Accum) (x : (Nat × Nat × Nat) × Accum) =>
    let (t, i, j) := x.1
    let a := blockSum o.c.ty x.2 (productsOf ra (aget #[] bs t) i j)
    let a1 : Accum := { a with poison := a.poison || bitAt failed.toNat t }
    let (key, n) := tileKey s c o t i j
    let s1 := writeTile q.1 key n a1
    (if a.excess && !bitAt failed.toNat t then s1.setOverflow c o.ctx t o.tids.2.2 else s1, { a1 with excess := false } :: q.2)) (s, [])
  (s1, { o with accs := accs.reverse, kdone := o.kdone + 1, failed := failed })

/-- Up to `n` k-blocks of an operation; the targets of `bad` fail at the first that has a sum. -/
def runBlocks (c : Nat) (o : MOp) (bad : BitVec 24) (n : Nat) (s : State) : State × MOp :=
  match n with
  | 0 => (s, o)
  | n + 1 =>
    if o.kblocks ≤ o.kdone then (s, o)
    else
      let (s1, o1) := runBlock c o bad s
      runBlocks c o1 (if o.hasSum then 0 else bad) n s1

/-- An MZERO on every target (R246). -/
def runZero (c : Nat) (o : MOp) (s : State) : State :=
  let s1 := o.targets.foldl (fun s1 t => (List.range o.m).foldl (fun s2 i => (List.range o.n).foldl (fun s3 j =>
    let (key, n) := tileKey s3 c o t i j
    s3.winWrite key (leBytes n 0)) s2) s1) s
  s1.modCluster c fun x => { x with overflow := x.overflow.filter fun q =>
    !(q.1 == o.ctx && q.2.2 == o.tids.2.2 && o.targets.contains q.2.1) }

/-- The window address of a core's C tile base (R242). -/
def tileBase (o : MOp) (t : Nat) : Word :=
  BitVec.ofNat 64 (Config.winBase * 2 ^ 29 + t * 2 ^ 24 + winOff o.c.elembase + o.crow0 * o.c.pitch + o.ccol0 * (o.c.bits / 8))

/-- A deferred matrix trap reaches its control strand, or, if that has exited, its launch (R241, R242, R286), which reports the first that it
is given. DESIGN CHOICE, log entry 101. -/
def State.giveMTrap (s : State) (o : MOp) (t : MTrap) : State :=
  if s.strands.any fun x => x.sid = o.sid ∧ x.stand ≠ .none then
    s.mapStrands fun x => if x.sid = o.sid ∧ x.stand ≠ .none then { x with mtraps := x.mtraps ++ [t] } else x
  else s.modSys fun y => { y with launches := y.launches.map fun l =>
    if l.id = o.launch ∧ l.mtrap.isNone then { l with mtrap := some t } else l }

/-- The operations that may run: of each strand only the oldest that has not run (R237). -/
def Cluster.heads (x : Cluster) : List MOp :=
  let waiting := x.mops.filter fun o => !o.done
  waiting.filter fun o => !waiting.any fun q => q.sid == o.sid && decide (q.id < o.id)

/-- The operation that runs next: in an active slot one of its ASID's contexts, else in issue order (R237, R244). It stays the next until it
has run to its end, so that two operations never interleave. DESIGN CHOICE, log entry 67. -/
def Cluster.nextMop (x : Cluster) : Option MOp :=
  match (if bitAt x.active 16 then x.heads.find? fun o => o.asid = x.active % 2 ^ 16 else none) with
  | some o => some o
  | none => x.heads.head?

/-- An operation of the queue with what has become of it. -/
def State.setMop (s : State) (c : Nat) (o : MOp) : State :=
  s.modCluster c fun x => { x with mops := x.mops.map fun q => if q.id = o.id then o else q }

/-- An operation that has read its headers goes on for up to `n` k-blocks, and a target that fails in them is reported (R242). -/
def goOn (c : Nat) (o : MOp) (bad : BitVec 24) (n : Nat) (s : State) : State :=
  let (s1, o1) := runBlocks c o bad n s
  let s2 := s1.setMop c { o1 with done := decide (o1.kblocks ≤ o1.kdone) }
  (o.targets.filter fun t => bitAt (o1.failed &&& ~~~ o.failed).toNat t).foldl
    (fun s t => s.giveMTrap o ⟨0x12, 8, tileBase o t, o.pc⟩) s2

/-- An operation runs (R233 to R246): its headers are checked before anything is written, and a failed check discards it with
every later operation of its strand (R241). DESIGN CHOICE, log entry 67. -/
def runMop (c : Nat) (o : MOp) (bad : BitVec 24) (n : Nat) : M Unit := do
  if o.zero then modify fun s => (runZero c o s).setMop c { o with started := true, done := true }
  else if o.started then modify (goOn c o bad n)
  else
    match ← attempt (o.hdrs.mapM (readHdr c o)) with
    | .error .wait => throw Stop.wait
    | .error (.trap k d v) => do
      modify fun s =>
        let s1 := s.modCluster c fun x => { x with mops := x.mops.filter fun q => !(q.sid == o.sid && decide (o.id ≤ q.id)) }
        s1.giveMTrap o ⟨k, d, v, o.pc⟩
    | .ok hs => modify fun s => goOn c { o with started := true, heads := hs, accs := o.firstAccs s c } bad n s

end Sys2Proof.Machine
end

