-- ==== Sys2Proof/Machine/Launch.lean ====
section
/-!
DEFINITION. Launch records and the intake (spec/19 R281 to R286, R289, R295), completion records, the end of a strand and of a
context (R73, R286, R310), and what ends a copy job (spec/05 R84, R91).
-/

namespace Sys2Proof.Machine

/-! ### The launch record (R281, R282) -/

/-- The fields of a launch record. -/
structure Rec where
  entry : Word
  param : Word
  base : Word
  bounds : List Nat
  waitaddr : Word
  waitval : Word
  cra : Word
  ctxid : Nat
  prio : Nat
  span : Nat
  order : List Nat
  clmask : Nat
  ctrl : Bool
  cor : Bool
  spill : Bool
  rsvd : Bool
  rules : List (Option GRule)
  deriving DecidableEq, Repr, Inhabited

/-- A group rule of a dword: one with VALID = 0 is zero (R282). -/
def parseRule (x : Nat) : Option GRule :=
  if bitAt x 48 then some ⟨bitsAt x 46 2, bitsAt x 40 6, bitsAt x 8 32, bitsAt x 0 8⟩ else none

def badRule (x : Nat) : Bool := x / 2 ^ 49 != 0 || (!bitAt x 48 && x != 0)

def parseRec (ws : List Word) : Rec :=
  let w (i : Nat) : Word := ws.getD i 0
  let dw (i : Nat) : Nat := (w i).toNat
  let g := dw 8
  { entry := w 0, param := w 1, base := w 2, bounds := [bitsAt (dw 3) 0 32, bitsAt (dw 3) 32 32, bitsAt (dw 4) 0 32, bitsAt (dw 4) 32 32],
    waitaddr := w 5, waitval := w 6, cra := w 7, ctxid := bitsAt g 0 16, prio := bitsAt g 16 3, span := bitsAt g 20 2,
    order := [bitsAt g 24 2, bitsAt g 26 2, bitsAt g 28 2, bitsAt g 30 2], clmask := bitsAt g 32 12, ctrl := bitAt g 44,
    cor := bitAt g 45, spill := bitAt g 46,
    rsvd := bitAt g 19 || bitsAt g 22 2 != 0 || g / 2 ^ 47 != 0 || [9, 10, 11, 12].any (fun i => badRule (dw i)) ||
      [13, 14, 15].any fun i => dw i != 0,
    rules := [9, 10, 11, 12].map fun i => parseRule (dw i) }

def Rec.product (r : Rec) : Nat := r.bounds.foldl (fun a b => a * b) 1

/-- The span of a launch record (R281). -/
def Rec.spanOf (r : Rec) : Span :=
  if r.ctrl then .ctrl else match r.span with | 0 => .s8 | 1 => .s16 | 2 => .s32 | _ => .wide

/-- The group-table indices of a rule, for `p` iterations (R282). -/
def GRule.last (g : GRule) (p : Nat) : Nat := g.gidx + (p - 1) / 2 ^ g.shift

def GRule.covers (g : GRule) (p idx : Nat) : Bool := p != 0 && decide (g.gidx ≤ idx) && decide (idx ≤ g.last p)

/-- The physical numbers of the live clusters a mask names (R283, R309): one that is retired and drains is live no longer. -/
def State.maskClusters (s : State) (m : Nat) : List Nat :=
  (s.fab.logical.zipIdx.filter fun x => bitAt m x.2 && !(s.cluster x.1).retired).map fun x => x.1

/-! ### What the parts can offer (R283, R290) -/

def spanMasks (sp : Span) : List Nat :=
  match sp with | .s8 => [1, 2, 4, 8] | .s16 => [3, 12] | .s32 | .wide => [15] | .ctrl => []

/-- Parts of a span that a core offers when nothing occupies it. -/
def Core.offers (k : Core) (sp : Span) : Nat :=
  if k.fenced then 0
  else if k.pin then ((partMasks k.part).filter fun m => (spanMasks sp).contains m).length
  else (spanMasks sp).length

/-- Strands of a span that clusters can hold at once, whatever occupies them now. -/
def State.roomFor (s : State) (cs : List Nat) (sp : Span) : Nat :=
  (cs.map fun c =>
    let ks := (s.cluster c).logical.map fun k => s.fab.core c k
    match sp with
    | .ctrl => if (s.cluster c).mccFailed then 0 else 4
    | .wide => if ks.any (fun k => !k.fenced) && ks.all fun k => k.fenced || !k.pin || k.part == 0 then 1 else 0
    | _ => (ks.map fun k => k.offers sp).sum).sum

/-- Iterations of a launch that belong to a group-table entry: the size of the union of the intervals of its rules. -/
def membersOf (rules : List (Option GRule)) (p idx : Nat) : Nat :=
  let ivs := (rules.filterMap fun r => r.bind fun g =>
    if g.covers p idx then
      let lo := (idx - g.gidx) * 2 ^ g.shift
      some (lo, min p (lo + 2 ^ g.shift))
    else none).mergeSort fun a b => decide (a.1 ≤ b.1)
  (ivs.foldl (fun (a : Nat × Nat) iv => (a.1 + (iv.2 - max iv.1 a.2), max a.2 iv.2)) (0, 0)).1

/-! ### Rejection and acceptance (R283, R289) -/

def Rec.valid (r : Rec) : List GRule := r.rules.filterMap id

/-- Rules that disagree on an entry with each other, or with an open entry of the context (R283, R289). -/
def ruleClash (c : Ctx) (r : Rec) : Bool :=
  let p := r.product
  (r.valid.any fun g => p != 0 && c.groups.any fun e => g.covers p e.1 && (e.2.n != g.gsize || e.2.scope != g.scope)) ||
  r.valid.any fun g => r.valid.any fun h => p != 0 && decide (max g.gidx h.gidx ≤ min (g.last p) (h.last p)) &&
    (g.gsize != h.gsize || g.scope != h.scope)

/-- The cases of R283; a device that accepts no launch (R323, R325) rejects every record. DESIGN CHOICE, log entry 123. -/
def State.rejects (s : State) (c : Ctx) (r : Rec) : Bool :=
  let cs := s.maskClusters r.clmask
  let p := r.product
  !s.toll.ready || s.toll.life == .retired ||
  r.rsvd || r.entry.toNat % 4 != 0 || r.cra.toNat % 32 != 0 || r.waitaddr.toNat % 8 != 0 ||
  ! [0, 1, 2, 3].all (fun d => r.order.contains d) || (r.ctrl && r.span != 0) || (r.spill && !r.cor) || cs.isEmpty ||
  decide (2 ^ 48 < p) ||
  (r.valid.any fun g => decide (g.gsize < 1) || decide (2 ^ 20 < g.gsize) || (p != 0 && decide (255 < g.last p))) ||
  ruleClash c r ||
  (r.cor && (List.range 256).any fun i => decide (s.roomFor cs r.spanOf < membersOf r.rules p i))

/-- The group table with the entries that a launch opens (R289). -/
def openGroups (c : Ctx) (r : Rec) : List (Nat × Group) :=
  (List.range 256).foldl (fun gs i =>
    match r.valid.find? fun g => g.covers r.product i with
    | none => gs
    | some g => if (afind gs i).isSome then gs else aset gs i ⟨g.scope, 0, 0, 0, 0, g.gsize⟩) c.groups

/-- A record accepted (R283, R285, R289). -/
def State.accept (s : State) (c : Ctx) (r : Rec) (base : Word) : State :=
  let k := s.sys.nextLaunch
  let l : Launch :=
    { id := k, handle := mkHandle k, ctx := c.num, base := base, entry := r.entry, param := r.param, bounds := r.bounds,
      waitaddr := r.waitaddr, waitval := r.waitval, cra := r.cra, prio := r.prio, aged := 0, span := r.spanOf, order := r.order,
      clmask := s.maskClusters r.clmask, clNum := [], since := s.timer, cor := r.cor, spill := r.spill, rules := r.rules, eligible := r.waitaddr == 0, placed := 0,
      exits := 0, mtrap := none }
  (s.modCtx c.num fun x => { x with groups := openGroups c r }).modSys fun y =>
    { y with launches := y.launches ++ [l], nextLaunch := k + 1 }

def Launch.product (l : Launch) : Nat := l.bounds.foldl (fun a b => a * b) 1

/-- The intake queue holds 1,024 launches (R284): those that are not eligible or have iterations to place.
DEDUCED, log entry 65. -/
def State.intakeFull (s : State) : Bool :=
  decide (1024 ≤ (s.sys.launches.filter fun l => !l.eligible || decide (l.placed < l.product)).length)

/-! ### Completion records (R286) -/

/-- Who the intake's accesses are made for: mode S, in the launch's context, through no translation cache (R286). -/
def Ctx.who (c : Ctx) : Who :=
  { cluster := Config.noCluster, self := none, tlb := 2 ^ 14, tlbCap := 0, asid := c.asid, tenant := c.tenant,
    ptb := bitsAt c.ptbase.toNat 24 28 * 2 ^ 24, user := false, ctx := c.num, owner := 0 }

/-- Every cluster writes back what it holds. -/
def State.releaseAll (s : State) : State := s.mem.caches.foldl (fun s c => s.release c.1 .sys) s

/-- The release of a completion record: at system scope, of the writes of a launch's strands, wherever they ran (R286). It waits as any
release at system scope (R60, R270). -/
def releaseEverywhere : M Unit := do
  let s ← get
  if s.mem.caches.any fun c => s.holdsDirty c.1 then waitHere
  modify State.releaseAll
  settle 0

/-- The signal of a context's completions (R317). -/
def State.signal (s : State) (c : Ctx) : State := if c.msivec = 0x7FF then s else s.signalVector c.hfn c.msivec

/-- The four writes of a completion record, and the signal; the answer says whether they could be made. A CRA that is no multiple of 32 is
taken to be one that cannot be written. DESIGN CHOICE, log entry 122. -/
def writeRecord (c : Ctx) (cra handle : Word) (status : Nat) (va : Word) : M Bool := do
  let w := c.who
  let put (off v : Nat) : M Unit := do
    let l ← translate w .store (cra + BitVec.ofNat 64 off) 8
    pointWrite w .sys l 8 v
  let go : M Unit := do
    if cra.toNat % 32 ≠ 0 then raise 4 0 cra
    put 8 status
    put 16 va.toNat
    put 24 handle.toNat
    let l ← translate w .atomic cra 8
    hostAtomic c.hfn .add cra l
    let n ← pointRead w .sys cra l 8
    pointWrite w .sys l 8 ((n + 1) % 2 ^ 64)
  releaseEverywhere
  match ← attempt go with
  | .ok _ => do
    modify fun s => s.signal c
    pure true
  | .error .wait => throw Stop.wait
  | .error _ => pure false

/-- A record that could not be written is logged for S (R283). -/
def logUnless (ok : Bool) : M Unit :=
  if ok then pure () else modify fun s => s.modSys fun y => { y with rejectLog := y.rejectLog + 1 }

/-- A launch leaves the machine with its completion record (R286). One that cannot be written is counted as that of a rejection is (R283).
DESIGN CHOICE, log entry 111. -/
def finishLaunch (l : Launch) (status : Nat) (va : Word) : M Unit := do
  match (← get).ctx? l.ctx with
  | none => pure ()
  | some c => do
    let ok ← writeRecord c l.cra l.handle status va
    logUnless ok
  modify fun s => (s.modSys fun y => { y with launches := y.launches.filter fun x => x.id ≠ l.id }).wake fun t => t.ctx == l.ctx

/-! ### The end of a strand and of a context -/

/-- The arrivals of a slot whose markers have fired. -/
def Strand.firedOn (t : Strand) (g : Nat) : Nat := t.arrive.getD g 0 - (t.markers.filter fun m => m.slot = g).length

/-- The markers that an exit keeps: those behind a pass that it discards never fire (R310). -/
def Strand.keptMarkers (t : Strand) : List Marker := t.markers.filter fun m => !t.passes.any fun p => p.serial < m.serial

/-- The strand whose turn it is counts as exited in each of its groups (R275, R289), but not yet in a slot with a marker that is still to
fire. DEDUCED, log entry 114. -/
def State.exitGroups (s : State) : State :=
  (List.range 4).foldl (fun s g =>
    match s.st.groupIdx g with
    | none => s
    | some idx =>
      match s.groupAt s.st.ctx idx with
      | none => s
      | some e => if marksSlot s.st.keptMarkers g then s else s.setGroup s.st.ctx idx (e.exit (s.st.firedOn g))) s

/-- A strand without anything that runs; markers that are still to fire do so (R310). -/
def Strand.gone (t : Strand) (ms : List Marker) : Strand :=
  { t with stand := .none, queue := [], passes := [], wps := [], vnames := [], pnames := [], markers := ms, mtraps := [],
           waiting := false, woken := false, asks := [], launching := none, copying := none }

/-- MarkExited and FreeSlot (R310): ready markers fire, its groups count the exit, the save area returns to the pool.
DEDUCED, log entry 22. -/
def State.exitStrand (s : State) : State :=
  let s1 := s.fireReady 9
  let s2 := s1.exitGroups
  let t := s2.st
  let s3 := s2.modCtx t.ctx fun c => { c with areas := c.areas.filter fun a => a ≠ t.saveIdx }
  let s4 := s3.modSys fun y => { y with launches := y.launches.map fun l => if l.id = t.launch then { l with exits := l.exits + 1 } else l }
  ({ s4 with st := s4.st.gone t.keptMarkers } : State).share (2 * t.sid)

/-- The jobs of a context end as if by XCANCEL (R76). -/
def cancelJobs (n : Nat) : M Unit := do
  let s ← get
  s.fab.clusters.forM fun c => (c.2.jobs.filter fun j => j.ctx = n ∧ j.st ≠ .settled).forM fun j => do
    let _ ← completeJob c.1 j.cancelled (j.who c.1).answered
    pure ()

/-- The end of a context (R73, R286, R289): its jobs are cancelled, its strands exit, its matrix operations are dropped, every
launch that has not completed reports the status, and its groups close. DEDUCED, log entry 45. -/
def endContext (n status : Nat) (va : Word) : M Unit := do
  cancelJobs n
  modify fun s =>
    let s0 := s.strands.foldl (fun s1 t => if t.ctx = n ∧ t.stand ≠ .none then s1.share (2 * t.sid) else s1) s
    let s1 := s0.mapStrands fun t => if t.ctx = n ∧ t.stand ≠ .none then t.gone [] else t
    s1.modFab fun f => { f with clusters := f.clusters.map fun c => (c.1, { c.2 with
      mops := c.2.mops.filter fun o => o.ctx ≠ n
      jobs := c.2.jobs.filter fun j => j.ctx ≠ n }) }
  let ls := (← get).sys.launches.filter fun l => l.ctx = n
  ls.forM fun l => finishLaunch l status va
  modify fun s => (s.modCtx n fun c => { c with groups := [], areas := [] }).modSys fun y =>
    { y with pri := y.pri.filter fun p => p.ctx ≠ n }

/-- Ends the context and goes on; an access that must wait leaves the state as it was. -/
def State.endCtx (s : State) (n status : Nat) (va : Word) : Out := runE (endContext n status va) s

/-! ### What ends a job (R84, R91) -/

/-- JOB_COMPLETE (R84): a completion area that cannot be written ends the context with status 0x15. -/
def execJobComplete (c h : Nat) (s : State) : Out :=
  match (s.cluster c).job? (BitVec.ofNat 64 h) with
  | none => .next s
  | some j =>
    if j.st = .ended then
      runE (do
        match ← completeJob c j (j.who c) with
        | none => pure ()
        | some va => endContext j.ctx 0x15 va) s
    else .next s

/-- XCANCEL (R91): a job of the strand's context that has not completed ends, here or in another cluster. -/
def execXcancel (a : Reg) (s : State) : Out :=
  let h := s.reg a
  whenReady [a] s <|
    match s.fab.clusters.find? fun c => (c.2.job? h).any fun j => j.ctx = s.st.ctx with
    | none => .next s.adv
    | some c =>
      match c.2.job? h with
      | none => .next s.adv
      | some j =>
        runE (do
          match ← completeJob c.1 j.cancelled (j.who c.1) with
          | none => modify State.adv
          | some va => endContext j.ctx 0x15 va) s

/-! ### LAUNCH (R295) and the launch port (R284) -/

/-- A rejected record: its completion record, if it can be written, with no handle (R283, R286). DEDUCED, log entry 46. -/
def rejectRec (c : Ctx) (r : Rec) : M Unit := do
  let ok ← writeRecord c r.cra 0 0xFF 0
  logUnless ok

/-- The base identity that LAUNCH derives (R194). -/
def childBase (r : SRegs) : Word :=
  let lo := draw r.rngkey r.strandkey r.draw.toNat
  let hi := draw r.rngkey r.strandkey ((r.draw.toNat + 1) % 2 ^ 64)
  BitVec.ofNat 64 (hi * 2 ^ 32 + lo)

/-- The strand's LAUNCH in progress. -/
def State.setLaunching (s : State) (l : Option Launching) : State := { s with st := { s.st with launching := l } }

/-- The first part of LAUNCH, up to its wait for the intake: the record is read once, the base derived and DRAW advanced once, and then
comes the release. A LAUNCH that waits keeps the three. DEDUCED, log entry 76. -/
def beginLaunch (va : Word) : M Launching := do
  let s ← get
  let l ← (match s.st.launching.filter fun l => l.pc == s.st.pc with
    | some l => pure l
    | none => do
      aligned va 128
      let ws ← loadDwords s.who va 16
      let l : Launching := ⟨s.st.pc, ws, childBase s.st.sr, false⟩
      modify fun t => (t.modSr fun q => { q with draw := q.draw + 4 }).setLaunching (some l)
      pure l)
  if l.released then pure l
  else do
    releaseAt s.st.cluster s.who.owner .dev
    modify fun t => t.setLaunching (some { l with released := true })
    pure l

/-- LAUNCH (R295). -/
def execLaunch (d a : Reg) (s : State) : Out :=
  whenReady [d, a] s <| runM (do
    let l ← beginLaunch (s.reg a)
    if (← get).intakeFull then waitHere
    let r := parseRec l.rcd
    let t ← get
    let h ← (match t.ctx? t.st.ctx with
      | none => pure 0
      | some c =>
        if t.rejects c r then do
          rejectRec c r
          pure 0
        else do
          modify fun t => t.accept c r l.base
          pure (mkHandle t.sys.nextLaunch))
    modify fun t => (t.setLaunching none).put d h) s

/-- LAUNCH_ACCEPT (R283, R284): the oldest port write, while the intake has room. The record is read at device scope, with
tenant 0's key (DESIGN CHOICE, log entry 124); a poisoned one, and one of a context that is not active, is logged. A record in a stalled
window is read after it (R59). -/
def execLaunchAccept (s : State) : Out :=
  match s.sys.port with
  | [] => .next s
  | pa :: rest =>
    if s.intakeFull then .next s
    else
      runE (do
        holdIfStalled pa
        modify fun s => s.modSys fun y => { y with port := rest }
        let s ← get
        let bs := s.devRead 0 pa 128
        let r := parseRec ((List.range 16).map fun i => BitVec.ofNat 64 (leNat ((bs.drop (8 * i)).take 8)))
        if s.linePoison (pa / 64) || s.linePoison (pa / 64 + 1) then logUnless false
        else
          match s.ctx? r.ctxid with
          | none => logUnless false
          | some c => if s.rejects c r then rejectRec c r else modify fun s => s.accept c r r.base) s

/-- The launch with a number. -/
def State.launch? (s : State) (l : Nat) : Option Launch := s.sys.launches.find? fun x => x.id = l

def State.modLaunch (s : State) (l : Nat) (f : Launch → Launch) : State :=
  s.modSys fun y => { y with launches := y.launches.map fun x => if x.id = l then f x else x }

/-- WAIT_CONDITION_POLL (R285): WAITADDR is read at system scope in the launch's context; a read that faults ends the context. One that meets
cause 0x13, which the rule does not list, leaves the launch waiting. DESIGN CHOICE, log entry 110. -/
def execWaitConditionPoll (l : Nat) (s : State) : Out :=
  match s.launch? l with
  | none => .next s
  | some x =>
    match s.ctx? x.ctx with
    | none => .next s
    | some c =>
      if x.eligible then .next s
      else
        runE (do
          let go : M Nat := do
            let loc ← translate c.who .load x.waitaddr 8
            pointRead c.who .sys x.waitaddr loc 8
          match ← attempt go with
          | .ok v => if v ≥ x.waitval.toNat then modify fun s => s.modLaunch l fun y => { y with eligible := true, since := s.timer } else pure ()
          | .error .wait => throw Stop.wait
          | .error (.trap 0x13 _ _) => pure ()
          | .error _ => endContext x.ctx 0x15 x.waitaddr) s

/-- A launch completes when every iteration's strand has exited and its matrix operations have completed (R286). -/
def State.launchDone (s : State) (x : Launch) : Bool :=
  x.eligible && decide (x.placed ≥ x.product) && decide (x.exits ≥ x.product) &&
  !s.fab.clusters.any fun c => c.2.mops.any fun o => o.launch == x.id

/-- LAUNCH_COMPLETE (R286): with the cause of a matrix trap that no strand received. -/
def execLaunchComplete (l : Nat) (s : State) : Out :=
  match s.launch? l with
  | none => .next s
  | some x =>
    if s.launchDone x then
      runE (match x.mtrap with
        | none => finishLaunch x 0 0
        | some t => finishLaunch x (t.cause + 256 * t.detail) t.eva) s
    else .next s

end Sys2Proof.Machine
end

