-- ==== Sys2Proof/Machine/Interrupt.lean ====
section
/-!
DEFINITION. What happens at an instruction boundary before the word (spec/21 R296, spec/02 R33): deferred traps of a pass or of
the matrix engine (R164, R166, R167, R241), interrupts and lane-retirement notices with their queues and service strands
(R299 to R302).
-/

namespace Sys2Proof.Machine

/-! ### Which strands run -/

/-- A debugger has halted lane groups that the strand occupies (R75). -/
def State.halted (s : State) (t : Strand) : Bool :=
  t.span != .ctrl && t.laneGroups.any fun p => bitAt (s.fab.core t.cluster p.1).halted.toNat p.2

/-- The strand stands on a front end that runs. -/
def State.runs (s : State) (t : Strand) : Bool := t.stand == .resident && !s.halted t

/-! ### Deferred traps -/

/-- The oldest pass with its fault, once it may be delivered (R164, R166). -/
def Strand.faulted (t : Strand) : Option (Pass × PFault) :=
  match t.passes with
  | p :: _ => if p.st = .running then p.fault.map fun f => (p, f) else none
  | [] => none

/-- A pass stopped at a strip boundary: the flags of its committed strips are merged (R161, R164). DEDUCED, log entry 21. -/
def Pass.stop (p : Pass) : Pass := if p.inFlight then { p with st := .suspended, flags := flNone } else p

/-- The flags of the committed strips of the passes in flight. -/
def Strand.passFlags (t : Strand) : FFlags := t.passes.foldl (fun a p => if p.inFlight then a ||| p.flags else a) flNone

/-- The trap of a pass (R161, R164, R166, R167): every pass in flight is suspended, FPFLAGS receives their flags and, for an FP
exception, those of the blamed element; VPROG holds the first element of the faulting strip. -/
def passTrap (p : Pass) (f : PFault) (s : State) : State :=
  let t := s.st
  let fl := t.passFlags ||| (if f.cause = 0x0D then f.flags else flNone)
  let s1 : State := { s with st := { t with passes := t.passes.map Pass.stop
                                            sr := { t.sr.addFlags fl with vprog := p.next } } }
  takeTrap f.cause f.detail f.eva t.pc f.blame p.forcePc true s1

/-- The trap of the matrix engine (R241, R242). -/
def matrixTrap (x : MTrap) (rest : List MTrap) (s : State) : State :=
  takeTrap x.cause x.detail x.eva s.st.pc x.pc x.pc false { s with st := { s.st with mtraps := rest } }

def Strand.deferred (t : Strand) : Bool := t.faulted.isSome || !t.mtraps.isEmpty

/-- A WAIT under way is over (R310). -/
def Strand.rouse (t : Strand) : Strand := { t with waiting := false, woken := false }

/-- DEFERRED_TRAP (R33, R166, R241): at the boundary before the strand's next word. DEDUCED, log entry 20. -/
def execDeferredTrap (s : State) : Out :=
  if !s.runs s.st then .next s
  else
    let s1 : State := { s with st := s.st.rouse }
    match s.st.faulted, s.st.mtraps with
    | some (p, f), _ => .next (passTrap p f s1)
    | none, x :: rest => .next (matrixTrap x rest s1)
    | none, [] => .next s

/-! ### Interrupts (R299 to R302) -/

/-- The sources of the table Interrupt sources. -/
inductive Source where
  | note | bgf | ras | mbx
  deriving DecidableEq, Repr, Inhabited

/-- The bit of ISTATUS that accepts a source (R299). -/
def Source.bit (x : Source) : Nat := match x with | .bgf => 1 | .note | .ras => 2 | .mbx => 3

/-- A service strand for a source (R300). -/
def Strand.serves (t : Strand) (x : Source) : Bool :=
  t.stand == .resident && bitAt t.sr.istatus.toNat 0 && bitAt t.sr.istatus.toNat x.bit

/-- An event of a source waits in a queue. -/
def Cluster.queued (c : Cluster) (x : Source) : Bool :=
  match x with
  | .note => !c.notes.isEmpty
  | .bgf => !c.bg.isEmpty
  | .ras => !c.ras.isEmpty
  | .mbx => decide (0 < c.bells)

/-- The order of R300 within a cluster: MCC slots, then logical cores and their slots. -/
def State.serviceRank (s : State) (t : Strand) : Nat :=
  if t.span = .ctrl then t.slot else 4 + logicalOf (s.cluster t.cluster).logical t.core * 4 + t.slot

/-- The service strand of a cluster for a source. -/
def State.serviceOf (s : State) (c : Nat) (x : Source) : Option Strand :=
  ((s.strands.filter fun t => t.cluster = c && t.serves x).mergeSort fun a b => decide (s.serviceRank a ≤ s.serviceRank b)).head?

/-- The queue whose event of a source the strand `s.st` is to receive (R300): its cluster's, or the device-wide one when its
cluster is the lowest with a service strand. -/
def State.queueFor (s : State) (x : Source) : Option Nat :=
  let c := s.st.cluster
  if !(s.serviceOf c x).any fun t => t.sid = s.st.sid then none
  else if (s.cluster c).queued x then some c
  else if (s.cluster Config.deviceQueue).queued x ∧ s.fab.logical.find? (fun k => (s.serviceOf k x).isSome) = some c then
    some Config.deviceQueue
  else none

/-- The interrupt that the strand is to take, if any: its source and queue. -/
def State.interruptFor (s : State) : Option (Source × Nat) :=
  if !s.st.serves .note && !s.st.serves .bgf && !s.st.serves .mbx then none
  else [Source.note, .bgf, .ras, .mbx].findSome? fun x => (s.queueFor x).map fun c => (x, c)

/-- One delivery takes one event (R301), with the registers of R302; EPC is the next instruction, after a WAIT under way (R310). -/
def takeInterrupt (x : Source) (c : Nat) (s : State) : State :=
  let q := s.cluster c
  let epc := if s.st.waiting then s.st.pc + 4 else s.st.pc
  let go (cause detail : Nat) (eva blame force : Word) (s1 : State) : State :=
    takeTrap cause detail eva epc blame force false { s1 with st := s1.st.rouse }
  match x with
  | .note =>
    match q.notes with
    | n :: r => go 0x14 0 n.eva (BitVec.ofNat 64 n.seq) 0 (s.modCluster c fun k => { k with notes := r })
    | [] => s
  | .bgf =>
    match q.bg with
    | f :: r => go 0x18 1 f.va f.context f.card (s.modCluster c fun k => { k with bg := r })
    | [] => s
  | .ras =>
    match q.ras with
    | n :: r => go 0x18 2 (BitVec.ofNat 64 n) 0 0 (s.modCluster c fun k => { k with ras := r })
    | [] => s
  | .mbx => go 0x18 3 0 0 0 (s.modCluster c fun k => { k with bells := k.bells - 1 })

/-- A boundary of the strand at which an interrupt may be taken: no deferred trap stands before it (R296). -/
def State.quiet (s : State) : Bool := s.runs s.st && !s.st.deferred

/-- INTERRUPT (R302): cause 0x18. DEDUCED, log entry 20. -/
def execInterrupt (s : State) : Out :=
  if !s.quiet then .next s
  else
    match [Source.bgf, .ras, .mbx].findSome? fun x => (s.queueFor x).map fun c => (x, c) with
    | some (x, c) => .next (takeInterrupt x c s)
    | none => .next s

/-- LANE_RETIREMENT_NOTICE (R302, R307): cause 0x14. -/
def execLaneRetirementNotice (s : State) : Out :=
  if !s.quiet then .next s
  else
    match s.queueFor .note with
    | some c => .next (takeInterrupt .note c s)
    | none => .next s

end Sys2Proof.Machine
end

