-- ==== Sys2Proof/Machine/Control.lean ====
section
/-!
DEFINITION. Control of a strand (spec/21 R310, R311), translation shoot-down and write-back (R74, R75, R312, R48), and the words
that are no instruction (spec/02 R29, R30, R32).
-/

namespace Sys2Proof.Machine

/-! ### NOP, RTE, WAIT, EXIT, BREAK, IFENCE, TRAP (R310, R311) -/

/-- NOP (R310). -/
def execNop (s : State) : Out := .next s.adv

/-- RTE (R31, R298, R310). -/
def execRte (s : State) : Out := privileged (fmtR 0 0 0 0 2) s (.next (returnFromTrap s))

/-- WAIT (R310): it ends once an event has been seen, or an enabled interrupt is pending; until then it waits.
DEDUCED, log entry 19. -/
def execWait (s : State) : Out :=
  if s.st.waiting && (s.st.woken || s.interruptFor.isSome) then .next ({ s with st := s.st.rouse } : State).adv
  else .next { s with st := { s.st with waiting := true } }

/-- WAIT_TIMEOUT (R310): 10 microseconds have passed. DESIGN CHOICE, log entry 19. -/
def execWaitTimeout (s : State) : Out :=
  if s.st.waiting then .next ({ s with st := s.st.rouse } : State).adv else .next s

/-- EXIT (R310): it forces the queue, waits for the passes in flight, among them the one it forced, discards a suspended pass and the one
stopped with it, and the strand is gone. -/
def execExit (s : State) : Out :=
  runM (do
    force
    if (← get).passesInFlight then waitHere
    modify State.exitStrand) s

/-- BREAK (R310): cause 0x16 at itself. -/
def execBrk (s : State) : Out := .next (trapHere 0x16 0 0 s)

/-- The instruction cache that a strand fetches through. -/
def Strand.front (t : Strand) : Nat := tlbScalar t.cluster (if t.span = .ctrl then Config.mccCore else t.core)

/-- IFENCE (R95, R310): the front end's instruction cache is emptied. -/
def execIfence (s : State) : Out :=
  .next (s.modMem fun m => { m with icaches := adel m.icaches s.st.front }).adv

/-- TRAP (R311): EPC is the next instruction. -/
def execTrap (i : BitVec 16) (s : State) : Out := .next (takeTrap 0x17 0 (zext i) (s.st.pc + 4) 0 0 false s)

/-! ### Words that are no instruction -/

/-- ILLEGAL_INSTRUCTION (R29, R32). -/
def execIllegalInstruction (w : IWord) (s : State) : Out := trapWord 1 0 w.toNat s

/-- EMULATION_TRAP (R30, R32): FEATURES is all zero. -/
def execEmulationTrap (w : IWord) (s : State) : Out := trapWord 2 0 w.toNat s

/-! ### TLBI (R74, R75, R312) -/

/-- What a shoot-down covers: a test of an ASID, a global mark, and the first byte and end of a page (R74). -/
def covers (asid : Nat) (a b : Word) (ea : Nat) (glob : Bool) (lo hi : Nat) : Bool :=
  if b = 0 then !glob && ea == asid
  else if b = BitVec.allOnes 64 then true
  else (glob || ea == asid) && decide (max lo a.toNat < min hi (min (a.toNat + b.toNat) (2 ^ 64)))

def TlbEntry.covered (asid : Nat) (a b : Word) (e : TlbEntry) : Bool :=
  covers asid a b e.asid e.glob (e.page * 2 ^ e.bits) ((e.page + 1) * 2 ^ e.bits)

/-- A pointer entry is removed with the entries of its ASID, with all, or when its range overlaps. -/
def WalkEntry.covered (asid : Nat) (a b : Word) (e : WalkEntry) : Bool :=
  covers asid a b e.asid (b != 0) (e.page * 2 ^ e.bits) ((e.page + 1) * 2 ^ e.bits)

/-- The cluster whose accesses a translation cache serves. -/
def tlbCluster (key : Nat) : Nat :=
  if key < 2 ^ 12 then key / 32 else if key < 2 ^ 13 then (key - 2 ^ 12) / 128 else (key - 2 ^ 13) / 4

/-- Every access that a cluster translated with a leaf is performed at device scope: its dirty lines are written back (R75). -/
def State.performLeaf (s : State) (c : Nat) (e : TlbEntry) : State :=
  let leaf := e.leaf.toNat
  if lfMt leaf ≠ 0 then s
  else
    let lo := lfFrame leaf * 2 ^ 16
    s.cleanLines c fun tag => decide (lo ≤ tag * 64) && decide (tag * 64 < lo + 2 ^ e.bits)

/-- The shoot-down of R74, with the acknowledgements of R75: of what was translated with entries still held, and with those that have
left their caches. -/
def State.shootdown (s : State) (asid : Nat) (a b : Word) : State :=
  let s1 := s.mem.tlbs.foldl (fun s t => t.2.foldl (fun s e =>
    if e.covered asid a b then s.performLeaf (tlbCluster t.1) e else s) s) s
  let s2 := s.mem.past.foldl (fun s p => if p.2.covered asid a b then s.performLeaf p.1 p.2 else s) s1
  s2.modMem fun m => { m with
    tlbs := m.tlbs.map fun t => (t.1, t.2.filter fun e => !e.covered asid a b)
    past := m.past.filter fun p => !p.2.covered asid a b
    walks := m.walks.map fun t => (t.1, t.2.filter fun e => !e.covered asid a b) }

/-- TLBI (R31, R74, R75, R312): while a store is held by a stalled window, its cache does not acknowledge (R60). DEDUCED, log
entry 23. -/
def execTlbi (a b : Reg) (s : State) : Out :=
  privileged (fmtR 0 0 a b 11) s <| whenReady [a, b] s <|
    if s.mem.caches.any fun c => s.holdsDirty c.1 then .next s
    else .next (s.shootdown (bitsAt s.st.sr.context.toNat 0 16) (s.reg a) (s.reg b)).adv

/-! ### CACHEWB (R48, R312) -/


/-- The lines that a physical range touches: dirty in the cluster, then in the memory-side caches. -/
def State.writeToArray (s : State) (c pa n : Nat) : State :=
  let lo := pa / 64 * 64
  let hi := (pa + n + 63) / 64 * 64
  (s.cleanLines c fun tag => decide (lo ≤ tag * 64) && decide (tag * 64 < hi)).toArray lo hi

def State.modAsks (s : State) (f : List Ask → List Ask) : State := { s with st := { s.st with asks := f s.st.asks } }

/-- A peer is asked, once, to write back a range of its own memory (R48). One that fails is a RAS event that names it, as for a store
(R322). DESIGN CHOICE, log entry 24. -/
def askPeer (w : Who) (d pa n : Nat) : M Unit := do
  if (← get).st.asks.any fun k => k.peer == d && k.pa == pa && k.len == n then pure ()
  else if (← peerFails d) then
    modify fun s => ((s.milepost 10 0 0 d 0).rasEvent w.cluster).modAsks fun l => l ++ [⟨d, pa, n, true⟩]
  else
    modify fun s => (s.modAsks fun l => l ++ [⟨d, pa, n, false⟩]).modSys fun y =>
      { y with outbox := y.outbox ++ [.peerWriteBack d pa n] }

/-- A peer acknowledges what the strand asked of it. -/
def State.wroteBack (s : State) (d : Nat) : State :=
  s.modAsks fun l => l.map fun k => if k.peer = d then { k with acked := true } else k

/-- The pages of a range, ascending, in steps of the least page (R312): window addresses are skipped, a page of peer memory is its
peer's to write back, and of a page of host memory there is nothing to write back (R48). -/
def writeBackPages (w : Who) (lo hi fuel : Nat) : M Unit := do
  match fuel with
  | 0 => pure ()
  | fuel + 1 =>
    if lo ≥ hi then pure ()
    else
      let va := BitVec.ofNat 64 lo
      if isWindow va then writeBackPages w ((Config.winBase + 1) * 2 ^ 29) hi fuel
      else do
        let stop := min hi ((lo / 2 ^ 16 + 1) * 2 ^ 16)
        if !canonical va then raise 0x1D 0 va
        let (bits, leaf) ← leafOf w .load va
        let pa := leafPa bits leaf va
        if lfMt leaf = 0 then do
          holdIfStalled pa
          modify fun s => s.writeToArray w.cluster pa (stop - lo)
        else if lfMt leaf = 2 then askPeer w (lfPeer leaf) pa (stop - lo)
        else pure ()
        writeBackPages w stop hi fuel

/-- CACHEWB (R48, R312): it waits for the passes in flight, writes back the range, and waits for the peers that it asked. DESIGN
CHOICE, log entry 24. -/
def execCachewb (a b : Reg) (s : State) : Out :=
  let lo := (s.reg a).toNat
  let hi := min (lo + (s.reg b).toNat) (2 ^ 64)
  whenReady [a, b] s <| runM (do
    if s.passesInFlight then waitHere
    writeBackPages s.who lo hi (hi / 2 ^ 16 - lo / 2 ^ 16 + 2)
    if (← get).st.asks.any fun k => !k.acked then waitHere
    modify fun s => (s.modAsks fun _ => []).adv) s

end Sys2Proof.Machine
end

