-- ==== Sys2Proof/Machine/Ingress.lean ====
section
/-!
DEFINITION. The accesses that come to the device from outside (spec/24 R313 to R315, R319, spec/18 R271, R272, spec/19 R284): BAR0,
BAR2, contexts and peers; and how a migration window that is stalled holds them (spec/03 R59 to R61).
-/

namespace Sys2Proof.Machine

/-! ### BAR2 (R43, R271, R315) -/

/-- The exponent of the size of BAR2 at a function (R313): 1 GiB until it is set. DESIGN CHOICE, log entry 15. -/
def HostSide.bits (h : HostSide) (fn : Bool) : Nat := aget 30 h.bar2bits (boolBit fn)

/-- Whether a BAR2 access completes with Unsupported Request: a byte of it lies at or above capacity, or past the BAR, or the device
is in recovery (R43, R313, R315, R323). -/
def State.bar2Bad (s : State) (fn : Bool) (off len : Nat) : Bool :=
  s.toll.recovery || decide (2 ^ s.host.bits fn < off + len) || decide (s.capacity < s.host.bar2base.toNat + off + len)

/-- Bytes of a physical range lie in the migration window that is stalled (R59). -/
def State.heldRange (s : State) (pa len : Nat) : Bool :=
  s.fab.stalled.any fun w => decide (pa / 2 ^ 28 ≤ w) && decide (w ≤ (pa + len - 1) / 2 ^ 28)

/-- An access to a stalled window waits at the ingress. -/
def holdRange (pa len : Nat) : M Unit := do
  if (← get).heldRange pa len then waitHere else pure ()

def sendM (m : Msg) : M Unit := modify fun s => s.send m

/-- A read through BAR2 (R315): at device scope, with tenant 0's key. DESIGN CHOICE, log entry 44. -/
def bar2Read (fn : Bool) (off len : Nat) : M Unit := do
  let s ← get
  let pa := s.host.bar2base.toNat + off
  if s.bar2Bad fn off len then sendM (.unsupported fn)
  else do
    holdRange pa len
    sendM (.bytes fn (s.devRead 0 pa len))

/-- A write through BAR2 (R315): posted; none of the bytes is written when one lies at or above capacity. -/
def bar2Write (fn : Bool) (off : Nat) (bs : List Byte) : M Unit := do
  let s ← get
  let pa := s.host.bar2base.toNat + off
  if s.bar2Bad fn off bs.length then sendM (.unsupported fn)
  else do
    holdRange pa bs.length
    modify fun s => (s.devWrite 0 pa bs).send (.posted fn)

/-! ### BAR0 (R314) -/

def Lifecycle.code (l : Lifecycle) : Nat := match l with | .manufacture => 0 | .deployed => 1 | .debug => 2 | .retired => 3

/-- STATUS (R314, R325, R331): 0 until the boot; then READY while the device accepts launches. DEDUCED, log entry 40. -/
def State.status (s : State) : Nat :=
  if s.toll.booted then
    boolBit (s.toll.ready && s.toll.life != .retired) + 2 * boolBit s.toll.recovery + 4 * s.toll.life.code + 2 ^ 4 * (s.fab.gen % 2 ^ 16)
  else 0

/-- 64 pending bits of a function, from a vector (R314). -/
def HostSide.pbaDword (h : HostSide) (fn : Bool) (v : Nat) : Word :=
  wd (((List.range 64).map fun i => if h.pending.contains (vectorKey fn (v + i)) then 2 ^ i else 0).sum)

/-- What an aligned read of BAR0 gives at a function (R314): offsets that are not listed, and WO registers, read as zero.
PRESUMED for the MSI-X tables, log entry 42. -/
def State.bar0Read (s : State) (fn : Bool) (off : Nat) : Word :=
  match off with
  | 0x0 => wd Config.ident
  | 0x8 => wd s.status
  | 0x10 => s.host.ctxtab
  | 0x20 => s.host.bar2base
  | 0x28 => if s.toll.boots = 0 then 0 else Config.mbxdev s.toll.boots
  | _ =>
    if 0x4000 ≤ off ∧ off < 0x8000 then wd (leNat (bytesAt s.host.mailbox (off - 0x4000) 8))
    else if 0x100000 ≤ off ∧ off < 0x108000 then s.host.msixDword (2 * vectorKey fn 0 + (off - 0x100000) / 8)
    else if 0x108000 ≤ off ∧ off < 0x108100 then s.host.pbaDword fn ((off - 0x108000) * 8)
    else 0

/-- An access to a register is 8 bytes and naturally aligned (R314). -/
def regAligned (off len : Nat) : Bool := len == 8 && off % 8 == 0

/-- A read of a register. -/
def regRead (fn : Bool) (off len : Nat) : M Unit := do
  let s ← get
  if regAligned off len then sendM (.bytes fn (leBytes 8 (s.bar0Read fn off).toNat)) else sendM (.unsupported fn)

/-- A dword of a function's MSI-X table written; a vector that is masked no longer sends what is pending (R314, R317).
PRESUMED, log entry 42. -/
def State.msixWrite (s : State) (fn : Bool) (i : Nat) (v : Word) : State :=
  let k := vectorKey fn (i / 2)
  let s1 : State := { s with host := { s.host with msix := aset s.host.msix (2 * vectorKey fn 0 + i) v } }
  if s1.host.pending.contains k && !s1.host.masked fn (i / 2) then
    ({ s1 with host := { s1.host with pending := s1.host.pending.filter fun p => p ≠ k } } : State).signalVector fn (i / 2)
  else s1

/-- A write of the host's side of the mailbox; one of the command word rings (R324). -/
def State.mailboxWrite (s : State) (off : Nat) (v : Word) : State :=
  let s1 := s.mbxWrite .host off (leBytes 8 v.toNat)
  if off = 0x3FF8 then s1.ring .host (v.toNat % 2 ^ 32) else s1

/-- A write of a register that has no behaviour of its own: one to an RO register or to an offset that is not listed is ignored. In
recovery only the mailbox answers (R323). DESIGN CHOICE, log entry 39. -/
def State.regWrite (s : State) (fn : Bool) (off : Nat) (v : Word) : State :=
  if 0x4000 ≤ off ∧ off < 0x8000 then s.mailboxWrite (off - 0x4000) v
  else if s.toll.recovery then s
  else if off = 0x10 then { s with host := { s.host with ctxtab := v &&& ~~~ 0x3FFF } }
  else if off = 0x20 then
    { s with host := { s.host with bar2base := wd (v.toNat / 2 ^ s.host.bits fn * 2 ^ s.host.bits fn) } }
  else if 0x100000 ≤ off ∧ off < 0x108000 then s.msixWrite fn ((off - 0x100000) / 8) v
  else s

/-- The size of BAR2 at a function, from 1 GiB to 1 TiB (R313). -/
def State.resizeBar (s : State) (fn : Bool) (bits : Nat) : State :=
  if 30 ≤ bits ∧ bits ≤ 40 then { s with host := { s.host with bar2bits := aset s.host.bar2bits (boolBit fn) bits } } else s

/-! ### The launch port (R284) -/

/-- A write to the launch port: an address that cannot hold a record is counted and starts nothing. In recovery it is ignored (R323). -/
def State.portWrite (s : State) (pa : Word) : State :=
  if s.toll.recovery then s
  else if pa.toNat % 128 ≠ 0 ∨ pa.toNat + 128 > s.capacity then s.modSys fun y => { y with rejects := y.rejects + 1 }
  else s.modSys fun y => { y with port := y.port ++ [pa.toNat] }

/-! ### Contexts (R319) -/

/-- A context entry: V = 1 and every must-be-zero field zero. -/
def entryValid (x : Nat) : Bool := bitAt x 511 && bitsAt x 429 82 == 0 && bitsAt x 404 12 == 0

/-- The context that an entry describes. A TDTBASE that is not a multiple of 64 is taken as it stands (R181, R319). DESIGN CHOICE, log
entry 89. -/
def parseCtx (n x : Nat) : Ctx :=
  { num := n, tenant := bitsAt x 400 4, asid := bitsAt x 384 16, hfn := bitAt x 427, ats := bitAt x 428, msivec := bitsAt x 416 11,
    saveCount := bitsAt x 352 32, savePool := wd (bitsAt x 256 64), wmbase := wd (bitsAt x 192 64), wmsize := wd (bitsAt x 320 32),
    tvec := wd (bitsAt x 128 64), tdtbase := wd (bitsAt x 64 64), ptbase := wd (bitsAt x 0 64), wmHead := 0, groups := [], areas := [] }

/-- How CTXACT ends: activated or deactivated, refused, or a bad entry (R319). -/
inductive CtxAns where
  | ok | refused | badArg
  deriving DecidableEq, Repr, Inhabited

/-- The place of a context's entry. -/
def State.entryPa (s : State) (n : Nat) : Nat := s.host.ctxtab.toNat + 64 * n

/-- The activation of a context: entry n is read at device scope. An entry that is poisoned, or lies at or above capacity, activates
nothing. -/
def State.activate (s : State) (n : Nat) : State × CtxAns :=
  let pa := s.entryPa n
  if (s.ctx? n).isSome then (s, .refused)
  else if s.capacity < pa + 64 ∨ s.linePoison (pa / 64) then (s, .badArg)
  else
    let x := leNat (s.devRead 0 pa 64)
    if entryValid x then (s.modSys fun y => { y with ctxs := y.ctxs ++ [parseCtx n x] }, .ok) else (s, .badArg)

/-- What is left of a context that is no longer active: no core and no MCC counts as used by it (R99, R235). -/
def State.forgetCtx (s : State) (n : Nat) : State :=
  let s1 := s.modSys fun y => { y with ctxs := y.ctxs.filter fun c => c.num ≠ n }
  s1.modFab fun f => { f with
    cores := f.cores.map fun k => (k.1, if k.2.ctx = some n then { k.2 with ctx := none } else k.2)
    clusters := f.clusters.map fun c => (c.1, { c.2 with overflow := c.2.overflow.filter fun o => o.1 ≠ n }) }

/-- The deactivation of a context ends it with STATUS 0xFE. DEDUCED, log entry 45. -/
def deactivate (n : Nat) : M Unit := do
  endContext n 0xFE 0
  modify fun s => s.forgetCtx n

/-! ### Peers (R272, R320, R322) -/

/-- The value of a peer's atomic, made at the memory-side cache (R272, R277, R278). -/
def peerAtomic (op : AmoOp) (pa : Nat) (z : Size) (b c : Word) (s : State) : State :=
  let n := szBytes z
  let m := leNat (s.devRead 0 pa n)
  (s.devWrite 0 pa (leBytes n (amoNew op (8 * n) m b.toNat c.toNat))).send (.peerReply (leBytes n m))

/-- A line of a physical range is poisoned. -/
def State.rangePoison (s : State) (pa len : Nat) : Bool :=
  (List.range (len / 64 + 2)).any fun i => decide (pa / 64 + i ≤ (pa + len - 1) / 64) && s.linePoison (pa / 64 + i)

/-- A peer's access (R272): performed at the memory-side cache; a store is acknowledged once it has been, and a write-back once the lines
stand in the array (R48). One that reaches capacity (R43), a load or an atomic of poisoned data, and any access to a device in recovery
(R323) or whose ports are retired (R321), fails. DESIGN CHOICE, log entry 43. -/
def peerAccess (a : PeerOp) : M Unit := do
  let s ← get
  let check (pa len : Nat) (reads : Bool) (k : State → State) : M Unit :=
    if s.fab.domain.isNone || s.fab.portless then pure ()
    else if s.toll.recovery then sendM .peerUnsupported
    else do
      holdRange pa len
      if s.capacity < pa + len ∨ (reads ∧ s.rangePoison pa len) then sendM .peerUnsupported else modify k
  match a with
  | .load pa len => check pa.toNat len true fun s => s.send (.peerReply (s.devRead 0 pa.toNat len))
  | .store pa bs => check pa.toNat bs.length false fun s => (s.devWrite 0 pa.toNat bs).send .peerAck
  | .atom op pa z b c => check pa.toNat (szBytes z) true (peerAtomic op pa.toNat z b c)
  | .writeBack pa len => check pa.toNat len false fun s =>
      (s.toArray (pa.toNat / 64 * 64) ((pa.toNat + len + 63) / 64 * 64)).send .peerAck

/-! ### The ingress (R59 to R61) -/

/-- The function that an access comes from. -/
def Ingress.source (a : Ingress) : Option Bool :=
  match a with
  | .bar2Read f _ _ | .bar2Write f _ _ | .regRead f _ _ | .regWrite f _ _ _ | .port f _ | .activate f _ | .deactivate f _
  | .resize f _ => some f
  | .peer _ | .endContext _ _ => none

/-- What an access does (R284, R314, R315, R319, R272, R73, R318). -/
def performIngress (a : Ingress) : M Unit := do
  match a with
  | .bar2Read fn off len => bar2Read fn off len
  | .bar2Write fn off bs => bar2Write fn off bs
  | .regRead fn off len => regRead fn off len
  | .regWrite fn off len v =>
    if regAligned off len then modify fun s => s.regWrite fn off v else sendM (.unsupported fn)
  | .port _ pa => modify fun s => s.portWrite pa
  | .activate _ n => do
    let s ← get
    if s.toll.recovery then pure ()
    else do
      holdRange (s.entryPa n) 64
      modify fun s => (s.activate n).1
  | .deactivate _ n => do
    let s ← get
    if s.toll.recovery || (s.ctx? n).isNone then pure () else deactivate n
  | .resize fn bits => modify fun s => s.resizeBar fn bits
  | .peer p => peerAccess p
  | .endContext n fault =>
    if ((← get).ctx? n).isNone then pure ()
    else
      match fault with
      | some va => endContext n 0x15 va
      | none => endContext n 0xFE 0

def State.holdAccess (s : State) (a : Ingress) : State := s.modSys fun y => { y with held := y.held ++ [a] }

/-- Nothing of a function's link arrives once its stream is insecure (R318). DEDUCED, log entry 58. -/
def State.cut (s : State) (a : Ingress) : Bool := a.source.any fun fn => s.host.insecure.contains fn

/-- An access arrives. One that cannot be performed yet is held, neither dropped nor refused, and a later access of its function stands
behind it, as PCIe delivers posted writes in order (R59, R271). -/
def State.arrives (s : State) (a : Ingress) : State :=
  if s.cut a then s
  else if s.sys.held.any fun h => h.source.isSome && h.source == a.source then s.holdAccess a
  else
    match performIngress a s with
    | (.ok _, s1) => s1
    | (.error _, s1) => (s.afterWait s1).holdAccess a

/-- The held accesses go on, in the order in which they came; what must still wait stays held (R59 step 5, R60, R61). -/
def State.releaseHeld (s : State) : State :=
  s.sys.held.foldl State.arrives (s.modSys fun y => { y with held := [] })

end Sys2Proof.Machine
end

