-- ==== Sys2Proof/Machine/Parts.lean ====
section
/-!
DEFINITION. Failing parts (spec/21 R306 to R309), the debugger and the power controller (R75), the memory's channels and their
retirement (spec/03 R46, R51, R52, R56 to R61), and the ports (R309, R321).
-/

namespace Sys2Proof.Machine

/-! ### Objects of the Milepost table (R328) -/

def objCore (c k g lane : Nat) : Nat := c * 2 ^ 20 + k * 2 ^ 15 + g * 2 ^ 13 + lane * 2 ^ 9
def objChannel (k : Nat) : Nat := k % 16 * 2 ^ 20 + k / 16 * 2 ^ 15
def objPort (p : Nat) : Nat := p * 2 ^ 19

/-- The lifecycle moves, and the Milepost table records it (R325, R328); nothing leaves RETIRED, which a full table brings. -/
def State.setLife (s : State) (l : Lifecycle) : State :=
  let s1 := s.milepost 8 l.code s.toll.life.code 0 0
  { s1 with toll := { s1.toll with life := if s1.toll.life = .retired then .retired else l } }

/-- The errors behind a change of an object, where the specification names no count (R328). -/
def State.errors (s : State) (object : Nat) : Nat := (Config.errorsBehind object s.lastSeq).toNat

/-- With no live cluster or no live stack the device is RETIRED (R325). -/
def State.checkRetired (s : State) : State :=
  if (s.fab.logical.isEmpty || s.fab.liveTable.isEmpty) && s.toll.life != .retired then s.setLife .retired else s

/-! ### Cores and clusters (R308, R309) -/

/-- The cores of a cluster that are not fenced. -/
def State.soundCores (s : State) (c : Nat) : Nat := ((s.cluster c).logical.filter fun k => !(s.fab.core c k).fenced).length

/-- A cluster is retired: it takes no launch that it has not admitted, and drains (R309). -/
def State.retireCluster (s : State) (c : Nat) : State :=
  if (s.cluster c).retired then s
  else ((s.milepost 4 0 0 (objCore c 0 0 0) 0).rasEvent c).modCluster c fun x => { x with retired := true, draining := true }

/-- A core is fenced from this moment (R308); with fewer than 16 left, the cluster is retired (R309). DEDUCED, log entry 26. -/
def State.retireCore (s : State) (c k count : Nat) : State :=
  if (s.fab.core c k).fenced then s
  else
    let s1 := ((s.modCore c k fun x => { x with fenced := true }).milepost 3 0 0 (objCore c k 0 0) count).rasEvent c
    let s2 := s1.modCluster c fun x => { x with draining := true }
    if s2.soundCores c < 16 then s2.retireCluster c else s2

/-- No launch that the cluster admitted has a strand, a matrix operation or a job in it (R308). -/
def State.drained (s : State) (c : Nat) : Bool :=
  !(s.strands.any fun t => t.stand != .none && t.cluster == c) && (s.cluster c).mops.isEmpty &&
  (s.cluster c).jobs.all fun j => j.st == .settled

/-- Every scratchpad and accumulator store of a cluster becomes zero (R308). -/
def State.zeroWindows (s : State) (c : Nat) : State :=
  s.modMem fun m => { m with
    win := m.win.filter fun w => w.1 / 2 ^ 29 ≠ c
    winPoison := m.winPoison.filter fun w => w / 2 ^ 27 ≠ c }

/-- The translation caches and the instruction cache of a core. -/
def State.emptyCore (s : State) (c k : Nat) : State :=
  let mine (x : Nat) : Bool := x == tlbScalar c k || (List.range 4).any fun g => x == tlbGroup c k g
  s.modMem fun m => { m.leave c ((m.tlbs.filter fun x => mine x.1).flatMap fun x => x.2) with
    tlbs := m.tlbs.filter fun x => !mine x.1
    icaches := adel m.icaches (tlbScalar c k) }

/-- CLUSTER_RENUMBER (R308): logical cores are dense again, the stores are zeroed, and the Milepost table records it. -/
def execClusterRenumber (c : Nat) (s : State) : Out :=
  let x := s.cluster c
  let out := x.logical.filter fun k => (s.fab.core c k).fenced
  if x.draining && !x.retired && !out.isEmpty && s.drained c then
    let s1 := out.foldl (fun s k => (s.emptyCore c k).modCore c k fun y => { y with retired := true, groups := [] }) s
    let s2 := s1.modCluster c fun x => { x with
      logical := x.logical.filter fun k => !out.contains k
      draining := false
      admitted := [] }
    .next ((s2.zeroWindows c).milepost 9 0 0 (objCore c 0 0 0) 0)
  else .next s

/-- CLUSTER_RETIREMENT (R309): logical clusters are renumbered across the device, once what the cluster holds can be written back
(R60). -/
def execClusterRetirement (c : Nat) (s : State) : Out :=
  if (s.cluster c).retired && s.fab.logical.contains c && s.drained c && !s.holdsDirty c then
    let s1 := ((s.dropCache c).zeroWindows c).modFab fun f => { f with logical := f.logical.filter fun k => k ≠ c }
    .next (s1.milepost 9 0 0 (objCore c 0 0 0) 0).checkRetired
  else .next s

/-- MCC_FAILURE (R309): the cluster is retired and begins to drain. DEDUCED, log entry 26. -/
def execMccFailure (c : Nat) (s : State) : Out :=
  if s.fab.logical.contains c && !(s.cluster c).mccFailed then
    .next ((s.modCluster c fun x => { x with mccFailed := true }).retireCluster c)
  else .next s

/-! ### Lanes (R306, R307) -/

def Core.group (k : Core) (g : Nat) : LaneGroup := (k.groups[g]?).getD LaneGroup.fresh
def State.modGroup (s : State) (c k g : Nat) (f : LaneGroup → LaneGroup) : State :=
  s.modCore c k fun x => { x with groups := x.groups.set g (f (x.group g)) }

/-- The notice of R302: EVA in the layout of PLACE. -/
def State.laneNotice (s : State) (c k g live : Nat) : State :=
  let eva := live * 2 ^ 32 + 2 ^ g * 2 ^ 24 + logicalOf (s.cluster c).logical k * 2 ^ 8 + logicalOf s.fab.logical c
  s.modCluster c fun x => { x with notes := x.notes ++ [⟨BitVec.ofNat 64 eva, s.lastSeq⟩] }

/-- A failed lane: the spare, then 7 live lanes, then the core (R307, R308). -/
def State.failLane (s : State) (c k g lane count : Nat) : State :=
  let x := (s.fab.core c k).group g
  if !x.lost.isEmpty then s.retireCore c k count
  else if x.spareUsed then
    ((s.modGroup c k g fun y => { y with lost := [lane], fails := adel y.fails lane }).milepost 2 7 8 (objCore c k g lane)
      count).laneNotice c k g 7
  else ((s.modGroup c k g fun y => { y with spareUsed := true, fails := adel y.fails lane }).milepost 1 0 0 (objCore c k g lane)
      count).rasEvent c

/-- LANE_ERROR (R306): a check of a lane of the strand fails, and the strip that pass `p` runs is abandoned and runs again: VPROG holds the
strip's first element, and the flags of the strips before it are merged (R161). The lane, named as it was made, has failed when this is
its second failure in a run of this strip, or the 64th since manufacture. DESIGN CHOICE, log entry 25. -/
def execLaneError (p core lg lane : Nat) (s : State) : Out :=
  let t := s.st
  let c := t.cluster
  match t.passes[p]? with
  | none => .next s
  | some q =>
    let live := ((s.fab.core c core).group lg).lanes.contains lane
    if s.runs t && q.st == .running && q.fault.isNone && q.checked && decide (q.next < q.elems) &&
        t.laneGroups.contains (core, lg) && live then
      let tag := (t.sid, q.serial, q.next, lg * 8 + lane)
      let count := aget 0 ((s.fab.core c core).group lg).fails lane + 1
      let again := (s.fab.core c core).failed.contains tag
      let s0 : State := { s with st := { t with sr := { t.sr.addFlags q.flags with vprog := q.next } } }
      let s1 := s0.setPass p { q with base := q.next, strips := q.strips + 1, replayed := true, flags := flNone }
      let s2 := s1.modCore c core fun x => { x with
        failed := if again || decide (64 ≤ count) then x.failed.filter fun y => y ≠ tag else tag :: x.failed
        groups := x.groups.set lg { x.group lg with fails := aset (x.group lg).fails lane count } }
      .next (if again || decide (64 ≤ count) then s2.failLane c core lg lane count else s2)
    else .next s

/-! ### The debugger and the power controller (R75) -/

/-- DEBUGGER_HALT (R75, R326): once the debug port is open, lane groups of a core stop; their caches still answer shoot-downs.
DESIGN CHOICE, log entry 29. -/
def execDebuggerHalt (c core : Nat) (lgs : BitVec 4) (s : State) : Out :=
  if s.toll.debugOpen then .next (s.modCore c core fun k => { k with halted := k.halted ||| lgs }) else .next s

/-- POWER_GATING (R75): a core that holds no strand is gated, and its caches are emptied. DESIGN CHOICE, log entry 30. -/
def execPowerGating (c core : Nat) (s : State) : Out :=
  if (s.onCore c core).isEmpty then .next ((s.emptyCore c core).modCore c core fun k => { k with gated := true }) else .next s

/-! ### Row activations (R51, R52) -/

/-- The key of a channel: channel number, then stack. -/
def chKey (stack ch : Nat) : Nat := ch * 16 + stack

/-- Two activations are of one bank, or of one channel. -/
def RowAct.sameBank (a b : RowAct) : Bool := a.stack == b.stack && a.ch == b.ch && a.bank == b.bank
def RowAct.sameChannel (a b : RowAct) : Bool := a.stack == b.stack && a.ch == b.ch

/-- The activations of a row since its neighbours were last refreshed, kept in the row (R51). -/
def Fabric.rowCount (f : Fabric) (r : RowAct) : Nat := ((f.rows.find? fun x => x.1 = r).map fun x => x.2).getD 0
def Fabric.setRow (f : Fabric) (r : RowAct) (n : Nat) : Fabric := { f with rows := (r, n) :: f.rows.filter fun x => x.1 ≠ r }

/-- The table Activation allowance by power mode (R52). -/
def allowance (mode : Nat) : Nat := match mode with | 0 => 6144 | 1 => 3072 | 2 => 8192 | _ => 4096

/-- The power mode in force. -/
def Fabric.power (f : Fabric) : Nat := (f.modes.head?.map fun m => m.2).getD 0

/-- Activations of a stack from a time on. -/
def Fabric.actsSince (f : Fabric) (stack t : Nat) : Nat :=
  (f.activations.filter fun a => a.1 == stack && decide (t ≤ a.2)).length

/-- Whether one more activation of a stack keeps every window that began under one of these modes: the widest of each mode counts. A mode
holds for the windows that begin while it is in force, until `stop` (R52). -/
def Fabric.windowsAllow (f : Fabric) (stack lo stop : Nat) (ms : List (Nat × Nat)) : Bool :=
  match ms with
  | [] => true
  | (t, m) :: r => (decide (stop ≤ lo) || decide (f.actsSince stack (max t lo) < allowance m)) && f.windowsAllow stack lo t r

/-- A stack may activate one more row now: no rolling window of 1 microsecond, 1,250 cycles, holds more than its allowance (R52). -/
def Fabric.mayActivate (f : Fabric) (stack now : Nat) : Bool := f.windowsAllow stack (now + 1 - 1250) (now + 1) f.modes

/-- A bank issues an activation: the row that was open is precharged, which adds to its count (R51). The activation whose precharge brings
a count to 4,096 is still issued; commands after it wait. DESIGN CHOICE, log entry 91. -/
def Fabric.activate (f : Fabric) (r : RowAct) (now : Nat) : Fabric :=
  let f1 := (f.opened.filter fun o => o.sameBank r).foldl (fun f o => f.setRow o (f.rowCount o + 1)) f
  { f1 with
    opened := r :: f1.opened.filter fun o => !o.sameBank r
    activations := (f1.activations.filter fun a => decide (now < a.2 + 1250)) ++ [(r.stack, now)] }

/-- A bank takes no command: it is in back-off, or a row of it has reached 4,096 activations and its alert is due (R51). -/
def Fabric.bankHeld (f : Fabric) (r : RowAct) : Bool :=
  f.alerted.contains (r.stack, r.ch, r.bank) || f.rows.any fun x => x.1.sameBank r && decide (4096 ≤ x.2)

/-- An activation is issued, or waits behind those of its channel (R51, R52). -/
def State.askActivation (s : State) (r : RowAct) : State :=
  if s.fab.bankHeld r || (s.fab.waiting.any fun o => o.sameChannel r) || !s.fab.mayActivate r.stack s.timer then
    s.modFab fun f => { f with waiting := f.waiting ++ [r] }
  else s.modFab fun f => f.activate r s.timer

/-- The activations that wait are looked at again, the oldest first. -/
def State.retryActivations (s : State) : State :=
  s.fab.waiting.foldl State.askActivation (s.modFab fun f => { f with waiting := [] })

/-- ROW_ACTIVATION_ALERT (R51): a row has reached 4,096 activations. Its bank backs off, the neighbouring rows are refreshed, the count
starts again at 0, and the back-off is counted for the channel. -/
def execRowActivationAlert (stack : Nat) (x : RowAt) (s : State) : Out :=
  let k := chKey stack x.ch
  let r : RowAct := ⟨stack, x.ch, x.bank, x.row⟩
  if s.fab.liveTable.contains k && !s.fab.alerted.contains (stack, x.ch, x.bank) && decide (4096 ≤ s.fab.rowCount r) then
    .next (s.modFab fun f => { f.setRow r 0 with
      alerted := (stack, x.ch, x.bank) :: f.alerted
      backoff := aset f.backoff k (aget 0 f.backoff k + 1) })
  else .next s

/-- BACKOFF_END (R51): the requests that waited are served in their order. -/
def execBackoffEnd (stack : Nat) (x : BankAt) (s : State) : Out :=
  .next (s.modFab fun f => { f with alerted := f.alerted.filter fun y => y ≠ (stack, x.ch, x.bank) }).retryActivations

/-- ACTIVATION_WINDOW_RELEASE (R52): the oldest activation of a stack that waits for nothing but the window is issued when the window
allows it. -/
def execActivationWindowRelease (stack : Nat) (s : State) : Out :=
  let next := s.fab.waiting.find? fun r => r.stack == stack && !s.fab.bankHeld r &&
    (s.fab.waiting.find? fun o => o.sameChannel r) == some r
  match next with
  | none => .next s
  | some r =>
    if s.fab.mayActivate stack s.timer then
      .next (s.modFab fun f => { f with waiting := f.waiting.erase r }.activate r s.timer)
    else .next s

/-! ### Channels (R56 to R61) -/

/-- The number of a channel state in NEW and OLD of a Milepost record, which neither R56 nor R328 gives. DESIGN CHOICE, log entry 97. -/
def ChState.code (x : ChState) : Nat := match x with | .live => 0 | .predicted => 1 | .failed => 2 | .retired => 3

def Fabric.chState (f : Fabric) (k : Nat) : ChState := aget .live f.channels k

/-- A channel changes state, and the Milepost table records it (R56). -/
def State.setChannel (s : State) (k : Nat) (x : ChState) (count : Nat) : State :=
  (s.modFab fun f => { f with channels := aset f.channels k x }).milepost 5 x.code (s.fab.chState k).code (objChannel k) count

/-- The corrected errors of a channel, counted up to now (R324). -/
def State.countErrors (s : State) (k : Nat) : State :=
  s.modFab fun f => { f with corrected := aset f.corrected k (aget 0 f.corrected k + Config.correctedErrors k s.steps) }

/-- CHANNEL_PREDICTED (R56, R58): with the retirement notice to the supervisor and the host. -/
def execChannelPredicted (stack ch : Nat) (s : State) : Out :=
  let k := chKey stack ch
  if s.fab.liveTable.contains k && s.fab.chState k == .live then 
    let s1 := s.countErrors k
    .next ((s1.setChannel k .predicted (aget 0 s1.fab.corrected k)).rasEvent Config.deviceQueue)
  else .next s

/-- CHANNEL_FAILED (R56). -/
def execChannelFailed (stack ch : Nat) (s : State) : Out :=
  let k := chKey stack ch
  if s.fab.liveTable.contains k && (s.fab.chState k == .live || s.fab.chState k == .predicted) then
    .next ((s.setChannel k .failed (s.errors (objChannel k))).rasEvent Config.deviceQueue)
  else .next s

/-- The device is empty: no resident strand, no job in flight, no queued launch (R57). A launch-port write that has come but is not
accepted yet is no queued launch. DESIGN CHOICE, log entry 57. -/
def State.isEmpty (s : State) : Bool :=
  (s.strands.all fun t => t.stand == .none) && s.sys.launches.isEmpty &&
  s.fab.clusters.all fun c => c.2.jobs.all fun j => j.st == .settled

/-- Channels leave the live table in one generation change (R46, R57, R59). -/
def State.leaveChannels (s : State) (ks : List Nat) : State :=
  let stack := decide (1 < ks.length)
  let s1 := s.modFab fun f => { f with
    channels := ks.foldl (fun l k => aset l k .retired) f.channels
    live := f.live - ks.length
    gen := (f.gen + 1) % 2 ^ 16 }
  let s2 := ks.foldl (fun s2 k => s2.milepost 5 3 (s.fab.chState k).code (objChannel k) 0) s1
  let s3 := if stack then s2.milepost 6 3 0 (objChannel (ks.headD 0 % 16)) 0 else s2
  s3.checkRetired

/-- All of local HBM written with zeros, which read as 0 under every key, and no poison mark (R57, R326, R331); no cache of the data, and no
instruction cache, holds a line of them any more. DESIGN CHOICE, log entries 8 and 116. -/
def Mem.zeroHbm (m : Mem) : Mem :=
  { m with hbm := [], tags := [], array := [], poison := [], msc := [], caches := [], icaches := [], past := [] }

/-- FAILED_CHANNEL_RETIREMENT (R57): on an empty device, without a copy. -/
def execFailedChannelRetirement (stack ch : Nat) (s : State) : Out :=
  let k := chKey stack ch
  if s.isEmpty && s.fab.retiring.isNone && s.fab.liveTable.contains k && s.fab.chState k == .failed then
    .next ((s.modMem Mem.zeroHbm).leaveChannels (s.fab.leaving k))
  else .next s

/-- The migration windows of the space that stays (R58, R59). DEDUCED, log entry 27. -/
def Fabric.windows (f : Fabric) : Nat := (f.live - f.shed) * 8

/-- MIGRATION_WINDOW_STALL (R59): ingress to a window stops. -/
def execMigrationWindowStall (w : Nat) (s : State) : Out :=
  let f := s.fab
  if f.retiring.isSome && f.stalled.isNone && decide (w < f.windows) && !f.moved.contains w then
    .next (s.modFab fun f => { f with stalled := some w })
  else .next s

/-- The lines of a window that cannot be read are written as poisoned (R59). -/
def State.poisonWindow (s : State) (w : Nat) : State :=
  if s.fab.channels.any fun c => c.2 = .failed then
    (List.range (2 ^ 22)).foldl (fun s1 i => if s.linePoison (w * 2 ^ 22 + i) then s1.markPoison (w * 2 ^ 22 + i) else s1) s
  else s

/-- MIGRATION_WINDOW_SWITCH (R59): the window's data reach their homes under the new map, and its held accesses go on in the order in
which each source issued them; after the last window the channels are RETIRED. What the memory-side cache holds dirty of the window is in
the array after the switch. DESIGN CHOICE, log entry 115. -/
def execMigrationWindowSwitch (w : Nat) (s : State) : Out :=
  match s.fab.retiring with
  | none => .next s
  | some k =>
    if s.fab.stalled = some w then
      let s1 := ((s.poisonWindow w).toArray (w * 2 ^ 28) ((w + 1) * 2 ^ 28)).modFab fun f =>
        { f with stalled := none, moved := w :: f.moved }
      let s2 := if s1.fab.moved.length < s1.fab.windows then s1
        else (s1.modFab fun f => { f with moved := [], retiring := none, shed := 0 }).leaveChannels (s.fab.leaving k)
      .next s2.releaseHeld
    else .next s

/-! ### Ports (R309, R321) -/

/-- PORT_WIDTH_CHANGE (R321): 8 lanes, then 6, then 4, then retired. -/
def execPortWidthChange (port : Nat) (s : State) : Out :=
  let old := aget 8 s.fab.ports port
  let new := match old with | 8 => 6 | 6 => 4 | _ => 0
  if old = 0 ∨ Config.ports ≤ port then .next s
  else .next ((s.modFab fun f => { f with ports := aset f.ports port new }).milepost 7 new old (objPort port) (s.errors (objPort port)))

/-! ### Errors that the hardware finds (R49, R96, R98, R307, R308) -/

/-- Banks of a core's stores that keep failing: more than 4 of the scratchpad's 32, or of the accumulator store's 16, retire the core
(R100, R102, R308). -/
def Core.worn (k : Core) : Bool :=
  decide (4 < (k.banks.filter fun b => decide (b < 32)).length) || decide (4 < (k.banks.filter fun b => decide (32 ≤ b)).length)

/-- An error, as it takes effect. A line of DRAM is poisoned as it enters the memory-side cache, unless that cache holds it (R49). A
clean line of a cluster cache is dropped, to be fetched again, and a dirty one is poisoned (R96). A word of a window is poisoned
(R98). -/
def State.hwError (s : State) (e : HwError) : State :=
  match e with
  | .hbmLine ln => if s.mem.msc.contains ln then s else (s.markPoison ln).spoil [.line ln]
  | .cacheLine c ln =>
    let s1 := s.setCache c ((s.cache c).filter fun l => l.tag ≠ ln || l.dirty != 0)
    if (s1.cache c).any fun l => l.tag == ln then s1.spoilLine c ln else s1
  | .window x => s.spoilWords [x]
  | .group c k g => if (s.cluster c).logical.contains k && decide (g < 4) then s.retireCore c k 1 else s
  | .bank c k b =>
    let x := s.fab.core c k
    if (s.cluster c).logical.contains k && decide (b < 48) && !x.banks.contains b then
      let s1 := s.modCore c k fun y => { y with banks := b :: y.banks }
      if (s1.fab.core c k).worn then s1.retireCore c k (s1.fab.core c k).banks.length else s1
    else s

end Sys2Proof.Machine
end

