-- ==== Sys2Proof/Machine/Events.lean ====
section
/-!
DEFINITION. The events of passes (spec/09 R152, R161) and of the matrix engine (spec/14 R237 to R245).
-/

namespace Sys2Proof.Machine

/-! ### Passes -/

/-- PASS_START (R152): the oldest pass, if it waited, starts with its whole-pass checks. DESIGN CHOICE, log entry 7. -/
def execPassStart (s : State) : Out :=
  match s.st.passes with
  | p :: _ => if s.runs s.st && p.st == .waiting then runE (startWaiting 0 p) s else .next s
  | [] => .next s

/-- STRIP_COMMIT (R161): pass `p` of the strand, while it runs, takes its checks and a strip, which commits or finds its fault. -/
def execStripCommit (p : Nat) (s : State) : Out :=
  match s.st.passes[p]? with
  | none => .next s
  | some q =>
    if s.runs s.st && q.st == .running && q.fault.isNone && !q.done then runE (stripTurn p q) s else .next s

/-- PASS_COMPLETE (R161): the oldest pass, once its last strip has committed. -/
def execPassComplete (s : State) : Out :=
  match s.st.passes with
  | p :: _ => if s.runs s.st && p.done then runE (completePass p) s else .next s
  | [] => .next s

/-! ### The matrix engine -/

/-- The targets of an operation that have failed since it stood as `o`. -/
def State.failedSince (s : State) (c : Nat) (o : MOp) : List Nat :=
  match (s.cluster c).mops.find? fun q => q.id = o.id with
  | none => []
  | some q => o.targets.filter fun t => bitAt (q.failed &&& ~~~ o.failed).toNat t

/-- MMA_EXECUTE (R245): the next operation of the slot period runs on every target, for some k-blocks or to its end; a core of `x.bad` on
which a block has failed its residue check three times is retired (R242). -/
def execMmaExecute (c : Nat) (x : MmaTurn) (s0 : State) : Out :=
  let s := s0.latchSlot c
  match (s.cluster c).nextMop with
  | none => .next s
  | some o =>
    runE (do
      runMop c o x.bad (x.blocks.getD o.kblocks)
      modify fun s => (s.failedSince c o).foldl (fun s t => s.retireCore c (s.physCore c t) 3) s) s

/-- MMA_COMPLETE (R239): the oldest operation that has run leaves the queue. -/
def execMmaComplete (c : Nat) (s : State) : Out :=
  match (s.cluster c).mops.find? fun o => o.done with
  | none => .next s
  | some o => .next (s.modCluster c fun x => { x with mops := x.mops.filter fun q => q.id ≠ o.id })

/-- SLOT_PERIOD (R244): the slot of this period of TIMER becomes active in every MCC. -/
def execSlotPeriod (s : State) : Out := .next (s.fab.clusters.foldl (fun s c => s.latchSlot c.1) s)

end Sys2Proof.Machine
end

