-- ==== Sys2Proof/Machine/Fetch.lean ====
section
/-!
DEFINITION. Fetching a word (spec/02 R21, spec/06 R95, spec/04 R66): through the scalar translation cache of the front end and its
instruction cache, which is not coherent with data writes.
-/

namespace Sys2Proof.Machine

/-- The copy of a line in an instruction cache. DESIGN CHOICE, log entry 61. -/
def State.fetchedLine (s : State) (front tenant ln : Nat) : Option Line :=
  (aget [] s.mem.icaches front).find? fun l => l.tag = ln ∧ l.tenant = tenant

/-- An instruction cache with one more line: a full one gives up another (R10). DESIGN CHOICE, log entry 61. -/
def State.fetchIn (s : State) (front : Nat) (x : Line) : State :=
  let ls := (aget [] s.mem.icaches front).filter fun y => y.tag ≠ x.tag
  let kept := if ls.length < Config.icacheLines then ls
    else ls.eraseIdx (Config.victim s.steps (ls.map Line.tag) % ls.length)
  s.modMem fun m => { m with icaches := aset m.icaches front ({ x with dirty := 0 } :: kept) }

/-- The four bytes of the word at an address, with the poison of their line. A line of local HBM is filled through the cluster
cache; host and peer pages are not held (R93). -/
def fetchBytes (w : Who) (front : Nat) (va : Word) : M (List Byte × Bool) := do
  let l ← translate w .fetch va 4
  match l with
  | .hbm pa ten => do
    let s ← get
    match s.fetchedLine front ten (pa / 64) with
    | some x => pure ((x.bytes.drop (pa % 64)).take 4, x.poison)
    | none => do
      let (s1, x) := s.fillLine w.cluster ten (pa / 64)
      set (s1.fetchIn front x)
      pure ((x.bytes.drop (pa % 64)).take 4, x.poison)
  | l => readLoc w va l 4

/-- The word at the strand's PC, its least significant byte at the lowest address (R21); poisoned data raises 0x13 (R49). -/
def fetch : M IWord := do
  let s ← get
  let (bs, bad) ← fetchBytes s.who s.st.front s.st.pc
  if bad then raise 0x13 0 s.st.pc
  pure (BitVec.ofNat 32 (leNat bs))

end Sys2Proof.Machine
end

