-- ==== Sys2Proof/Machine/Place.lean ====
section
/-!
DEFINITION. The nest walker and the scheduler (spec/19 R287 to R294): iterations and what they start with, placement, aging,
pre-emption and restore, with the save area of spec/21 R303.
-/

namespace Sys2Proof.Machine

/-! ### Iterations (R287, R288) -/

/-- The indices of the dimensions, innermost first in `order`, for a linear iteration. -/
def nestIndices (bounds order : List Nat) (k : Nat) : List (Nat × Nat) :=
  match order with
  | [] => []
  | d :: r => let n := bounds.getD d 1; (d, k % n) :: nestIndices bounds r (k / n)

def Launch.index (l : Launch) (k d : Nat) : Nat := aget 0 (nestIndices l.bounds l.order k) d

/-- The group-table entry of a slot for an iteration (R282). -/
def Launch.entryOf (l : Launch) (k slot : Nat) : Option Nat := (l.rules.getD slot none).map fun g => g.gidx + k / 2 ^ g.shift

/-- GROUPS of an iteration (R116, R288). -/
def Launch.groupsWord (l : Launch) (k : Nat) : Word :=
  BitVec.ofNat 64 (((List.range 4).map fun j => match l.entryOf k j with
    | none => 0
    | some i => i % 256 * 2 ^ (8 * j) + 2 ^ (32 + j)).sum)

/-! ### Gangs (R291) -/

/-- The iterations of a launch that hold a group-table entry lie from the first to before the second number. -/
def Launch.span2 (l : Launch) (idx : Nat) : Option (Nat × Nat) :=
  let p := l.product
  let ivs := l.rules.filterMap fun r => r.bind fun g =>
    if g.covers p idx then
      let lo := (idx - g.gidx) * 2 ^ g.shift
      some (lo, min p (lo + 2 ^ g.shift))
    else none
  match ivs with
  | [] => none
  | a :: r => some (r.foldl (fun b x => (min b.1 x.1, max b.2 x.2)) a)

/-- The end of the iterations that are placed together with those before `e`. -/
def Launch.gangEnd (l : Launch) (e fuel : Nat) : Nat :=
  match fuel with
  | 0 => e
  | fuel + 1 =>
    match (List.range 256).findSome? fun i => (l.span2 i).bind fun q => if q.1 < e ∧ e < q.2 then some q.2 else none with
    | none => e
    | some e1 => l.gangEnd e1 fuel

/-- How many iterations a launch places at once: with COR = 1 and SPILL = 0 all that a group ties together, and else one (R291). -/
def Launch.gang (l : Launch) : Nat := if l.cor && !l.spill then l.gangEnd (l.placed + 1) 256 - l.placed else 1

/-! ### Priority (R292) -/

def Launch.effective (l : Launch) : Nat := min 7 (l.prio + l.aged)

def State.savedOf (s : State) (l : Launch) : List Strand := s.strands.filter fun t => t.stand == .saved && t.launch == l.id

/-- A launch that the intake keeps: eligible, with iterations to place or strands to restore (R292). -/
def State.kept (s : State) (l : Launch) : Bool := l.eligible && (decide (l.placed < l.product) || !(s.savedOf l).isEmpty)

/-- The kept launches: effective priority, highest first, and then arrival (R292). -/
def State.ordered (s : State) : List Launch :=
  (s.sys.launches.filter s.kept).mergeSort fun a b =>
    decide (b.effective < a.effective) || (a.effective == b.effective && decide (a.id ≤ b.id))

/-! ### Parts (R15, R99, R240, R290) -/

/-- Strands that stand on the MCC slots of a cluster. -/
def State.onMccOf (s : State) (c : Nat) : List Strand := s.residents.filter fun t => t.cluster = c ∧ t.span = .ctrl

/-- A matrix operation names a core's stores that is of another context, or that the zeroing of R99 would meet because the core last held
strands of another context (R240). -/
def State.mopBars (s : State) (c k ctx : Nat) : Bool :=
  (s.cluster c).mops.any fun o =>
    (o.ctx != ctx || (s.fab.core c k).ctx != some ctx) && o.names (logicalOf (s.cluster c).logical k)

/-- A cluster lets a launch place strands: while it drains, only those it has admitted (R308). -/
def Cluster.admits (x : Cluster) (l : Launch) : Bool := !x.draining || x.admitted.contains l.id

/-- A core offers a mask of lane groups to a context (R15, R99, R290). -/
def State.maskFree (s : State) (c k ctx mask : Nat) : Bool :=
  let core := s.fab.core c k
  let here := s.onCore c k
  !core.fenced && !s.mopBars c k ctx && here.all (fun t => t.ctx == ctx && t.span != .wide && t.lgs.toNat &&& mask == 0) &&
  ((here.isEmpty && !core.pin) || (partMasks core.part).contains mask)

/-- The live cores of a cluster: those that are not fenced (R15, R308). -/
def State.live (s : State) (c : Nat) : List Nat := (s.cluster c).logical.filter fun k => !(s.fab.core c k).fenced

/-- A free place for a strand of a span and context. DEDUCED, log entry 31. -/
def State.spotFree (s : State) (x : Spot) (sp : Span) (ctx : Nat) : Bool :=
  let cl := s.cluster x.cluster
  s.fab.logical.contains x.cluster &&
  match sp with
  | .ctrl => x.mcc && decide (x.slot < 4) && !(s.onMccOf x.cluster).any fun t => t.slot == x.slot
  | .wide => !x.mcc && x.lgs == 15 && x.slot == 0 && (s.live x.cluster).contains x.core &&
      (cl.logical.all fun k => (s.onCore x.cluster k).isEmpty) && (s.live x.cluster).all fun k => s.maskFree x.cluster k ctx 15
  | _ => !x.mcc && decide (x.slot < 4) && cl.logical.contains x.core && (spanMasks sp).contains x.lgs.toNat && s.maskFree x.cluster x.core ctx x.lgs.toNat &&
      !(s.onCore x.cluster x.core).any fun t => t.slot == x.slot

/-- A place that a launch may use for a new iteration. -/
def State.spotNew (s : State) (l : Launch) (x : Spot) : Bool :=
  l.clmask.contains x.cluster && (s.cluster x.cluster).admits l && !(l.span == .ctrl && (s.cluster x.cluster).mccFailed) &&
  s.spotFree x l.span l.ctx

/-- A place that a saved strand may use: a control strand returns to its cluster (R226), and a member pre-empted at a barrier
waits for its phase (R291). -/
def State.spotBack (s : State) (l : Launch) (t : Strand) (x : Spot) : Bool :=
  (if t.span = .ctrl then x.cluster == t.cluster else l.clmask.contains x.cluster) && (s.cluster x.cluster).admits l &&
  s.spotFree x t.span t.ctx &&
  (match t.spilled with
   | none => true
   | some g => match s.groupOf t g with | none => true | some e => decide (t.arrive.getD g 0 ≤ e.c))

/-- The places of a span on one core. -/
def coreSpots (c k : Nat) (sp : Span) : List Spot :=
  (spanMasks sp).flatMap fun m => (List.range 4).map fun i => ⟨c, k, i, BitVec.ofNat 4 m, false⟩

/-- The places of a cluster for a span. -/
def Cluster.spots (x : Cluster) (c : Nat) (sp : Span) : List Spot :=
  match sp with
  | .ctrl => (List.range 4).map fun i => ⟨c, Config.mccCore, i, 0, true⟩
  | .wide => x.logical.map fun k => ⟨c, k, 0, 15, false⟩
  | _ => x.logical.flatMap fun k => coreSpots c k sp

def State.spots (s : State) (cs : List Nat) (sp : Span) : List Spot := cs.flatMap fun c => (s.cluster c).spots c sp

/-- Save areas of a context that are free (R319). -/
def Ctx.freeAreas (c : Ctx) : Nat := c.saveCount - c.areas.length

/-- A place that a strand of the launch waiting for restore may use goes to that strand. -/
def State.wantedBack (s : State) (l : Launch) (x : Spot) : Bool := (s.savedOf l).any fun t => s.spotBack l t x

/-- A place that is left for a new iteration of a launch. -/
def State.spotLeft (s : State) (l : Launch) (x : Spot) : Bool := !s.wantedBack l x && s.spotNew l x

/-- New strands of a launch that the free parts of a cluster take at once. -/
def State.freeParts (s : State) (l : Launch) (c : Nat) : Nat :=
  let left := ((s.cluster c).spots c l.span).filter fun x => s.spotLeft l x
  match l.span with
  | .ctrl => left.length
  | .wide => min 1 left.length
  | _ => (left.map fun x => (x.core, x.lgs)).eraseDups.length

/-- A launch may begin the placement of its next iteration: save areas and, with COR = 1 and SPILL = 0, parts are free for it and for
every member that is placed with it (R291, R319). DEDUCED, log entry 31. -/
def State.mayBegin (s : State) (l : Launch) : Bool :=
  decide (l.placed < l.product) &&
  match s.ctx? l.ctx with
  | none => false
  | some c => decide (l.gang ≤ c.freeAreas) && (l.gang == 1 || decide (l.gang ≤ (l.clmask.map fun k => s.freeParts l k).sum))

/-- A launch can use a place (R292): for a strand waiting for restore, or, if it may begin one, for a new iteration. -/
def State.usesAt (s : State) (begins : Bool) (l : Launch) (x : Spot) : Bool := s.wantedBack l x || (begins && s.spotNew l x)

def State.canUse (s : State) (l : Launch) (x : Spot) : Bool := s.usesAt (s.mayBegin l) l x

/-- A launch can use some place. -/
def State.placeable (s : State) (l : Launch) : Bool :=
  let b := s.mayBegin l
  (s.spots s.fab.logical l.span).any fun x => s.usesAt b l x

/-! ### Victims (R293) -/

/-- The effective priority of a strand's launch. -/
def State.prioOf (s : State) (t : Strand) : Nat := ((s.launch? t.launch).map Launch.effective).getD 0

/-- The sets whose removal frees a part of a span on a core: in its partition the strands of the part and those of other contexts, else
all. -/
def State.coreVictims (s : State) (c k ctx : Nat) (sp : Span) : List (List Strand) :=
  let core := s.fab.core c k
  let here := s.onCore c k
  if core.fenced || s.mopBars c k ctx then []
  else
    (spanMasks sp).filterMap fun m =>
      if (partMasks core.part).contains m then
        some (here.filter fun t => t.span == .wide || t.ctx != ctx || t.lgs.toNat &&& m != 0)
      else if !core.pin then some here
      else none

/-- The candidate sets of a launch in a cluster. -/
def State.clusterVictims (s : State) (l : Launch) (c : Nat) : List (List Strand) :=
  let x := s.cluster c
  if !x.admits l then []
  else
    match l.span with
    | .ctrl => (s.onMccOf c).map fun t => [t]
    | .wide =>
      if (s.live c).all fun k => (!(s.fab.core c k).pin || (s.fab.core c k).part == 0) && !s.mopBars c k l.ctx
      then [s.residents.filter fun t => t.cluster = c ∧ t.span ≠ .ctrl] else []
    | sp => x.logical.flatMap fun k => s.coreVictims c k l.ctx sp

/-- The clusters in which a launch has something to place. -/
def State.wanted (s : State) (l : Launch) : List Nat :=
  let back := (s.savedOf l).filter fun t => t.spilled.isNone
  let fresh := decide (l.placed < l.product) && (s.ctx? l.ctx).any fun c => decide (0 < c.freeAreas)
  if l.span = .ctrl then
    ((if fresh then l.clmask.filter fun c => !(s.cluster c).mccFailed else []) ++ back.map fun t => t.cluster).eraseDups
  else if fresh || !back.isEmpty then l.clmask
  else []

/-- The first launch of the order, when it cannot be placed (R293). -/
def State.stuckLaunch (s : State) : Option Launch := s.ordered.head?.filter fun l => !s.placeable l

/-- The order among candidate sets: the smallest, then the lowest highest priority, then the youngest. -/
def State.worse (s : State) (a b : List Strand) : Bool :=
  let top (v : List Strand) : Nat := v.foldl (fun m t => max m (s.prioOf t)) 0
  let young (v : List Strand) : Nat := v.foldl (fun m t => max m (t.age * 2 ^ 32 + t.sid)) 0
  decide (a.length < b.length) ||
  (a.length == b.length && (decide (top a < top b) || (top a == top b && decide (young b ≤ young a))))

/-- The state without some of the strands on their parts. -/
def State.without (s : State) (gone : Strand → Bool) : State :=
  s.mapStrands fun t => if t.stand = .resident && gone t then { t with stand := .saved } else t

/-- The state without the strands that a launch may pre-empt. -/
def State.withoutLower (s : State) (l : Launch) : State := s.without fun t => decide (s.prioOf t < l.effective)

/-- The victim set (R293). A launch that pre-empting could not place either, for want of parts for a whole gang, has none. DEDUCED, log
entry 32. -/
def State.victims (s : State) : List Strand :=
  match s.stuckLaunch with
  | none => []
  | some l =>
    if !(s.withoutLower l).placeable l then []
    else
      let sets := ((s.wanted l).flatMap fun c => s.clusterVictims l c).filter fun v =>
        !v.isEmpty && v.all fun t => decide (s.prioOf t < l.effective)
      ((sets.mergeSort fun a b => s.worse a b).head?).getD []

/-! ### To whom a place goes (R292) -/

/-- What a launch asks for: the state in which it looks for places, and whether it may begin an iteration there. -/
structure Bid where
  launch : Launch
  view : State
  begins : Bool

/-- The bids of the kept launches, in order. One that waits for its victims looks for places as if they had gone, so that what they leave
is kept for it until all of it is there (R291, R293). -/
def State.bids (s : State) : List Bid :=
  let vs := s.victims
  s.ordered.zipIdx.map fun q =>
    if q.2 = 0 && !vs.isEmpty then
      ⟨q.1, s.without fun t => vs.any fun v => v.sid == t.sid, (s.withoutLower q.1).mayBegin q.1⟩
    else ⟨q.1, s, s.mayBegin q.1⟩

/-- The places of a span that cannot be taken once a strand of span `sp` has taken the place `x` (R15): those on its lane groups, on an
empty core that it would partition, on every core for a wide strand, and a wide strand's own. -/
def State.rivals (s : State) (sp : Span) (x : Spot) (want : Span) : List Spot :=
  let cl := s.cluster x.cluster
  match sp, want with
  | .ctrl, .ctrl => [x]
  | .ctrl, _ | _, .ctrl => []
  | _, .wide => cl.spots x.cluster .wide
  | .wide, _ => cl.spots x.cluster want
  | _, _ =>
    let cuts := (s.onCore x.cluster x.core).isEmpty && !(s.fab.core x.cluster x.core).pin
    (coreSpots x.cluster x.core want).filter fun y => cuts || y.lgs &&& x.lgs != 0

/-- Whether a strand of span `sp` at a place would take from a bid a place that its launch can use. -/
def Bid.meets (b : Bid) (sp : Span) (x : Spot) : Bool :=
  (b.view.rivals sp x b.launch.span).any fun y => b.view.usesAt b.begins b.launch y

/-- The launch that a free place goes to: the first that can use its part (R292). -/
def firstOf (bs : List Bid) (sp : Span) (x : Spot) : Option Launch := (bs.find? fun b => b.meets sp x).map Bid.launch

def State.firstUser (s : State) (sp : Span) (x : Spot) : Option Launch := firstOf s.bids sp x

/-- A free place goes to a new iteration of a launch. -/
def State.givesNew (s : State) (l : Launch) (x : Spot) : Bool := (s.firstUser l.span x).any (fun f => f.id == l.id) && s.spotLeft l x

/-! ### Starting a strand (R107, R268, R288, R305) -/

/-- The least save area of the pool that is free. -/
def Ctx.area (c : Ctx) : Nat := ((List.range (c.areas.length + 1)).find? fun i => !c.areas.contains i).getD 0

/-- The partition with the most parts of a span (R15). -/
def evenPart (sp : Span) : Nat := match sp with | .s8 => 3 | .s16 => 1 | _ => 0

/-- A part is taken: a core is no longer gated, and is zeroed for another context (R99). One that is empty and not pinned is cut into as
many parts of the strand's span as it holds; which partition it is given is left open (R290). DESIGN CHOICE, log entry 77. -/
def State.takeCore (s : State) (c k ctx : Nat) (sp : Span) : State :=
  let core := s.fab.core c k
  let s1 := if core.ctx = some ctx then s else s.modMem fun m =>
    let mine (key : Nat) : Bool := key / 2 ^ 24 == c * 32 + k
    { m with
      win := m.win.filter fun w => !mine w.1
      winPoison := m.winPoison.filter fun w => !mine (w * 4) }
  s1.modCore c k fun x => { x with
    ctx := some ctx
    gated := false
    part := if (s.onCore c k).isEmpty && !x.pin then evenPart sp else x.part }

/-- The cores that a strand occupies, taken. -/
def State.takeSpot (s : State) (x : Spot) (ctx : Nat) (sp : Span) : State :=
  match sp with
  | .ctrl => s
  | .wide => (s.live x.cluster).foldl (fun s k => s.takeCore x.cluster k ctx .wide) s
  | _ => s.takeCore x.cluster x.core ctx sp

/-- The registers of a strand at launch (R288). -/
def Launch.startRegs (l : Launch) (k : Nat) : Vector Word 32 :=
  ((((((Vector.replicate 32 (0 : Word)).set 2 (wd (l.index k 0))).set 3 (wd (l.index k 1))).set 4 (wd (l.index k 2))).set 5
    (wd (l.index k 3))).set 6 l.param).set 7 (wd k)

/-- The state registers of a strand at launch (R107, R288, R305). -/
def Launch.startSr (l : Launch) (c : Ctx) (k lanes area : Nat) : SRegs :=
  { SRegs.fresh with
    vlmax := 4096 * lanes
    strandkey := l.base + wd k
    iter := wd k
    groups := l.groupsWord k
    tdtbase := c.tdtbase
    tvec := c.tvec &&& ~~~ 3
    context := wd (c.tenant * 2 ^ 16 + c.asid)
    ptbase := c.ptbase &&& 0xFFFFFFF000000
    wmbase := c.wmbase
    wmsize := c.wmsize
    savearea := c.savePool + wd (8192 * area) }

/-- The cores that a wide strand occupies: the live cores of its cluster (R15). -/
def State.coresAt (s : State) (x : Spot) (sp : Span) : List Nat := if sp = .wide then s.live x.cluster else []

/-- A new strand at its place (R107, R288). DEDUCED, log entry 34. -/
def State.startStrand (s : State) (l : Launch) (c : Ctx) (x : Spot) : Strand :=
  let k := l.placed
  let t : Strand := { Strand.fresh with
    sid := s.sys.nextSid
    stand := .resident
    cluster := x.cluster
    core := if l.span = .ctrl then Config.mccCore else x.core
    slot := x.slot
    lgs := if l.span = .ctrl then 0 else x.lgs
    span := l.span
    cores := s.coresAt x l.span
    launch := l.id
    ctx := l.ctx
    age := s.steps
    regs := l.startRegs k
    pc := l.entry
    mode := .u
    fetched := true
    saveIdx := c.area }
  let counts := (List.range 4).map fun j => (((l.entryOf k j).bind fun i => afind c.groups i).map Group.c).getD 0
  { t with sr := l.startSr c k (s.liveLanes t) c.area, arrive := counts, start := counts }

/-- The strand whose turn it was goes to the bench, unless it is gone and nothing of it remains. -/
def State.benchWith (s : State) (t : Strand) : State :=
  { s with
    st := t
    bench := if s.st.stand = .none ∧ s.st.markers.isEmpty then s.bench else s.st :: s.bench }

/-- A launch is admitted to a cluster when its first strand is placed there, and sees from then on the number that the cluster has at
that moment (R12, R308). DEDUCED, log entry 26. -/
def State.admitTo (s : State) (n c : Nat) : State :=
  if (s.cluster c).admitted.contains n then s
  else (s.modCluster c fun x => { x with admitted := x.admitted ++ [n] }).modLaunch n fun l =>
    { l with clNum := aset l.clNum c (logicalOf s.fab.logical c) }

/-- A launch has placed a strand: its wait begins anew (R292, R293). -/
def Launch.served (l : Launch) (now : Nat) : Launch := { l with aged := 0, since := now }

/-- The next iteration of a launch starts at a place, with an acquire at system scope (R268, R288, R290). -/
def State.placeNext (s : State) (l : Launch) (c : Ctx) (x : Spot) : State :=
  let s1 := (s.takeSpot x l.ctx l.span).admitTo l.id x.cluster
  let s2 := (s1.modCtx l.ctx fun c => { c with areas := c.areas ++ [c.area] }).modLaunch l.id fun y =>
    { y.served s.timer with placed := y.placed + 1 }
  let s3 := s2.modSys fun y => { y with nextSid := y.nextSid + 1 }
  (s3.acquire x.cluster .sys).benchWith (s1.startStrand l c x)

/-- The next iterations of a launch start, each at its place, or none does. -/
def State.placeAll (s : State) (n : Nat) (xs : List Spot) : Option State :=
  match xs with
  | [] => some s
  | x :: r =>
    match s.launch? n with
    | none => none
    | some l =>
      match s.ctx? l.ctx with
      | none => none
      | some c => if s.spotLeft l x && decide (0 < c.freeAreas) then (s.placeNext l c x).placeAll n r else none

/-- STRAND_PLACEMENT (R288, R290, R291, R292): the iterations of a launch that are placed together start, each at a place that goes to
the launch; a cluster whose write-backs are held makes them wait (R60). -/
def execStrandPlacement (n : Nat) (xs : List Spot) (s : State) : Out :=
  match s.launch? n with
  | none => .next s
  | some l =>
    if s.mayBegin l && xs.length == l.gang && xs.all (fun x => s.givesNew l x && !s.holdsDirty x.cluster) then
      .next ((s.placeAll n xs).getD s)
    else .next s

/-- Places for the next iterations of a launch, one after another, each the first that is left after those before it. -/
def State.seats (s : State) (n : Nat) (from1 : List Spot) (k : Nat) : List Spot :=
  match k with
  | 0 => []
  | k + 1 =>
    match s.launch? n with
    | none => []
    | some l =>
      match s.ctx? l.ctx, from1.find? fun x => s.spotLeft l x with
      | some c, some x => x :: (s.placeNext l c x).seats n from1 k
      | _, _ => []

/-- A launch has waited 2 ms, 2,500,000 cycles, since its last placement or aging (R292). DEDUCED, log entry 83. -/
def State.agingDue (s : State) (l : Launch) : Bool := s.kept l && decide (l.since + 2500000 ≤ s.timer)

/-- PRIORITY_AGING (R292): 2 ms without a placement. -/
def execPriorityAging (n : Nat) (s : State) : Out :=
  match s.launch? n with
  | none => .next s
  | some l => if s.agingDue l then .next (s.modLaunch n fun y => { y with aged := y.aged + 1, since := y.since + 2500000 }) else .next s

/-! ### Who is pre-empted (R291, R308) -/

/-- The core of a strand is fenced (R308). -/
def State.onFenced (s : State) (t : Strand) : Bool :=
  match t.span with
  | .ctrl => false
  | .wide => t.cores.any fun k => (s.fab.core t.cluster k).fenced
  | _ => (s.fab.core t.cluster t.core).fenced

/-- The slot of a BAR.WAIT word (R280). -/
def barWaitSlot (w : IWord) : Option Nat :=
  (List.range 4).find? fun g => w.toNat = fmtR 0x34 0 0 (slotReg (Fin.ofNat 4 g)) 1

/-- The strand whose turn it is stands in BAR.WAIT on a phase that has not completed, as a member of a launch with COR = 1 and SPILL = 1:
its slot there, and the group-table entry (R291). -/
def State.barred (s : State) : Option (Nat × Nat) :=
  if s.st.stand != .resident || !(s.launch? s.st.launch).any (fun l => l.cor && l.spill) then none
  else
    match (fetch s).1 with
    | .error _ => none
    | .ok w =>
      (barWaitSlot w).bind fun g =>
        match s.st.groupIdx g, s.groupOf s.st g with
        | some idx, some e => if e.c < s.st.arrive.getD g 0 then some (g, idx) else none
        | _, _ => none

/-- A kept launch of a context with an unplaced member of a group, and no place that it can use. -/
def State.starved (s : State) (ctx idx : Nat) (l : Launch) : Bool :=
  l.ctx == ctx && ((l.span2 idx).any fun q => decide (l.placed < q.2)) && !((s.spots l.clmask l.span).any fun x => s.canUse l x)

/-- The state without the members that wait for a phase of a group: each would come back only once it has completed. -/
def State.withoutBarred (s : State) (ctx idx : Nat) : State :=
  let out := s.residents.filterMap fun t =>
    if t.ctx = ctx then (({ s with st := t } : State).barred.filter fun q => q.2 == idx).map fun q => (t.sid, q.1) else none
  s.mapStrands fun t => match afind out t.sid with
    | none => t
    | some g => { t with stand := .saved, spilled := some g }

/-- A place that a launch is given in that state lies where the strand stood. -/
def State.makesRoom (v : State) (t : Strand) (l : Launch) : Bool :=
  v.mayBegin l && (v.rivals t.span ⟨t.cluster, t.core, t.slot, t.lgs, t.span == .ctrl⟩ l.span).any fun y => v.givesNew l y

/-- The slot at which the strand waits in BAR.WAIT for a phase, when an unplaced member of the group, of its launch or of another that the
group joins (R289), can take a place that it leaves (R291). DEDUCED, log entry 32. -/
def State.spillSlot (s : State) : Option Nat :=
  match s.barred with
  | none => none
  | some (g, idx) =>
    match s.ordered.filter (s.starved s.st.ctx idx) with
    | [] => none
    | ls => let v := s.withoutBarred s.st.ctx idx; if ls.any (v.makesRoom s.st) then some g else none

/-! ### The save area (R303) -/

/-- The dwords of the save area from 0x0000 to 0x033F. -/
def State.saveDwords (s : State) : List Nat :=
  let t := s.st
  let r := t.sr
  let ws (l : List Word) : List Nat := l.map BitVec.toNat
  (List.range 32).map (fun i => (t.get (Fin.ofNat 32 i)).toNat) ++
  [r.vl, r.vrows, r.vpol.toNat, r.vprog] ++
  ws [r.fpctl, r.fpflags, r.determ, r.rngkey, r.draw, r.strandkey, r.iter, r.groups, r.tdtbase, r.qerr, t.pc] ++
  [modeBit t.mode + t.mark % 2 ^ 32 * 2 ^ 32] ++
  ws [r.tvec, r.epc, r.ecause, r.eva, r.eblame, r.eforce, r.estatus, r.escratch, r.context, r.ptbase, r.wmbase, r.wmsize, s.wmhead,
    r.istatus, r.savearea] ++ [0] ++
  (List.range 4).map (fun g => t.arrive.getD g 0 % 2 ^ 32 + t.start.getD g 0 % 2 ^ 32 * 2 ^ 32) ++
  (if t.span = .ctrl then [t.mm, t.mn, t.mtarget.toNat, (s.mopsOf t).length] else [0, 0, 0, 0]) ++
  (List.range 8).flatMap fun i => match t.markers[i]? with
    | none => [0, 0, 0, 0]
    | some m => [2 ^ 63 + m.slot, m.phase, m.serial - 1, 0]

/-- The save area: the dwords, the CRC-64, the format number, and the device's own bytes. DESIGN CHOICE, log entry 33. -/
def State.saveBytes (s : State) (k : Nat) : List Byte :=
  let body := leBytes 8 1 ++ (List.range 7344).map fun i => Config.saveByte k (0x350 + i)
  s.saveDwords.flatMap (leBytes 8) ++ leBytes 8 (crc64 body) ++ body

/-- A strand stopped for its save (R161, R168): the flags of committed strips are merged, VPROG names the strip of its oldest
running pass, and every pass in flight is marked. -/
def Strand.halt (t : Strand) : Strand :=
  let v := match t.passes with | p :: _ => if p.st = .running then p.next else t.sr.vprog | [] => t.sr.vprog
  { t.rouse with
    asks := []
    passes := t.passes.map fun p =>
      if p.inFlight then
        { p with flags := flNone, preempted := true, checked := false, descs := [], unsound := p.unsound.map Unsound.outdated
                 fault := if p.st = .waiting then none else p.fault }
      else p
    sr := { t.sr.addFlags t.passFlags with vprog := v } }

/-- The strand's context goes to its save area, at device scope (R293, R303). -/
def saveStrand (spill : Option Nat) : M Unit := do
  modify fun s => { s with st := s.st.halt }
  releaseAt (← get).st.cluster (← get).who.owner .dev
  let s ← get
  let t := s.st
  let va := t.sr.savearea
  if va.toNat % 8192 ≠ 0 then endContext t.ctx 0x15 va
  else do
    let k ← takeFree
    match ← attempt (devStore { s.who with user := false } va (s.saveBytes k) 130) with
    | .error .wait => throw Stop.wait
    | .error (.trap _ _ v) => endContext t.ctx 0x15 v
    | .ok _ =>
      modify fun s =>
        let s1 : State := { s with st := { s.st with stand := .saved, saveAddr := va, spilled := spill } }
        s1.modLaunch t.launch fun l => l.served s.timer

/-- PREEMPTION (R291, R293, R308): the strand is saved when its core is fenced, when it is in the victim set, or when it makes room
for a member of its group. DESIGN CHOICE, log entry 32. -/
def execPreemption (s : State) : Out :=
  if s.st.stand ≠ .resident then .next s
  else if s.onFenced s.st || s.victims.any (fun t => t.sid == s.st.sid) then runE (saveStrand none) s
  else
    match s.spillSlot with
    | some g => runE (saveStrand (some g)) s
    | none => .next s

/-! ### Restore (R303) -/

/-- The 8 KiB of a save area, read at device scope line by line. -/
def readArea (w : Who) (va : Word) (n : Nat) : M (List Byte) := do
  let ls ← (List.range n).mapM fun i => devLoad w (va + wd (64 * i)) 64
  pure ls.flatten

def dwordAt (bs : List Byte) (off : Nat) : Nat := leNat ((bs.drop off).take 8)

/-- Whether a save area may be loaded (R303): its CRC, its format number, and the matrix state of a control strand. -/
def State.areaOk (s : State) (bs : List Byte) : Bool :=
  let m := dwordAt bs 0x220
  let n := dwordAt bs 0x228
  dwordAt bs 0x340 == crc64 (bs.drop 0x348) && dwordAt bs 0x348 == 1 &&
  (s.st.span != .ctrl ||
    (decide (1 ≤ m) && decide (m ≤ 256) && decide (1 ≤ n) && decide (n ≤ 256) &&
      !bitsAbove (dwordAt bs 0x230) (min 24 (s.liveCores s.st.cluster))))

/-- The offsets of the RW state registers in the save area, with their numbers. -/
def savedRegs : List (Nat × Nat) :=
  [(0x110, 3), (0x120, 5), (0x128, 6), (0x130, 7), (0x138, 8), (0x140, 9), (0x180, 0x100), (0x188, 0x101), (0x190, 0x102),
   (0x198, 0x103), (0x1A0, 0x104), (0x1A8, 0x105), (0x1B0, 0x106), (0x1B8, 0x107), (0x1C0, 0x108), (0x1C8, 0x109), (0x1E8, 0x10E)]

/-- The strand with what a save area supplies. -/
def State.loadArea (s : State) (c : Ctx) (bs : List Byte) : State :=
  let s1 := (List.range 32).foldl (fun s i => s.setReg (Fin.ofNat 32 i) (wd (dwordAt bs (8 * i)))) s
  let s2 := savedRegs.foldl (fun s r => stateWrite r.2 (wd (dwordAt bs r.1)) s) s1
  let t := s2.st
  let pc := wd (dwordAt bs 0x170) &&& ~~~ 3
  { s2 with st := { t with
      pc := pc
      launching := t.launching.filter fun l => l.pc == pc
      copying := t.copying.filter fun c => c.pc == pc
      mode := if bitAt (dwordAt bs 0x178) 0 then .s else .u
      mm := if t.span = .ctrl then dwordAt bs 0x220 else t.mm
      mn := if t.span = .ctrl then dwordAt bs 0x228 else t.mn
      mtarget := if t.span = .ctrl then BitVec.ofNat 24 (dwordAt bs 0x230) else t.mtarget
      sr := { t.sr with wmbase := c.wmbase, wmsize := c.wmsize, savearea := t.saveAddr, vlmax := 4096 * s.liveLanes t } } }

/-- The saved strand takes its new place. -/
def State.seat (s : State) (x : Spot) : State :=
  let t := s.st
  { s with st := { t with
      stand := .resident
      cluster := x.cluster
      core := if t.span = .ctrl then Config.mccCore else x.core
      slot := x.slot
      lgs := if t.span = .ctrl then 0 else x.lgs
      cores := s.coresAt x t.span
      age := s.steps
      spilled := none } }

/-- The restore of a strand at its place: the acquire, the area, and what it supplies (R293, R303). -/
def restoreStrand (l : Launch) (c : Ctx) (x : Spot) : M Unit := do
  modify fun s => (((s.takeSpot x s.st.ctx s.st.span).admitTo l.id x.cluster).modLaunch l.id fun y => y.served s.timer).seat x
  acquireAt x.cluster .dev
  let s ← get
  match ← attempt (readArea { s.who with user := false } s.st.saveAddr 128) with
  | .error .wait => throw Stop.wait
  | .error (.trap _ _ v) => endContext c.num 0x15 v
  | .ok bs => if s.areaOk bs then modify fun s => s.loadArea c bs else endContext c.num 0xFE 0

/-- STRAND_RESTORE (R292, R303): the saved strand whose turn it is. -/
def execStrandRestore (x : Spot) (s : State) : Out :=
  match s.launch? s.st.launch with
  | none => .next s
  | some l =>
    match s.ctx? s.st.ctx with
    | none => .next s
    | some c =>
      if s.st.stand == .saved && (s.firstUser s.st.span x).any (fun f => f.id == l.id) && s.spotBack l s.st x then runE (restoreStrand l c x) s
      else .next s

end Sys2Proof.Machine
end

