-- ==== Sys2Proof/Machine/HostSide.lean ====
section
/-!
DEFINITION. What the host and the peers do (spec/24 R313 to R322, spec/18 R271, R272, R278): BAR0, BAR2, contexts, PRI and ATS, IDE,
and Sprinloth. What their accesses do stands in Ingress.lean.
-/

namespace Sys2Proof.Machine

/-! ### BAR2, BAR0 and contexts (R271, R284, R314, R315, R319) -/

/-- HOST_BAR2_READ (R315). -/
def execHostBar2Read (x : BarAt) (len : Nat) (s : State) : Out := .next (s.arrives (.bar2Read x.fn x.off len))

/-- HOST_BAR2_WRITE (R315). -/
def execHostBar2Write (x : BarAt) (bs : List Byte) (s : State) : Out := .next (s.arrives (.bar2Write x.fn x.off bs))

/-- REGISTER_WRITE (R314). -/
def execRegisterWrite (x : BarAt) (v : RegVal) (s : State) : Out := .next (s.arrives (.regWrite x.fn x.off v.len v.v))

/-- LAUNCH_PORT_WRITE (R284, R271): after the earlier posted writes of its function. -/
def execLaunchPortWrite (x : PortVal) (s : State) : Out := .next (s.arrives (.port x.fn x.pa))

/-- CTXACT_ACTIVATE (R319). -/
def execCtxactActivate (x : CtxVal) (s : State) : Out := .next (s.arrives (.activate x.fn x.num.toNat))

/-- CTXACT_DEACTIVATE (R319): of a context that is not active, it does nothing. -/
def execCtxactDeactivate (x : CtxVal) (s : State) : Out := .next (s.arrives (.deactivate x.fn x.num.toNat))

/-! ### PRI and ATS (R316) -/

/-- The answer to a page request that has none yet. -/
def State.answerPri (s : State) (k : Nat) (a : Option Nat) : State :=
  s.modSys fun y => { y with pri := (y.pri.zipIdx).map fun p =>
    if p.2 = k ∧ p.1.answer.isNone then { p.1 with answer := some a } else p.1 }

/-- PRI_RESPONSE (R316): the frame, or a failure. -/
def execPriResponse (k : Nat) (f : Option (BitVec 52)) (s : State) : Out := .next (s.answerPri k (f.map BitVec.toNat))

/-- PRI_TIMEOUT (R316): no answer within 100 ms. DESIGN CHOICE, log entry 59. -/
def execPriTimeout (k : Nat) (s : State) : Out := .next (s.answerPri k none)

/-- ATS_INVALIDATION (R316, R75): entries leave the ATS cache, and answers to page requests that no access has taken yet are void, so that
the access translates again. The accesses made with them have been performed. -/
def execAtsInvalidation (pasid : BitVec 20) (page : Option (BitVec 48)) (s : State) : Out :=
  let hit (asid pg : Nat) : Bool := asid == pasid.toNat && (match page with | none => true | some p => pg == p.toNat)
  .next ((s.modMem fun m => { m with atc := m.atc.filter fun e => !hit e.1 e.2.1 }).modSys fun y =>
    { y with pri := y.pri.filter fun p => !(p.answer.isSome && hit p.asid p.page) })

/-! ### IDE (R318) -/

/-- IDE_KM (R318): keys are programmed, and the stream is in use. -/
def execIdeKm (fn : Bool) (stream : Fin 5) (s : State) : Out :=
  .next { s with host := { s.host with
    ideKeys := if s.host.ideKeys.contains (fn, stream.val) then s.host.ideKeys else s.host.ideKeys ++ [(fn, stream.val)]
    insecure := s.host.insecure.filter fun f => f ≠ fn } }

/-- IDE_INSECURE (R318): traffic of the link stops, the contexts of the link end with STATUS 0xFE, and a RAS event is recorded. A record
that would stand on a host page of the link cannot be written (R283). DEDUCED, log entry 58. -/
def execIdeInsecure (fn : Bool) (s : State) : Out :=
  if !s.host.ideKeys.any fun k => k.1 = fn then .next s
  else
    let s1 := ({ s with host := { s.host with
      insecure := if s.host.insecure.contains fn then s.host.insecure else s.host.insecure ++ [fn]
      ideKeys := s.host.ideKeys.filter fun k => k.1 ≠ fn } } : State).modSys fun y =>
        { y with owed := y.owed.filter fun o => o.link ≠ .host fn }
    let s2 := (s.sys.ctxs.filter fun c => c.hfn = fn).foldl (fun s c => s.arrives (.endContext c.num none)) s1
    .next ((s2.milepost 10 0 0 0 0).rasEvent Config.deviceQueue)

/-! ### Peers (R272, R320, R322) -/

/-- PEER_ACCESS (R272). -/
def execPeerAccess (a : PeerOp) (s : State) : Out := .next (s.arrives (.peer a))

def State.arm (s : State) (a : Armed) : State := s.modSys fun y => { y with armed := y.armed ++ [a] }

/-- An access to a peer fails (R322): stores that wait for its acknowledgement, and write-backs asked of it, are over once a RAS event that
names it is recorded; with none under way it is the next access that fails. DESIGN CHOICE, log entry 14. -/
def State.peerFailure (s : State) (p : Nat) : State :=
  let asked := s.strands.any fun t => t.asks.any fun k => k.peer == p && !k.acked
  if asked || s.sys.owed.any fun o => o.link == .peer p then
    let s1 := s.mapStrands fun t => { t with asks := t.asks.map fun k => if k.peer = p then { k with acked := true } else k }
    ((s1.modSys fun y => { y with owed := y.owed.filter fun o => o.link ≠ .peer p }).milepost 10 0 0 p 0).rasEvent Config.deviceQueue
  else s.arm (.peerError p)

/-- PEER_ERROR_COMPLETION (R322). -/
def execPeerErrorCompletion (p : BitVec 12) (s : State) : Out := .next (s.peerFailure p.toNat)

/-- PEER_TIMEOUT (R322): no completion within 1 ms. -/
def execPeerTimeout (p : BitVec 12) (s : State) : Out := .next (s.peerFailure p.toNat)

/-- LINK_TRAINING (R320): Tollhouse sets the domain number. -/
def execLinkTraining (d : BitVec 12) (s : State) : Out := .next (s.modFab fun f => { f with domain := some d.toNat })

/-- HOST_UNSUPPORTED_REQUEST (R278): the next atomic or LDA of a host page fails. -/
def execHostUnsupportedRequest (s : State) : Out := .next (s.arm .hostUnsupported)

end Sys2Proof.Machine
end

