-- ==== Sys2Proof/Machine/Hash.lean ====
section
/-!
DEFINITION. SHA3-512 and SHAKE256 (FIPS 202), with which Tollhouse extends a measurement register and takes the identity seed
(spec/24 R323).
-/

namespace Sys2Proof.Machine

/-- The rotation of a lane, by its place x + 5 y. -/
def keccakRot : List Nat :=
  [0, 1, 62, 28, 27, 36, 44, 6, 55, 20, 3, 10, 43, 25, 39, 41, 45, 15, 21, 8, 18, 2, 61, 56, 14]

def keccakRc : List Word :=
  [0x0000000000000001, 0x0000000000008082, 0x800000000000808A, 0x8000000080008000, 0x000000000000808B, 0x0000000080000001,
   0x8000000080008081, 0x8000000000008009, 0x000000000000008A, 0x0000000000000088, 0x0000000080008009, 0x000000008000000A] ++
  [0x000000008000808B, 0x800000000000008B, 0x8000000000008089, 0x8000000000008003, 0x8000000000008002, 0x8000000000000080,
   0x000000000000800A, 0x800000008000000A, 0x8000000080008081, 0x8000000000008080, 0x0000000080000001, 0x8000000080008008]

/-- One round of Keccak-f[1600] on 25 lanes. -/
def keccakRound (rc : Word) (a : List Word) : List Word :=
  let at1 (l : List Word) (x y : Nat) : Word := l.getD (x % 5 + 5 * (y % 5)) 0
  let col := (List.range 5).map fun x => (List.range 5).foldl (fun v y => v ^^^ at1 a x y) 0
  let mix (x : Nat) : Word := col.getD ((x + 4) % 5) 0 ^^^ (col.getD ((x + 1) % 5) 0).rotateLeft 1
  let t := (List.range 25).map fun i => at1 a (i % 5) (i / 5) ^^^ mix (i % 5)
  let b := (List.range 25).map fun i =>
    let x := (i % 5 + 3 * (i / 5)) % 5
    (at1 t x (i % 5)).rotateLeft (keccakRot.getD (x + 5 * (i % 5)) 0)
  (List.range 25).map fun i =>
    let x := i % 5
    let y := i / 5
    let v := at1 b x y ^^^ (~~~ at1 b (x + 1) y &&& at1 b (x + 2) y)
    if i = 0 then v ^^^ rc else v

def keccakF (a : List Word) : List Word := keccakRc.foldl (fun a rc => keccakRound rc a) a

/-- A block absorbed, of `r` bytes, a multiple of 8. -/
def keccakAbsorb (r : Nat) (a : List Word) (blk : List Byte) : List Word :=
  keccakF ((List.range 25).map fun i => a.getD i 0 ^^^ (if i < r / 8 then wd (leNat ((blk.drop (8 * i)).take 8)) else 0))

/-- A message filled up to whole blocks of `r` bytes: the bits that tell the functions apart, and the padding. -/
def keccakPad (r : Nat) (suffix : Byte) (m : List Byte) : List Byte :=
  let k := r - m.length % r
  if k = 1 then m ++ [suffix ||| 0x80] else m ++ [suffix] ++ List.replicate (k - 2) 0 ++ [0x80]

/-- The sponge, with an answer that one block holds. -/
def keccakHash (r : Nat) (suffix : Byte) (m : List Byte) (n : Nat) : List Byte :=
  let p := keccakPad r suffix m
  let a := (List.range (p.length / r)).foldl (fun a i => keccakAbsorb r a ((p.drop (r * i)).take r)) (List.replicate 25 0)
  (a.flatMap fun w => leBytes 8 w.toNat).take n

/-- SHA3-512: 64 bytes. -/
def sha3 (m : List Byte) : List Byte := keccakHash 72 0x06 m 64

/-- SHAKE256, its first 32 bytes. -/
def shake256 (m : List Byte) : List Byte := keccakHash 136 0x1F m 32

/-- The seed from which FIPS 204 derives the identity key pair (R323): by SHAKE256 over the fuse seed. -/
def identitySeed : BitVec 256 := BitVec.ofNat 256 (leNat (shake256 Config.fuseSeed))

/-- The extension of a measurement register (R323); byte 0 of a register is the least significant. -/
def extendMr (mr d : BitVec 512) : BitVec 512 := BitVec.ofNat 512 (leNat (sha3 (leBytes 64 mr.toNat ++ leBytes 64 d.toNat)))

end Sys2Proof.Machine
end

