-- ==== Sys2Proof/Machine/Toll.lean ====
section
/-!
DEFINITION. Tollhouse (spec/24 R323 to R328, R330, R331, spec/03 R58): boot, the mailbox and its commands, the lifecycle, and the
two resets.
-/

namespace Sys2Proof.Machine

/-! ### Boot and reset (R323, R331) -/

def Toll.extend (t : Toll) (k : Nat) (d : BitVec 512) : Toll := { t with mr := t.mr.set k (extendMr (t.mr.getD k 0) d) }

/-- The boot that follows a reset: the firmware is verified, and the measurement registers receive its digest, the supervisor
image's and the configuration's; or the device is in recovery. The seed of the identity key pair is taken from the fuses. DESIGN CHOICE, log
entry 16. -/
def State.boot (s : State) : State :=
  if s.toll.booted then s
  else
    let n := s.toll.boots + 1
    let t : Toll := { s.toll with booted := true, boots := n, seed := identitySeed }
    let ok := Config.bootVerifies n
    { s with toll :=
        if ok then
          { ((t.extend 0 (Config.bootDigest n 0)).extend 1 (Config.bootDigest n 1)).extend 2 (Config.bootDigest n 2) with ready := true }
        else { t with recovery := true } }

/-- Every tenant key is generated anew (R326, R331). -/
def State.rekey (s : State) : State :=
  { s with toll := { s.toll with epochs := (List.range 16).map fun t => (t, aget 0 s.toll.epochs t + 1) } }

/-- What a reset leaves of the clusters and cores: the retired parts, renumbered. -/
def State.keptFabric (s : State) : Fabric :=
  let f := s.fab
  { Fabric.fresh with
    logical := f.logical.filter fun c => !(s.cluster c).retired
    clusters := f.clusters.map fun c => (c.1, { Cluster.fresh with
      logical := c.2.logical.filter fun k => !(f.core c.1 k).fenced
      retired := c.2.retired
      mccFailed := c.2.mccFailed })
    cores := f.cores.map fun k => (k.1, { Core.fresh with
      fenced := k.2.fenced
      retired := k.2.fenced
      groups := k.2.groups })
    channels := f.channels
    live := f.live
    gen := f.gen
    ports := f.ports }

/-- A reset of the whole device (R331): every context ends with no completion record; the Milepost table, the fuses, the map
generation and the channel states stay. DEBUG returns to DEPLOYED, and a part left with no live cluster or stack is RETIRED (R325).
DEDUCED, log entry 41. -/
def State.resetDevice (s : State) : State :=
  let s1 := (({ (if s.toll.life = .debug then s.setLife .deployed else s) with fab := s.keptFabric } : State).rekey).checkRetired
  { s1 with
    st := Strand.fresh
    bench := []
    mem := { Mem.fresh with hostMem := s.mem.hostMem, peerMem := s.mem.peerMem }
    sys := { Sys.fresh with
      nextLaunch := s.sys.nextLaunch
      nextSid := s.sys.nextSid
      nextJob := s.sys.nextJob
      nextMop := s.sys.nextMop
      outbox := s.sys.outbox
      agenda := s.sys.agenda }
    host := HostSide.fresh
    toll := { s1.toll with
      booted := false
      ready := false
      recovery := false
      mr := List.replicate 8 0
      nonces := []
      debugOpen := false
      queue := [] }
    born := s.steps + 1 }

/-- COLD_RESET (R331): power-on. -/
def execColdReset (s : State) : Out := .next s.resetDevice

/-- WARM_RESET (R331): a Function Level Reset or a PCIe hot reset. -/
def execWarmReset (s : State) : Out := .next s.resetDevice

/-- LIFECYCLE_FUSE (R325): MANUFACTURE to DEPLOYED, or any state to RETIRED. -/
def execLifecycleFuse (retire : Bool) (s : State) : Out :=
  if retire then .next (if s.toll.life = .retired then s else s.setLife .retired)
  else .next (if s.toll.life = .manufacture then s.setLife .deployed else s)

/-! ### The mailbox (R324) -/

/-- A dword of the request. -/
def State.arg (s : State) (side : Side) (off : Nat) : Nat := leNat (s.mbxRead side off 8)

/-- A command is served when Tollhouse runs and it is the oldest of those that wait, of both sides (R324); a stalled window that holds the
device-side area delays it (R59). -/
def State.called (s : State) (side : Side) (code : Nat) : Bool :=
  s.toll.booted && s.toll.queue.head? == some (side, code) &&
  (match side with | .host => true | .supervisor => !s.heldRange (s.mbxPa 0) 0x4000)

/-- The command that is served waits no longer, and is answered. -/
def State.answer (s : State) (side : Side) (status : Nat) (body : List Byte) : State :=
  ({ s with toll := { s.toll with queue := s.toll.queue.drop 1 } } : State).respond side status body

/-- A command with its answer. -/
def command (side : Side) (code : Nat) (f : State → State × Nat × List Byte) (s : State) : Out :=
  if s.called side code then
    let r := f s
    .next (r.1.answer side r.2.1 r.2.2)
  else .next s

/-- What ATTEST signs: MR0 to MR7, the lifecycle, the Milepost sequence number, the nonce. DESIGN CHOICE, log entry 36. -/
def State.attestText (s : State) (nonce : List Byte) : List Byte :=
  s.toll.mr.flatMap (fun m => leBytes 64 m.toNat) ++ leBytes 8 s.toll.life.code ++ leBytes 8 s.lastSeq ++ nonce

/-- ATTEST (R324): the text, and a signature of 4,627 bytes, whose value is open. -/
def execAttest (side : Side) (s : State) : Out :=
  command side 1 (fun s =>
    let nonce := s.mbxRead side 0 64
    let text := s.attestText nonce
    let sig := (List.range 4627).map fun i => Config.signatureByte text s.free i
    ({ s with free := s.free + 1, toll := { s.toll with nonces := s.toll.nonces ++ [nonce] } }, mbxOk, text ++ sig)) s

/-- A Milepost record as it stands in the table (R328). -/
def Milepost.bytes (r : Milepost) : List Byte :=
  leBytes 32 (r.count % 2 ^ 32 * 2 ^ 64 + r.object % 2 ^ 24 * 2 ^ 96 + r.old % 256 * 2 ^ 120 + r.new % 256 * 2 ^ 128 +
    r.kind % 256 * 2 ^ 136 + r.gen % 2 ^ 16 * 2 ^ 144 + r.seq % 2 ^ 32 * 2 ^ 160 + r.timer % 2 ^ 64 * 2 ^ 192)

/-- MILEPOST (R324): up to 60 records from a sequence number. -/
def execMilepost (side : Side) (s : State) : Out :=
  command side 2 (fun s =>
    let n := s.arg side 0
    (s, mbxOk, ((s.toll.milepost.filter fun r => n ≤ r.seq).take 60).flatMap Milepost.bytes)) s

/-- RASLOG (R324): back-offs and corrected errors of the channels, in the order of R45 on a new part, and the launch-port writes
rejected under R284. DESIGN CHOICE, log entry 37. -/
def execRaslog (side : Side) (s : State) : Out :=
  command side 3 (fun s =>
    let keys := (List.range 32).flatMap fun ch => (List.range 12).map fun st => chKey st ch
    let s1 := keys.foldl State.countErrors s
    (s1, mbxOk, keys.flatMap (fun k => leBytes 8 (aget 0 s1.fab.backoff k)) ++
      keys.flatMap (fun k => leBytes 8 (aget 0 s1.fab.corrected k)) ++ leBytes 8 s1.sys.rejects)) s

/-- POWERMODE (R324, R330): the modes in the order of the table Power modes; one holds for the windows that begin after the change (R52). -/
def execPowermode (side : Side) (s : State) : Out :=
  command side 4 (fun s =>
    let m := s.arg side 0
    if m < 4 then (s.modFab fun f => { f with modes := (s.timer, m) :: f.modes }, mbxOk, []) else (s, mbxBadArg, [])) s

/-- TENANTKEY (R324): REFUSED while an active context has the tenant. -/
def execTenantkey (side : Side) (s : State) : Out :=
  command side 5 (fun s =>
    let t := s.arg side 0
    if 16 ≤ t then (s, mbxBadArg, [])
    else if s.sys.ctxs.any fun c => c.tenant = t then (s, mbxRefused, [])
    else ({ s with toll := { s.toll with epochs := aset s.toll.epochs t (aget 0 s.toll.epochs t + 1) } }, mbxOk, [])) s

/-- The channel whose retirement a confirmation starts: the first PREDICTED one of the live table.
DESIGN CHOICE, log entry 27. -/
def Fabric.predicted? (f : Fabric) : Option Nat := f.liveTable.find? fun k => f.chState k == .predicted

/-- CHANRET (R58): from the confirmation on, the shed range is treated as at or above capacity, and the retirement proceeds. -/
def execChanret (side : Side) (s : State) : Out :=
  command side 6 (fun s =>
    match s.fab.retiring, s.fab.predicted? with
    | none, some k => (s.modFab fun f => { f with retiring := some k, shed := (f.leaving k).length, moved := [] }, mbxOk, [])
    | _, _ => (s, mbxRefused, [])) s

/-- What a token signs for a nonce: the SHA3-512 of the identity public key, the lifecycle state and the nonce (R326). DESIGN CHOICE, log
entry 38. -/
def State.tokenDigest (s : State) (nonce : List Byte) : BitVec 512 :=
  BitVec.ofNat 512 (leNat (sha3 (Config.identityKey s.toll.seed ++ leBytes 8 s.toll.life.code ++ nonce)))

/-- The nonce of an earlier ATTEST for which a token verifies. -/
def State.tokenNonce (s : State) (token : List Byte) : Option (List Byte) :=
  s.toll.nonces.find? fun n => Config.vendorSigned token (s.tokenDigest n)

/-- DEBUGUNLOCK (R326): on an empty device in DEPLOYED, with a token that verifies for a nonce, which is used up: keys and memory are wiped,
MR3 is extended, the debug port opens, and the lifecycle is DEBUG. DESIGN CHOICE, log entry 38. -/
def execDebugunlock (side : Side) (s : State) : Out :=
  command side 7 (fun s =>
    if !s.isEmpty || s.toll.life != .deployed then (s, mbxRefused, [])
    else
      match s.tokenNonce (s.mbxRead side 0 4096) with
      | none => (s, mbxRefused, [])
      | some n =>
        let s1 := (s.rekey.modMem Mem.zeroHbm).setLife .debug
        ({ s1 with toll := { s1.toll.extend 3 (Config.debugDigest s.toll.boots) with
            debugOpen := true
            nonces := s1.toll.nonces.erase n } }, mbxOk, [])) s

/-- MAILBOX_CTXACT (R319): the CTXACT register for the supervisor; bit 63 of the argument deactivates. An entry in a stalled window is read
after it (R59). -/
def execMailboxCtxact (side : Side) (s : State) : Out :=
  if !s.called side 8 then .next s
  else
    let x := s.arg side 0
    let n := x % 256
    if s.heldRange (s.entryPa n) 64 then .next s
    else if bitAt x 63 then
      (if (s.ctx? n).isNone then .next (s.answer side mbxOk [])
       else runE (do
         deactivate n
         modify fun s => s.answer side mbxOk []) s)
    else
      match s.activate n with
      | (s1, .ok) => .next (s1.answer side mbxOk [])
      | (s1, .refused) => .next (s1.answer side mbxRefused [])
      | (s1, .badArg) => .next (s1.answer side mbxBadArg [])

/-- EXTEND (R323, R324): one of MR4 to MR7 with a 64-byte digest. -/
def execExtend (side : Side) (s : State) : Out :=
  command side 9 (fun s =>
    let k := s.arg side 0
    let d := BitVec.ofNat 512 (leNat (s.mbxRead side 8 64))
    if 4 ≤ k ∧ k < 8 then ({ s with toll := s.toll.extend k d }, mbxOk, []) else (s, mbxBadArg, [])) s

end Sys2Proof.Machine
end

