-- ==== Sys2Proof/Machine/Front.lean ====
section
/-!
DEFINITION. The turn of a step: the agenda, the boundary before a word (spec/02 R33, spec/21 R296), the fetch, and the order in
which the device acts when the agenda names nothing (spec/19 R294).
-/

namespace Sys2Proof.Machine

/-- What a turn comes to: a state at once, or an instruction or event to execute at a state. -/
inductive Turn where
  | stay (s : State)
  | run (i : Instr) (s : State)

/-! ### Strands -/

/-- The strand with a number takes the turn; the one that had it goes to the bench, unless nothing of it remains. -/
def State.select (s : State) (sid : Nat) : State :=
  if s.st.sid = sid then s
  else
    match s.bench.find? fun t => t.sid = sid with
    | none => s
    | some t => ({ s with bench := s.bench.filter fun x => x.sid ≠ sid } : State).benchWith t

/-- The slots of a front end whose turn comes before a strand's (R292). -/
def State.ahead (s : State) (t : Strand) : Nat := (t.slot + 3 - (s.fab.core t.cluster t.core).turn % 4) % 4

/-- The strand of the same front end whose turn it is: issue goes round the slots that are ready, from the one that issued last
(R292). -/
def State.issuer (s : State) : Strand :=
  let t := s.st
  (s.strands.filter fun x => s.runs x && x.cluster == t.cluster && x.core == t.core).foldl
    (fun b x => if s.ahead x < s.ahead b then x else b) t

/-- The front end of the strand named gives its turn to the strand that it is for. -/
def State.takeTurn (s : State) : State :=
  if s.runs s.st then
    let s1 := s.select s.issuer.sid
    if (s1.fab.core s1.st.cluster s1.st.core).turn = s1.st.slot then s1
    else s1.modCore s1.st.cluster s1.st.core fun k => { k with turn := s1.st.slot }
  else s

/-! ### The boundary (R33, R296) -/

/-- The instruction of a word; a word that is none raises cause 0x01 or 0x02 (R29, R30). -/
noncomputable def instrOf (w : IWord) : Instr :=
  match decodeWord w with
  | .ok i => i
  | .error _ => if w.toNat / 2 ^ 26 = 0x3F then .emulationTrap w else .illegalInstruction w

/-- A fetch that fails traps at the word; before any instruction of a handler it ends the context with STATUS 0xFE (R296).
DEDUCED, log entry 20. -/
def fetchFault (c d : Nat) (v : Word) (s : State) : State :=
  if s.st.fetched then trapHere c d v s
  else
    match s.endCtx s.st.ctx 0xFE 0 with
    | .next s1 => s1
    | _ => s

/-- A strand whose word has been fetched: a word that is not WAIT ends a WAIT under way (R310). -/
def Strand.heeds (t : Strand) (i : Instr) : Strand :=
  match i with
  | .wait => { t with fetched := true }
  | _ => { t.rouse with fetched := true }

/-- The word at PC, and what it is to do. -/
noncomputable def fetchTurn (s : State) : Turn :=
  match fetch s with
  | (.ok w, s1) => .run (instrOf w) { s1 with st := s1.st.heeds (instrOf w) }
  | (.error .wait, s1) => .stay (s.afterWait s1)
  | (.error (.trap c d v), s1) => .stay (fetchFault c d v s1)

/-- The boundary of the strand whose turn it is: a deferred trap, then an interrupt or a notice, then the word. -/
noncomputable def boundary (s : State) : Turn :=
  if !s.runs s.st then .stay s
  else if s.st.deferred then .run .deferredTrap s
  else
    match s.interruptFor with
    | some (.note, _) => .run .laneRetirementNotice s
    | some _ => .run .interrupt s
    | none => fetchTurn s

/-! ### The agenda -/

/-- An event that the agenda may name: not a word, and not the fate of one. -/
def isEvent (i : Instr) : Bool :=
  (encode i).isNone && (match i with | .illegalInstruction _ => false | .emulationTrap _ => false | _ => true)

/-- A cache of copies loses what it holds; what a translation cache held may still cover stores that are not performed (R75). -/
def Mem.drop (m : Mem) (h : Held) (key : Nat) : Mem :=
  match h with
  | .fetched => { m with icaches := adel m.icaches key }
  | .tlb => { m.leave (tlbCluster key) (aget [] m.tlbs key) with tlbs := adel m.tlbs key }
  | .walk => { m with walks := adel m.walks key }
  | .desc => { m with descs := adel m.descs key }
  | .ats => { m with atc := [] }

/-- The eviction of a line of a cluster's cache, unless its write-back is held (R60, R92). -/
def State.evictLine (s : State) (c ln : Nat) : State :=
  if (s.cache c).any fun l => l.tag == ln && s.lineHeld l then s else s.flushLine c ln

/-- One entry of the agenda. -/
noncomputable def perform (a : Act) (s0 : State) : Turn :=
  let s := match a.sid with | none => s0 | some k => s0.select k
  match a.what with
  | .boundary => boundary s.takeTurn
  | .event i => if isEvent i then .run i s else .stay s
  | .ingress a => .stay (s.arrives a)
  | .evict c ln => .stay (s.evictLine c ln)
  | .evictMem ln => .stay (s.toArray (ln * 64) (ln * 64 + 64))
  | .drop h key => .stay (s.modMem fun m => m.drop h key)
  | .error e => .stay (s.hwError e)
  | .activate x => .stay (s.askActivation x)
  | .acked owner link => .stay (s.ack owner link)
  | .wroteBack peer => .stay (s.wroteBack peer)
  | .release => .stay s.releaseHeld
  | .boot => .stay s.boot

/-! ### The device left to itself -/

def act (i : Instr) : Act := ⟨none, .event i⟩
def toOutside (w : What) : Act := ⟨none, w⟩

/-- What the engines of a strand can do next. -/
noncomputable def strandActs (s : State) (t : Strand) : List Act :=
  let ev (i : Instr) : Act := ⟨some t.sid, .event i⟩
  (match t.markers with
   | m :: _ => if t.stand ≠ .saved ∧ s.markerDue t m then [ev .arrivalMarkerFire] else []
   | [] => []) ++
  (if s.runs t then
     (t.passes.zipIdx).flatMap fun p =>
       if p.1.st = .waiting ∧ p.2 = 0 then [ev .passStart]
       else if p.1.done then (if p.2 = 0 then [ev .passComplete] else [])
       else if p.1.st = .running ∧ p.1.fault.isNone then [ev (.stripCommit p.2)]
       else []
   else []) ++
  (t.asks.filter fun k => !k.acked).map fun k => ⟨some t.sid, .wroteBack k.peer⟩

/-- What the engines of a cluster can do next. -/
noncomputable def clusterActs (c : Nat) (x : Cluster) : List Act :=
  (if x.mops.any MOp.done then [act (.mmaComplete c)] else []) ++
  (if x.nextMop.isSome then [act (.mmaExecute c ⟨0, none⟩)] else []) ++
  x.jobs.flatMap fun j =>
    match j.st with
    | .queued => if x.mayStart j then [act (.jobStart c ⟨j.handle.toNat, none⟩)] else []
    | .running => [act (.jobStart c ⟨j.handle.toNat, none⟩)]
    | .ended => [act (.jobComplete c j.handle.toNat)]
    | .settled => []

/-- What the intake and the scheduler can do next. -/
noncomputable def intakeActs (s : State) : List Act :=
  let bids := s.bids
  let vs := s.victims
  (if !s.sys.port.isEmpty ∧ !s.intakeFull then [act .launchAccept] else []) ++
  s.sys.launches.flatMap (fun l =>
    (if !l.eligible then [act (.waitConditionPoll l.id)] else if s.launchDone l then [act (.launchComplete l.id)] else []) ++
    if s.agingDue l then [act (.priorityAging l.id)] else []) ++
  (s.ordered.flatMap fun l =>
    let mine := (s.spots s.fab.logical l.span).filter fun x => (firstOf bids l.span x).any fun f => f.id == l.id
    match mine.findSome? fun x => ((s.savedOf l).find? fun t => s.spotBack l t x).map fun t => (t, x) with
    | some (t, x) => [⟨some t.sid, .event (.strandRestore x)⟩]
    | none => if s.mayBegin l then [act (.strandPlacement l.id (s.seats l.id mine l.gang))] else []) ++
  (s.residents.filter fun t => s.onFenced t || (vs.any fun v => v.sid == t.sid) || (s.select t.sid).spillSlot.isSome).map fun t =>
    ⟨some t.sid, .event .preemption⟩

/-- The event of a command of the mailbox (R324). -/
noncomputable def commandOf (side : Side) (code : Nat) : Option Instr :=
  match code with
  | 1 => some (.attest side)
  | 2 => some (.milepost side)
  | 3 => some (.raslog side)
  | 4 => some (.powermode side)
  | 5 => some (.tenantkey side)
  | 6 => some (.chanret side)
  | 7 => some (.debugunlock side)
  | 8 => some (.mailboxCtxact side)
  | 9 => some (.extend side)
  | _ => none

/-- What the memory can do next: alerts, back-offs and windows (R51, R52), and a retirement (R59). -/
noncomputable def memoryActs (s : State) : List Act :=
  let f := s.fab
  ((f.rows.filter fun x => decide (4096 ≤ x.2) && !f.alerted.contains (x.1.stack, x.1.ch, x.1.bank)).map fun x =>
    act (.rowActivationAlert x.1.stack ⟨x.1.ch, x.1.bank, x.1.row⟩)) ++
  (f.alerted.map fun b => act (.backoffEnd b.1 ⟨b.2.1, b.2.2⟩)) ++
  ((f.waiting.map RowAct.stack).eraseDups.map fun k => act (.activationWindowRelease k)) ++
  (match f.retiring, f.stalled with
   | none, _ => []
   | some _, some w => [act (.migrationWindowSwitch w)]
   | some _, none => (((List.range f.windows).find? fun w => !f.moved.contains w).map fun w => act (.migrationWindowStall w)).toList)

/-- What the parts, Tollhouse and the links can do next: renumberings (R308, R309), the oldest command (R324), the accesses that a
window held (R59), and the answers to what was sent (R270). -/
noncomputable def systemActs (s : State) : List Act :=
  (s.fab.clusters.flatMap fun c => if c.2.draining then [act (.clusterRenumber c.1), act (.clusterRetirement c.1)] else []) ++
  ((s.toll.queue.head?.bind fun q => commandOf q.1 q.2).toList.map act) ++
  (if s.sys.held.isEmpty ∨ s.fab.stalled.isSome then [] else [toOutside .release]) ++
  ((s.sys.owed.filter fun o => match o.link with | .peer _ => true | .host _ => o.asked).map fun o => toOutside (.acked o.owner o.link))

/-- Everything that can be done next but for the front ends; the strands stand in the order of their numbers. -/
noncomputable def internalActs (s : State) : List Act :=
  (s.strands.mergeSort fun a b => decide (a.sid ≤ b.sid)).flatMap (strandActs s) ++
  s.fab.clusters.flatMap (fun c => clusterActs c.1 c.2) ++ intakeActs s ++ memoryActs s ++ systemActs s

/-- The boundaries of the front ends: one for every strand that runs, in the order of their numbers. -/
def State.fronts (s : State) : List Act :=
  ((s.strands.filter s.runs).mergeSort fun a b => decide (a.sid ≤ b.sid)).map fun t => ⟨some t.sid, .boundary⟩

/-- The turn of a device left to itself: the boot, and then rounds. A round is all that can be done next as it begins, and a boundary of
every strand that runs, so that every such strand issues, and whatever is due is done, in each round (R294). DESIGN CHOICE, log entry 1. -/
noncomputable def idleTurn (s : State) : Turn :=
  if !s.toll.booted then .stay s.boot
  else
    match (if s.sys.round.isEmpty then internalActs s ++ s.fronts else s.sys.round) with
    | [] => .stay s
    | a :: rest => perform a (s.modSys fun y => { y with round := rest })

/-- The turn of a step. DESIGN CHOICE, log entry 1. -/
noncomputable def nextTurn (s : State) : Turn :=
  match s.sys.agenda with
  | a :: rest => perform a (s.modSys fun y => { y with agenda := rest })
  | [] => idleTurn s

/-- The count of steps (R115). -/
def State.tick (s : State) : State := { s with steps := s.steps + 1 }

def tickOut (o : Out) : Out :=
  match o with
  | .next s => .next s.tick
  | .fault r => .fault r
  | .refused r => .refused r

/-! ### A machine that is about to fetch a word -/

/-- A context whose first 16 GiB are mapped one to one, for mode S (R64). -/
def loadCtx : Ctx :=
  { num := 0, tenant := 0, asid := 0, hfn := false, ats := false, msivec := 0x7FF, saveCount := 0, savePool := 0, wmbase := 0,
    wmsize := 0, tvec := 0x20000, tdtbase := 0x40000, ptbase := 0x1000000, wmHead := 0, groups := [], areas := [] }

/-- The leaf of the page at 0: V, R, W, X, A and D. -/
def loadLeaf : Nat := 0x18F

/-- A strand of span 8 on core 0 of cluster 0, or on an MCC slot, in mode S, about to fetch at 0x10000. -/
def loadStrand (mcc : Bool) : Strand :=
  { Strand.fresh with
    sid := 1
    stand := .resident
    core := if mcc then Config.mccCore else 0
    lgs := if mcc then 0 else 1
    span := if mcc then .ctrl else .s8
    pc := 0x10000
    mode := .s
    fetched := true
    sr := { SRegs.fresh with
      vlmax := if mcc then 0 else 32768
      tvec := loadCtx.tvec
      tdtbase := loadCtx.tdtbase
      ptbase := loadCtx.ptbase } }

/-- A state ready to fetch the word `w`: the load of a program that a launch stands for. DESIGN CHOICE, log entry 56. -/
def State.loaded (s : State) (w : Nat) : State :=
  let mcc : Bool := w / 2 ^ 26 % 64 = 0x33
  let s1 : State := { s with
    st := loadStrand mcc
    toll := { s.toll with booted := true, ready := true }
    sys := { s.sys with ctxs := loadCtx :: s.sys.ctxs.filter (fun c => c.num ≠ 0), agenda := [⟨none, .boundary⟩] }
    mem := { s.mem with caches := [], icaches := [], tlbs := [], past := [], walks := [], poison := [], tags := [] }
    fab := s.fab.setCore 0 (if mcc then Config.mccCore else 0) { s.fab.core 0 (if mcc then Config.mccCore else 0) with turn := 3 } }
  (s1.devWrite 0 0x1000000 (leBytes 8 loadLeaf)).devWrite 0 0x10000 (leBytes 4 w)

end Sys2Proof.Machine
end

