-- ==== Sys2Proof/Machine/Dispatch.lean ====
section
/-!
DEFINITION. One arm for each constructor of Instr, each a direct call of its meaning.
-/

namespace Sys2Proof.Machine

def exec (i : Instr) (s : State) : Host.Outcome State Fault Refusal :=
  match i with
  | .nop => Sys2Proof.Machine.execNop s
  | .rte => Sys2Proof.Machine.execRte s
  | .wait => Sys2Proof.Machine.execWait s
  | .waitTimeout => Sys2Proof.Machine.execWaitTimeout s
  | .exit => Sys2Proof.Machine.execExit s
  | .brk => Sys2Proof.Machine.execBrk s
  | .force => Sys2Proof.Machine.execForce s
  | .convoy => Sys2Proof.Machine.execConvoy s
  | .vsync => Sys2Proof.Machine.execVsync s
  | .vdrop vd => Sys2Proof.Machine.execVdrop vd s
  | .launch d a => Sys2Proof.Machine.execLaunch d a s
  | .tlbi a b => Sys2Proof.Machine.execTlbi a b s
  | .cachewb a b => Sys2Proof.Machine.execCachewb a b s
  | .ifence => Sys2Proof.Machine.execIfence s
  | .trap imm => Sys2Proof.Machine.execTrap imm s
  | .mfs d n => Sys2Proof.Machine.execMfs d n s
  | .mts a n => Sys2Proof.Machine.execMts a n s
  | .add d a b => Sys2Proof.Machine.execAdd d a b s
  | .sub d a b => Sys2Proof.Machine.execSub d a b s
  | .and d a b => Sys2Proof.Machine.execAnd d a b s
  | .or d a b => Sys2Proof.Machine.execOr d a b s
  | .xor d a b => Sys2Proof.Machine.execXor d a b s
  | .andn d a b => Sys2Proof.Machine.execAndn d a b s
  | .sll d a b => Sys2Proof.Machine.execSll d a b s
  | .srl d a b => Sys2Proof.Machine.execSrl d a b s
  | .sra d a b => Sys2Proof.Machine.execSra d a b s
  | .ror d a b => Sys2Proof.Machine.execRor d a b s
  | .slt d a b => Sys2Proof.Machine.execSlt d a b s
  | .sltu d a b => Sys2Proof.Machine.execSltu d a b s
  | .min d a b => Sys2Proof.Machine.execMin d a b s
  | .max d a b => Sys2Proof.Machine.execMax d a b s
  | .minu d a b => Sys2Proof.Machine.execMinu d a b s
  | .maxu d a b => Sys2Proof.Machine.execMaxu d a b s
  | .clz d a => Sys2Proof.Machine.execClz d a s
  | .ctz d a => Sys2Proof.Machine.execCtz d a s
  | .popc d a => Sys2Proof.Machine.execPopc d a s
  | .sextb d a => Sys2Proof.Machine.execSextb d a s
  | .sexth d a => Sys2Proof.Machine.execSexth d a s
  | .sextw d a => Sys2Proof.Machine.execSextw d a s
  | .zextb d a => Sys2Proof.Machine.execZextb d a s
  | .zexth d a => Sys2Proof.Machine.execZexth d a s
  | .zextw d a => Sys2Proof.Machine.execZextw d a s
  | .bswap d a => Sys2Proof.Machine.execBswap d a s
  | .mul d a b => Sys2Proof.Machine.execMul d a b s
  | .mulh d a b => Sys2Proof.Machine.execMulh d a b s
  | .mulhu d a b => Sys2Proof.Machine.execMulhu d a b s
  | .div d a b => Sys2Proof.Machine.execDiv d a b s
  | .divu d a b => Sys2Proof.Machine.execDivu d a b s
  | .rem d a b => Sys2Proof.Machine.execRem d a b s
  | .remu d a b => Sys2Proof.Machine.execRemu d a b s
  | .addi d a imm => Sys2Proof.Machine.execAddi d a imm s
  | .andi d a imm => Sys2Proof.Machine.execAndi d a imm s
  | .ori d a imm => Sys2Proof.Machine.execOri d a imm s
  | .xori d a imm => Sys2Proof.Machine.execXori d a imm s
  | .slli d a n => Sys2Proof.Machine.execSlli d a n s
  | .srli d a n => Sys2Proof.Machine.execSrli d a n s
  | .srai d a n => Sys2Proof.Machine.execSrai d a n s
  | .rori d a n => Sys2Proof.Machine.execRori d a n s
  | .ldz d k imm => Sys2Proof.Machine.execLdz d k imm s
  | .ldk d k imm => Sys2Proof.Machine.execLdk d k imm s
  | .slti d a imm => Sys2Proof.Machine.execSlti d a imm s
  | .sltiu d a imm => Sys2Proof.Machine.execSltiu d a imm s
  | .ldb d a imm => Sys2Proof.Machine.execLdb d a imm s
  | .ldbu d a imm => Sys2Proof.Machine.execLdbu d a imm s
  | .ldh d a imm => Sys2Proof.Machine.execLdh d a imm s
  | .ldhu d a imm => Sys2Proof.Machine.execLdhu d a imm s
  | .ldw d a imm => Sys2Proof.Machine.execLdw d a imm s
  | .ldwu d a imm => Sys2Proof.Machine.execLdwu d a imm s
  | .ldd d a imm => Sys2Proof.Machine.execLdd d a imm s
  | .stb d a imm => Sys2Proof.Machine.execStb d a imm s
  | .sth d a imm => Sys2Proof.Machine.execSth d a imm s
  | .stw d a imm => Sys2Proof.Machine.execStw d a imm s
  | .std d a imm => Sys2Proof.Machine.execStd d a imm s
  | .beqz a o => Sys2Proof.Machine.execBeqz a o s
  | .bnez a o => Sys2Proof.Machine.execBnez a o s
  | .bltz a o => Sys2Proof.Machine.execBltz a o s
  | .bgez a o => Sys2Proof.Machine.execBgez a o s
  | .bgtz a o => Sys2Proof.Machine.execBgtz a o s
  | .blez a o => Sys2Proof.Machine.execBlez a o s
  | .beq a b o => Sys2Proof.Machine.execBeq a b o s
  | .bne a b o => Sys2Proof.Machine.execBne a b o s
  | .blt a b o => Sys2Proof.Machine.execBlt a b o s
  | .bge a b o => Sys2Proof.Machine.execBge a b o s
  | .bltu a b o => Sys2Proof.Machine.execBltu a b o s
  | .bgeu a b o => Sys2Proof.Machine.execBgeu a b o s
  | .b o => Sys2Proof.Machine.execB o s
  | .bl o => Sys2Proof.Machine.execBl o s
  | .jr a => Sys2Proof.Machine.execJr a s
  | .jlr d a => Sys2Proof.Machine.execJlr d a s
  | .amoswap d a b sc o z => Sys2Proof.Machine.execAmoswap d a b sc o z s
  | .amoadd d a b sc o z => Sys2Proof.Machine.execAmoadd d a b sc o z s
  | .amoand d a b sc o z => Sys2Proof.Machine.execAmoand d a b sc o z s
  | .amoor d a b sc o z => Sys2Proof.Machine.execAmoor d a b sc o z s
  | .amoxor d a b sc o z => Sys2Proof.Machine.execAmoxor d a b sc o z s
  | .amomin d a b sc o z => Sys2Proof.Machine.execAmomin d a b sc o z s
  | .amomax d a b sc o z => Sys2Proof.Machine.execAmomax d a b sc o z s
  | .amominu d a b sc o z => Sys2Proof.Machine.execAmominu d a b sc o z s
  | .amomaxu d a b sc o z => Sys2Proof.Machine.execAmomaxu d a b sc o z s
  | .amocas d a b sc o z => Sys2Proof.Machine.execAmocas d a b sc o z s
  | .amofadd d a b sc o z => Sys2Proof.Machine.execAmofadd d a b sc o z s
  | .lda d a sc o z => Sys2Proof.Machine.execLda d a sc o z s
  | .stl a b sc o z => Sys2Proof.Machine.execStl a b sc o z s
  | .fadd d a b p => Sys2Proof.Machine.execFadd d a b p s
  | .fsub d a b p => Sys2Proof.Machine.execFsub d a b p s
  | .fmul d a b p => Sys2Proof.Machine.execFmul d a b p s
  | .fdiv d a b p => Sys2Proof.Machine.execFdiv d a b p s
  | .fsqrt d a p => Sys2Proof.Machine.execFsqrt d a p s
  | .fmin d a b p => Sys2Proof.Machine.execFmin d a b p s
  | .fmax d a b p => Sys2Proof.Machine.execFmax d a b p s
  | .feq d a b p => Sys2Proof.Machine.execFeq d a b p s
  | .flt d a b p => Sys2Proof.Machine.execFlt d a b p s
  | .fle d a b p => Sys2Proof.Machine.execFle d a b p s
  | .fcvti d a p u => Sys2Proof.Machine.execFcvti d a p u s
  | .fcvtf d a p u => Sys2Proof.Machine.execFcvtf d a p u s
  | .fcvtp d a p => Sys2Proof.Machine.execFcvtp d a p s
  | .fabs d a p => Sys2Proof.Machine.execFabs d a p s
  | .fneg d a p => Sys2Proof.Machine.execFneg d a p s
  | .fclass d a p => Sys2Proof.Machine.execFclass d a p s
  | .fmac d a b p => Sys2Proof.Machine.execFmac d a b p s
  | .fnmac d a b p => Sys2Proof.Machine.execFnmac d a b p s
  | .strip d a p k z => Sys2Proof.Machine.execStrip d a p k z s
  | .setvl d a => Sys2Proof.Machine.execSetvl d a s
  | .setrows d a => Sys2Proof.Machine.execSetrows d a s
  | .vld vd a m t => Sys2Proof.Machine.execVld vd a m t s
  | .vldFf vd a m t => Sys2Proof.Machine.execVldFf vd a m t s
  | .vldSeg vd a b m t => Sys2Proof.Machine.execVldSeg vd a b m t s
  | .vldRow vd a m t => Sys2Proof.Machine.execVldRow vd a m t s
  | .vldCol vd a m t => Sys2Proof.Machine.execVldCol vd a m t s
  | .vlds vd a b m t => Sys2Proof.Machine.execVlds vd a b m t s
  | .vldt vd a b m t => Sys2Proof.Machine.execVldt vd a b m t s
  | .vldx vd a b m t => Sys2Proof.Machine.execVldx vd a b m t s
  | .vldtd vd a b m t => Sys2Proof.Machine.execVldtd vd a b m t s
  | .vldz vd a b m t => Sys2Proof.Machine.execVldz vd a b m t s
  | .vst vs a q m t => Sys2Proof.Machine.execVst vs a q m t s
  | .vstSeg vs a b q m t => Sys2Proof.Machine.execVstSeg vs a b q m t s
  | .vsts vs a b q m t => Sys2Proof.Machine.execVsts vs a b q m t s
  | .vstt vs a b q m t => Sys2Proof.Machine.execVstt vs a b q m t s
  | .vstx vs a b q m t => Sys2Proof.Machine.execVstx vs a b q m t s
  | .vstxadd vs a b q m t => Sys2Proof.Machine.execVstxadd vs a b q m t s
  | .vsttd vs a b q m t => Sys2Proof.Machine.execVsttd vs a b q m t s
  | .vstc vs a b q m t => Sys2Proof.Machine.execVstc vs a b q m t s
  | .vstcmp vs a b q m t => Sys2Proof.Machine.execVstcmp vs a b q m t s
  | .vadd vd va vb m => Sys2Proof.Machine.execVadd vd va vb m s
  | .vsub vd va vb m => Sys2Proof.Machine.execVsub vd va vb m s
  | .vmul vd va vb m => Sys2Proof.Machine.execVmul vd va vb m s
  | .vmulh vd va vb m => Sys2Proof.Machine.execVmulh vd va vb m s
  | .vmulhu vd va vb m => Sys2Proof.Machine.execVmulhu vd va vb m s
  | .vand vd va vb m => Sys2Proof.Machine.execVand vd va vb m s
  | .vor vd va vb m => Sys2Proof.Machine.execVor vd va vb m s
  | .vxor vd va vb m => Sys2Proof.Machine.execVxor vd va vb m s
  | .vsll vd va vb m => Sys2Proof.Machine.execVsll vd va vb m s
  | .vsrl vd va vb m => Sys2Proof.Machine.execVsrl vd va vb m s
  | .vsra vd va vb m => Sys2Proof.Machine.execVsra vd va vb m s
  | .vmin vd va vb m => Sys2Proof.Machine.execVmin vd va vb m s
  | .vmax vd va vb m => Sys2Proof.Machine.execVmax vd va vb m s
  | .vminu vd va vb m => Sys2Proof.Machine.execVminu vd va vb m s
  | .vmaxu vd va vb m => Sys2Proof.Machine.execVmaxu vd va vb m s
  | .vadds vd va vb m => Sys2Proof.Machine.execVadds vd va vb m s
  | .vaddsu vd va vb m => Sys2Proof.Machine.execVaddsu vd va vb m s
  | .vsubs vd va vb m => Sys2Proof.Machine.execVsubs vd va vb m s
  | .vsubsu vd va vb m => Sys2Proof.Machine.execVsubsu vd va vb m s
  | .vabs vd va m => Sys2Proof.Machine.execVabs vd va m s
  | .vneg vd va m => Sys2Proof.Machine.execVneg vd va m s
  | .vnot vd va m => Sys2Proof.Machine.execVnot vd va m s
  | .vpopc vd va m => Sys2Proof.Machine.execVpopc vd va m s
  | .vclz vd va m => Sys2Proof.Machine.execVclz vd va m s
  | .vaddVintx vd va vb m => Sys2Proof.Machine.execVaddVintx vd va vb m s
  | .vsubVintx vd va vb m => Sys2Proof.Machine.execVsubVintx vd va vb m s
  | .vmulVintx vd va vb m => Sys2Proof.Machine.execVmulVintx vd va vb m s
  | .vmulhVintx vd va vb m => Sys2Proof.Machine.execVmulhVintx vd va vb m s
  | .vmulhuVintx vd va vb m => Sys2Proof.Machine.execVmulhuVintx vd va vb m s
  | .vandVintx vd va vb m => Sys2Proof.Machine.execVandVintx vd va vb m s
  | .vorVintx vd va vb m => Sys2Proof.Machine.execVorVintx vd va vb m s
  | .vxorVintx vd va vb m => Sys2Proof.Machine.execVxorVintx vd va vb m s
  | .vsllVintx vd va vb m => Sys2Proof.Machine.execVsllVintx vd va vb m s
  | .vsrlVintx vd va vb m => Sys2Proof.Machine.execVsrlVintx vd va vb m s
  | .vsraVintx vd va vb m => Sys2Proof.Machine.execVsraVintx vd va vb m s
  | .vminVintx vd va vb m => Sys2Proof.Machine.execVminVintx vd va vb m s
  | .vmaxVintx vd va vb m => Sys2Proof.Machine.execVmaxVintx vd va vb m s
  | .vminuVintx vd va vb m => Sys2Proof.Machine.execVminuVintx vd va vb m s
  | .vmaxuVintx vd va vb m => Sys2Proof.Machine.execVmaxuVintx vd va vb m s
  | .vaddsVintx vd va vb m => Sys2Proof.Machine.execVaddsVintx vd va vb m s
  | .vaddsuVintx vd va vb m => Sys2Proof.Machine.execVaddsuVintx vd va vb m s
  | .vsubsVintx vd va vb m => Sys2Proof.Machine.execVsubsVintx vd va vb m s
  | .vsubsuVintx vd va vb m => Sys2Proof.Machine.execVsubsuVintx vd va vb m s
  | .vfadd vd va vb m => Sys2Proof.Machine.execVfadd vd va vb m s
  | .vfsub vd va vb m => Sys2Proof.Machine.execVfsub vd va vb m s
  | .vfmul vd va vb m => Sys2Proof.Machine.execVfmul vd va vb m s
  | .vfdiv vd va vb m => Sys2Proof.Machine.execVfdiv vd va vb m s
  | .vfmin vd va vb m => Sys2Proof.Machine.execVfmin vd va vb m s
  | .vfmax vd va vb m => Sys2Proof.Machine.execVfmax vd va vb m s
  | .vfabs vd va m => Sys2Proof.Machine.execVfabs vd va m s
  | .vfneg vd va m => Sys2Proof.Machine.execVfneg vd va m s
  | .vfsqrt vd va m => Sys2Proof.Machine.execVfsqrt vd va m s
  | .vfrcp vd va m => Sys2Proof.Machine.execVfrcp vd va m s
  | .vfrsq vd va m => Sys2Proof.Machine.execVfrsq vd va m s
  | .vfexp2 vd va m => Sys2Proof.Machine.execVfexp2 vd va m s
  | .vflog2 vd va m => Sys2Proof.Machine.execVflog2 vd va m s
  | .vfsgnj vd va vb m => Sys2Proof.Machine.execVfsgnj vd va vb m s
  | .vfrint vd va m => Sys2Proof.Machine.execVfrint vd va m s
  | .vfaddVfpx vd va vb m => Sys2Proof.Machine.execVfaddVfpx vd va vb m s
  | .vfsubVfpx vd va vb m => Sys2Proof.Machine.execVfsubVfpx vd va vb m s
  | .vfmulVfpx vd va vb m => Sys2Proof.Machine.execVfmulVfpx vd va vb m s
  | .vfdivVfpx vd va vb m => Sys2Proof.Machine.execVfdivVfpx vd va vb m s
  | .vfminVfpx vd va vb m => Sys2Proof.Machine.execVfminVfpx vd va vb m s
  | .vfmaxVfpx vd va vb m => Sys2Proof.Machine.execVfmaxVfpx vd va vb m s
  | .vfsgnjVfpx vd va vb m => Sys2Proof.Machine.execVfsgnjVfpx vd va vb m s
  | .vfma vd va vb vc m => Sys2Proof.Machine.execVfma vd va vb vc m s
  | .vfms vd va vb vc m => Sys2Proof.Machine.execVfms vd va vb vc m s
  | .vfnma vd va vb vc m => Sys2Proof.Machine.execVfnma vd va vb vc m s
  | .vfnms vd va vb vc m => Sys2Proof.Machine.execVfnms vd va vb vc m s
  | .vcmpInt pd va vb m c => Sys2Proof.Machine.execVcmpInt pd va vb m c s
  | .vcmpFp pd va vb m c => Sys2Proof.Machine.execVcmpFp pd va vb m c s
  | .vcmpxInt pd va vb m c => Sys2Proof.Machine.execVcmpxInt pd va vb m c s
  | .vcmpxFp pd va vb m c => Sys2Proof.Machine.execVcmpxFp pd va vb m c s
  | .vcvtRnd vd va t m => Sys2Proof.Machine.execVcvtRnd vd va t m s
  | .vcvtSr vd va t m => Sys2Proof.Machine.execVcvtSr vd va t m s
  | .vcvtRtz vd va t m => Sys2Proof.Machine.execVcvtRtz vd va t m s
  | .vcvtSat vd va t m => Sys2Proof.Machine.execVcvtSat vd va t m s
  | .vcvtF4 vd va m => Sys2Proof.Machine.execVcvtF4 vd va m s
  | .vcvtF4sr vd va m => Sys2Proof.Machine.execVcvtF4sr vd va m s
  | .vmov vd va m => Sys2Proof.Machine.execVmov vd va m s
  | .vbcast vd t b m => Sys2Proof.Machine.execVbcast vd t b m s
  | .vsel vd va vb m => Sys2Proof.Machine.execVsel vd va vb m s
  | .vslide vd va vb m => Sys2Proof.Machine.execVslide vd va vb m s
  | .vperm vd va vb m => Sys2Proof.Machine.execVperm vd va vb m s
  | .vscansum vd va m => Sys2Proof.Machine.execVscansum vd va m s
  | .vreint vd va t m => Sys2Proof.Machine.execVreint vd va t m s
  | .vrand vd m => Sys2Proof.Machine.execVrand vd m s
  | .vrandf vd m => Sys2Proof.Machine.execVrandf vd m s
  | .vidx vd start step => Sys2Proof.Machine.execVidx vd start step s
  | .pand pd pa pb => Sys2Proof.Machine.execPand pd pa pb s
  | .por pd pa pb => Sys2Proof.Machine.execPor pd pa pb s
  | .pxor pd pa pb => Sys2Proof.Machine.execPxor pd pa pb s
  | .pandn pd pa pb => Sys2Proof.Machine.execPandn pd pa pb s
  | .pnot pd pa => Sys2Proof.Machine.execPnot pd pa s
  | .pset pd => Sys2Proof.Machine.execPset pd s
  | .pclr pd => Sys2Proof.Machine.execPclr pd s
  | .pmov pd pa => Sys2Proof.Machine.execPmov pd pa s
  | .vredsum d va m q => Sys2Proof.Machine.execVredsum d va m q s
  | .vredsumt d va m q => Sys2Proof.Machine.execVredsumt d va m q s
  | .vredmax d va m q => Sys2Proof.Machine.execVredmax d va m q s
  | .vredmin d va m q => Sys2Proof.Machine.execVredmin d va m q s
  | .vredmaxu d va m q => Sys2Proof.Machine.execVredmaxu d va m q s
  | .vredminu d va m q => Sys2Proof.Machine.execVredminu d va m q s
  | .vredand d va m q => Sys2Proof.Machine.execVredand d va m q s
  | .vredor d va m q => Sys2Proof.Machine.execVredor d va m q s
  | .vredxor d va m q => Sys2Proof.Machine.execVredxor d va m q s
  | .vredrow d va m q => Sys2Proof.Machine.execVredrow d va m q s
  | .vredrowmax d va m q => Sys2Proof.Machine.execVredrowmax d va m q s
  | .vffs d va m q => Sys2Proof.Machine.execVffs d va m q s
  | .vpop d va m q => Sys2Proof.Machine.execVpop d va m q s
  | .mma d a b => Sys2Proof.Machine.execMma d a b s
  | .mzero d b => Sys2Proof.Machine.execMzero d b s
  | .msync d a => Sys2Proof.Machine.execMsync d a s
  | .mtarget a => Sys2Proof.Machine.execMtarget a s
  | .mshape a b => Sys2Proof.Machine.execMshape a b s
  | .mslot d a b => Sys2Proof.Machine.execMslot d a b s
  | .barArrive g => Sys2Proof.Machine.execBarArrive g s
  | .barWait g => Sys2Proof.Machine.execBarWait g s
  | .barTest g => Sys2Proof.Machine.execBarTest g s
  | .fenceC => Sys2Proof.Machine.execFenceC s
  | .fenceK => Sys2Proof.Machine.execFenceK s
  | .fenceD => Sys2Proof.Machine.execFenceD s
  | .fenceS => Sys2Proof.Machine.execFenceS s
  | .xcopy d a => Sys2Proof.Machine.execXcopy d a s
  | .xwait d a => Sys2Proof.Machine.execXwait d a s
  | .xpoll d a => Sys2Proof.Machine.execXpoll d a s
  | .xcancel a => Sys2Proof.Machine.execXcancel a s
  | .tdinv a => Sys2Proof.Machine.execTdinv a s
  | .tdinvall => Sys2Proof.Machine.execTdinvall s
  | .passStart => Sys2Proof.Machine.execPassStart s
  | .stripCommit p => Sys2Proof.Machine.execStripCommit p s
  | .passComplete => Sys2Proof.Machine.execPassComplete s
  | .laneError p core lg lane => Sys2Proof.Machine.execLaneError p core lg lane s
  | .clusterRenumber c => Sys2Proof.Machine.execClusterRenumber c s
  | .clusterRetirement c => Sys2Proof.Machine.execClusterRetirement c s
  | .deferredTrap => Sys2Proof.Machine.execDeferredTrap s
  | .interrupt => Sys2Proof.Machine.execInterrupt s
  | .laneRetirementNotice => Sys2Proof.Machine.execLaneRetirementNotice s
  | .arrivalMarkerFire => Sys2Proof.Machine.execArrivalMarkerFire s
  | .jobStart c x => Sys2Proof.Machine.execJobStart c x s
  | .jobComplete c h => Sys2Proof.Machine.execJobComplete c h s
  | .mmaExecute c x => Sys2Proof.Machine.execMmaExecute c x s
  | .mmaComplete c => Sys2Proof.Machine.execMmaComplete c s
  | .slotPeriod => Sys2Proof.Machine.execSlotPeriod s
  | .rowActivationAlert stack x => Sys2Proof.Machine.execRowActivationAlert stack x s
  | .backoffEnd stack x => Sys2Proof.Machine.execBackoffEnd stack x s
  | .activationWindowRelease stack => Sys2Proof.Machine.execActivationWindowRelease stack s
  | .channelPredicted stack ch => Sys2Proof.Machine.execChannelPredicted stack ch s
  | .channelFailed stack ch => Sys2Proof.Machine.execChannelFailed stack ch s
  | .failedChannelRetirement stack ch => Sys2Proof.Machine.execFailedChannelRetirement stack ch s
  | .migrationWindowStall w => Sys2Proof.Machine.execMigrationWindowStall w s
  | .migrationWindowSwitch w => Sys2Proof.Machine.execMigrationWindowSwitch w s
  | .launchPortWrite x => Sys2Proof.Machine.execLaunchPortWrite x s
  | .launchAccept => Sys2Proof.Machine.execLaunchAccept s
  | .waitConditionPoll l => Sys2Proof.Machine.execWaitConditionPoll l s
  | .priorityAging l => Sys2Proof.Machine.execPriorityAging l s
  | .strandPlacement l places => Sys2Proof.Machine.execStrandPlacement l places s
  | .preemption => Sys2Proof.Machine.execPreemption s
  | .strandRestore place => Sys2Proof.Machine.execStrandRestore place s
  | .launchComplete l => Sys2Proof.Machine.execLaunchComplete l s
  | .hostBar2Read x len => Sys2Proof.Machine.execHostBar2Read x len s
  | .hostBar2Write x bytes => Sys2Proof.Machine.execHostBar2Write x bytes s
  | .ctxactActivate x => Sys2Proof.Machine.execCtxactActivate x s
  | .ctxactDeactivate x => Sys2Proof.Machine.execCtxactDeactivate x s
  | .registerWrite x v => Sys2Proof.Machine.execRegisterWrite x v s
  | .attest side => Sys2Proof.Machine.execAttest side s
  | .milepost side => Sys2Proof.Machine.execMilepost side s
  | .raslog side => Sys2Proof.Machine.execRaslog side s
  | .powermode side => Sys2Proof.Machine.execPowermode side s
  | .tenantkey side => Sys2Proof.Machine.execTenantkey side s
  | .chanret side => Sys2Proof.Machine.execChanret side s
  | .debugunlock side => Sys2Proof.Machine.execDebugunlock side s
  | .mailboxCtxact side => Sys2Proof.Machine.execMailboxCtxact side s
  | .extend side => Sys2Proof.Machine.execExtend side s
  | .priResponse k frame => Sys2Proof.Machine.execPriResponse k frame s
  | .priTimeout k => Sys2Proof.Machine.execPriTimeout k s
  | .atsInvalidation pasid page => Sys2Proof.Machine.execAtsInvalidation pasid page s
  | .ideInsecure fn => Sys2Proof.Machine.execIdeInsecure fn s
  | .peerAccess a => Sys2Proof.Machine.execPeerAccess a s
  | .peerErrorCompletion peer => Sys2Proof.Machine.execPeerErrorCompletion peer s
  | .peerTimeout peer => Sys2Proof.Machine.execPeerTimeout peer s
  | .linkTraining domain => Sys2Proof.Machine.execLinkTraining domain s
  | .portWidthChange port => Sys2Proof.Machine.execPortWidthChange port s
  | .lifecycleFuse retire => Sys2Proof.Machine.execLifecycleFuse retire s
  | .coldReset => Sys2Proof.Machine.execColdReset s
  | .warmReset => Sys2Proof.Machine.execWarmReset s
  | .illegalInstruction w => Sys2Proof.Machine.execIllegalInstruction w s
  | .emulationTrap w => Sys2Proof.Machine.execEmulationTrap w s
  | .mccFailure c => Sys2Proof.Machine.execMccFailure c s
  | .hostUnsupportedRequest => Sys2Proof.Machine.execHostUnsupportedRequest s
  | .ideKm fn stream => Sys2Proof.Machine.execIdeKm fn stream s
  | .debuggerHalt c core lgs => Sys2Proof.Machine.execDebuggerHalt c core lgs s
  | .powerGating c core => Sys2Proof.Machine.execPowerGating c core s

end Sys2Proof.Machine
end

