-- ==== Sys2Proof/Machine/Step.lean ====
section
/-!
DEFINITION. One step of the machine: the turn, what it executes, and the count of steps.
-/

namespace Sys2Proof.Machine

/-- A turn carried out. -/
def Turn.go (t : Turn) : Host.Outcome State Fault Refusal :=
  match t with
  | .stay s => .next s
  | .run i s => exec i s

/-- One step. -/
noncomputable def step (s : State) : Host.Outcome State Fault Refusal := tickOut (nextTurn s).go

/-- The state with an instruction placed where the next step fetches: the load of a program that a launch stands for. -/
def State.withFetchWord (s : State) (nbits w : Nat) : State := s.loaded (w % 2 ^ nbits)

end Sys2Proof.Machine
end

