-- ==== Sys2Proof/Safety.lean ====
section
/-!
DEFINITION. What counts as a safe outcome, and as a sound memory: the terms of the statements about every step.
-/

namespace Sys2Proof.Machine

/-- The outcome is a next state: no meaning of this model ends in a fault or a refusal. -/
def Safe (o : Host.Outcome State Fault Refusal) : Prop := ∃ s, o = .next s

/-- The memory is sound: its cells are in canonical form, no cluster cache holds more lines than it has room for or two lines of one
address, and every cached line holds 64 bytes (R92). -/
def Mem.sound (m : Mem) : Prop :=
  m.wf = true ∧ ∀ p ∈ m.caches, p.2.length ≤ Config.cacheLines ∧ (p.2.map Line.tag).Nodup ∧ ∀ l ∈ p.2, l.bytes.length = 64

end Sys2Proof.Machine
end

