-- ==== Sys2Proof/Certificates/Slice0/Obligations.lean ====
section
/-!
DEFINITION. The statements for the provers, from the numbered rules of spec/, and the words that they use.
-/

/-! ### The words of the statements -/

namespace Sys2Proof.Machine

/-- None of the registers is the destination of a sink of a pass in flight (R153). -/
def State.ready (s : State) (rs : List Reg) : Prop := ∀ r ∈ rs, s.pending r = false

/-- The state in which S[d] holds `v`, a write of s0 being discarded (R106), PC is 4 further on, and nothing else differs. -/
def State.wrote (s : State) (d : Reg) (v : Word) : State :=
  { s with st := { s.st with pc := s.st.pc + 4, regs := if d = 0 then s.st.regs else s.st.regs.set d.val v } }

/-- The state in which PC is 4 further on and nothing else differs. -/
def State.stepped (s : State) : State := { s with st := { s.st with pc := s.st.pc + 4 } }

/-- The state in which PC is `v` and nothing else differs. -/
def State.at (s : State) (v : Word) : State := { s with st := { s.st with pc := v } }

/-- The state right after a trap at the word (R296): the handler's PC and mode, the saved registers, and IE cleared; a WAIT under
way, what a CACHEWB has asked of peers, and a LAUNCH or an XCOPY that waits, are forgotten. -/
def State.trapped (s : State) (cause detail : Nat) (eva : Word) : State :=
  { s with st := { s.st with
      mode := .s
      pc := s.st.sr.tvec
      fetched := false
      waiting := false
      woken := false
      asks := []
      launching := none
      copying := none
      sr := { s.st.sr with
        epc := s.st.pc
        ecause := wd (256 * detail + cause)
        eva := eva
        eblame := 0
        eforce := 0
        estatus := wd ((if s.st.mode = .s then 1 else 0) + 4 * (s.st.sr.istatus.toNat % 2))
        istatus := s.st.sr.istatus - wd (s.st.sr.istatus.toNat % 2) } } }

/-- A word for 1 or 0. -/
def truth (p : Prop) [Decidable p] : Word := if p then 1 else 0

end Sys2Proof.Machine

open Sys2Proof Sys2Proof.Machine

/-! ### Registers and integer arithmetic -/

/-- R106, R118: a register reads what was last written to it, and s0 as zero. The members of two sources and of one. S[D] takes the stated result of the sources as they were before; counts,
extensions and the byte reversal are said by the bits or bytes of S[A]; bits [63:6] of a shift amount are ignored; no flag is set and
nothing else but PC changes. -/
def Obligations.AluOperations : Prop :=
  ∀ (s : State) (d a b : Reg),
    let x := s.reg a
    let y := s.reg b
    let n := y.toNat % 64
    (∀ (r : Reg) (v : Word), (s.wrote d v).reg 0 = 0 ∧ (d ≠ 0 → (s.wrote d v).reg d = v) ∧
      (r ≠ d → (s.wrote d v).reg r = s.reg r) ∧ s.wrote 0 v = s.stepped) ∧
    (s.ready [d, a, b] →
      exec (.add d a b) s = .next (s.wrote d (wd (x.toNat + y.toNat))) ∧
      exec (.sub d a b) s = .next (s.wrote d (BitVec.ofInt 64 ((x.toNat : Int) - y.toNat))) ∧
      exec (.and d a b) s = .next (s.wrote d (wd (x.toNat &&& y.toNat))) ∧
      exec (.or d a b) s = .next (s.wrote d (wd (x.toNat ||| y.toNat))) ∧
      exec (.xor d a b) s = .next (s.wrote d (wd (x.toNat ^^^ y.toNat))) ∧
      exec (.andn d a b) s = .next (s.wrote d (wd (x.toNat &&& (2 ^ 64 - 1 - y.toNat)))) ∧
      exec (.sll d a b) s = .next (s.wrote d (wd (x.toNat * 2 ^ n))) ∧
      exec (.srl d a b) s = .next (s.wrote d (wd (x.toNat / 2 ^ n))) ∧
      exec (.sra d a b) s = .next (s.wrote d (BitVec.ofInt 64 (x.toInt / 2 ^ n))) ∧
      exec (.ror d a b) s = .next (s.wrote d (wd (x.toNat / 2 ^ n + x.toNat * 2 ^ (64 - n)))) ∧
      exec (.slt d a b) s = .next (s.wrote d (truth (x.toInt < y.toInt))) ∧
      exec (.sltu d a b) s = .next (s.wrote d (truth (x.toNat < y.toNat))) ∧
      exec (.min d a b) s = .next (s.wrote d (BitVec.ofInt 64 (min x.toInt y.toInt))) ∧
      exec (.max d a b) s = .next (s.wrote d (BitVec.ofInt 64 (max x.toInt y.toInt))) ∧
      exec (.minu d a b) s = .next (s.wrote d (wd (min x.toNat y.toNat))) ∧
      exec (.maxu d a b) s = .next (s.wrote d (wd (max x.toNat y.toNat)))) ∧
    (s.ready [d, a] →
      (∃ n, exec (.clz d a) s = .next (s.wrote d (wd n)) ∧ n ≤ 64 ∧ x.toNat < 2 ^ (64 - n) ∧
        (n < 64 → 2 ^ (63 - n) ≤ x.toNat)) ∧
      (∃ n, exec (.ctz d a) s = .next (s.wrote d (wd n)) ∧ n ≤ 64 ∧ x.toNat % 2 ^ n = 0 ∧
        (n < 64 → x.toNat / 2 ^ n % 2 = 1)) ∧
      exec (.popc d a) s = .next (s.wrote d (wd ((List.range 64).countP fun i => x.getLsbD i))) ∧
      exec (.sextb d a) s = .next (s.wrote d (BitVec.ofInt 64 (BitVec.ofNat 8 x.toNat).toInt)) ∧
      exec (.sexth d a) s = .next (s.wrote d (BitVec.ofInt 64 (BitVec.ofNat 16 x.toNat).toInt)) ∧
      exec (.sextw d a) s = .next (s.wrote d (BitVec.ofInt 64 (BitVec.ofNat 32 x.toNat).toInt)) ∧
      exec (.zextb d a) s = .next (s.wrote d (wd (x.toNat % 2 ^ 8))) ∧
      exec (.zexth d a) s = .next (s.wrote d (wd (x.toNat % 2 ^ 16))) ∧
      exec (.zextw d a) s = .next (s.wrote d (wd (x.toNat % 2 ^ 32))) ∧
      (∃ v : Word, exec (.bswap d a) s = .next (s.wrote d v) ∧
        ∀ k < 8, v.toNat / 256 ^ k % 256 = x.toNat / 256 ^ (7 - k) % 256))

/-- R119 to R121: products, quotients truncated toward zero and remainders with the sign of S[A], with the results that the table of
borderline cases gives a zero divisor; -2^63 divided by -1 gives -2^63 and 0. The members with an immediate, and the 16-bit chunks of LDZ and
LDK. -/
def Obligations.MultiplyDivideAndImmediates : Prop :=
  (∀ (s : State) (d a b : Reg), s.ready [d, a, b] →
    let x := s.reg a
    let y := s.reg b
    exec (.mul d a b) s = .next (s.wrote d (wd (x.toNat * y.toNat))) ∧
    exec (.mulh d a b) s = .next (s.wrote d (BitVec.ofInt 64 (x.toInt * y.toInt / 2 ^ 64))) ∧
    exec (.mulhu d a b) s = .next (s.wrote d (wd (x.toNat * y.toNat / 2 ^ 64))) ∧
    exec (.div d a b) s = .next (s.wrote d (if y = 0 then wd (2 ^ 64 - 1) else BitVec.ofInt 64 (x.toInt.tdiv y.toInt))) ∧
    exec (.divu d a b) s = .next (s.wrote d (if y = 0 then wd (2 ^ 64 - 1) else wd (x.toNat / y.toNat))) ∧
    exec (.rem d a b) s = .next (s.wrote d (if y = 0 then x else BitVec.ofInt 64 (x.toInt.tmod y.toInt))) ∧
    exec (.remu d a b) s = .next (s.wrote d (if y = 0 then x else wd (x.toNat % y.toNat)))) ∧
  (∀ (s : State) (d a : Reg) (i : BitVec 16) (j : BitVec 14) (n : BitVec 6) (k : BitVec 2),
    let x := s.reg a
    (s.ready [d, a] →
      exec (.addi d a i) s = .next (s.wrote d (BitVec.ofInt 64 (x.toInt + i.toInt))) ∧
      exec (.andi d a j) s = .next (s.wrote d (wd (x.toNat &&& j.toNat))) ∧
      exec (.ori d a j) s = .next (s.wrote d (wd (x.toNat ||| j.toNat))) ∧
      exec (.xori d a j) s = .next (s.wrote d (wd (x.toNat ^^^ j.toNat))) ∧
      exec (.slli d a n) s = .next (s.wrote d (wd (x.toNat * 2 ^ n.toNat))) ∧
      exec (.srli d a n) s = .next (s.wrote d (wd (x.toNat / 2 ^ n.toNat))) ∧
      exec (.srai d a n) s = .next (s.wrote d (BitVec.ofInt 64 (x.toInt / 2 ^ n.toNat))) ∧
      exec (.rori d a n) s = .next (s.wrote d (wd (x.toNat / 2 ^ n.toNat + x.toNat * 2 ^ (64 - n.toNat)))) ∧
      exec (.slti d a j) s = .next (s.wrote d (truth (x.toInt < j.toInt))) ∧
      exec (.sltiu d a j) s = .next (s.wrote d (truth (x.toNat < (BitVec.ofInt 64 j.toInt).toNat)))) ∧
    (s.ready [d] →
      exec (.ldz d k i) s = .next (s.wrote d (wd (i.toNat * 2 ^ (16 * k.toNat)))) ∧
      ∃ v : Word, exec (.ldk d k i) s = .next (s.wrote d v) ∧
        ∀ m < 4, v.toNat / 2 ^ (16 * m) % 2 ^ 16 =
          if m = k.toNat then i.toNat else (s.reg d).toNat / 2 ^ (16 * m) % 2 ^ 16))

/-! ### Branches and jumps -/

/-- R124: a branch goes to PC + 4 times its signed offset when its condition holds, else to PC + 4; BL and JLR link PC + 4. JR
and JLR read S[A] before the link is written; a target that is no multiple of 4 traps with cause 0x04 and EVA the target, PC and S[D]
unchanged. No flag is set and nothing else changes. -/
def Obligations.BranchesAndJumps : Prop :=
  ∀ (s : State) (d a b : Reg) (o : BitVec 18) (r : BitVec 13) (l : BitVec 25),
    let x := s.reg a
    let y := s.reg b
    let hop (k : Int) : Word := BitVec.ofInt 64 ((s.st.pc.toNat : Int) + 4 * k)
    let goes (p : Prop) [Decidable p] (t : Word) : State := if p then s.at t else s.stepped
    (s.ready [a] →
      exec (.beqz a o) s = .next (goes (x = 0) (hop o.toInt)) ∧
      exec (.bnez a o) s = .next (goes (x ≠ 0) (hop o.toInt)) ∧
      exec (.bltz a o) s = .next (goes (x.toInt < 0) (hop o.toInt)) ∧
      exec (.bgez a o) s = .next (goes (0 ≤ x.toInt) (hop o.toInt)) ∧
      exec (.bgtz a o) s = .next (goes (0 < x.toInt) (hop o.toInt)) ∧
      exec (.blez a o) s = .next (goes (x.toInt ≤ 0) (hop o.toInt)) ∧
      exec (.jr a) s = .next (if x.toNat % 4 = 0 then s.at x else s.trapped 4 0 x)) ∧
    (s.ready [a, b] →
      exec (.beq a b r) s = .next (goes (x = y) (hop r.toInt)) ∧
      exec (.bne a b r) s = .next (goes (x ≠ y) (hop r.toInt)) ∧
      exec (.blt a b r) s = .next (goes (x.toInt < y.toInt) (hop r.toInt)) ∧
      exec (.bge a b r) s = .next (goes (y.toInt ≤ x.toInt) (hop r.toInt)) ∧
      exec (.bltu a b r) s = .next (goes (x.toNat < y.toNat) (hop r.toInt)) ∧
      exec (.bgeu a b r) s = .next (goes (y.toNat ≤ x.toNat) (hop r.toInt))) ∧
    exec (.b l) s = .next (s.at (hop l.toInt)) ∧
    (s.ready [1] → exec (.bl l) s = .next ((s.wrote 1 (s.st.pc + 4)).at (hop l.toInt))) ∧
    (s.ready [d, a] →
      exec (.jlr d a) s = .next (if x.toNat % 4 = 0 then (s.wrote d (s.st.pc + 4)).at x else s.trapped 4 0 x))


/-! ### Scalar floating point -/

namespace Sys2Proof.Machine

/-- The real number that a finite value stands for; 0 for any other. -/
noncomputable def FVal.real (x : FVal) : ℝ :=
  match x with
  | .num n m e _ => (if n then -1 else 1) * (m : ℝ) * (2 : ℝ) ^ e
  | _ => 0

def FVal.finite (x : FVal) : Prop := match x with | .num _ _ _ s => s = false | _ => False

/-- The value on the extended line: infinities at its ends. -/
noncomputable def FVal.ext (x : FVal) : EReal :=
  match x with
  | .inf n => if n then ⊥ else ⊤
  | y => (y.real : EReal)

/-- A value that stands for a real number: exactly, or with 64 bits or more of its magnitude from below. -/
def FVal.near (x : FVal) (q : ℝ) : Prop :=
  match x with
  | .num n m e st =>
    if st then 2 ^ 64 ≤ m ∧ (m : ℝ) * (2 : ℝ) ^ e < |q| ∧ |q| < ((m : ℝ) + 1) * (2 : ℝ) ^ e ∧ (n = true ↔ q < 0)
    else x.real = q
  | _ => False

/-- The five formats with infinities (R171). -/
def ieeeFormats : List Fmt := [fmtF64, fmtF32, fmtF16, fmtBf16, fmtE5m2]

/-- The seven formats of R171. -/
def allFormats : List Fmt := ieeeFormats ++ [fmtE4m3, fmtE2m1]

/-- `n` is the real number rounded to an integer in a mode (R173). -/
def roundsTo (m : RM) (q : ℝ) (n : ℤ) : Prop :=
  match m with
  | .rne => |q - n| ≤ 1 / 2 ∧ (|q - n| = 1 / 2 → n % 2 = 0)
  | .rtz => n = if 0 ≤ q then ⌊q⌋ else ⌈q⌉
  | .rup => n = ⌈q⌉
  | .rdn => n = ⌊q⌋

/-- The state in which FPFLAGS holds `f` as well. -/
def State.flagged (s : State) (f : FFlags) : State :=
  { s with st := { s.st with sr := { s.st.sr with fpflags := s.st.sr.fpflags ||| f.setWidth 64 } } }

/-- The outcome of a scalar floating-point instruction (R127): FPFLAGS takes the flags; with a trap bit of FPCTL set for one of
them, cause 0x0D with S[d] unwritten, else S[d] takes the code. -/
def State.fpDone (s : State) (d : Reg) (r : Nat × FFlags) : State :=
  if s.st.sr.fpctl.toNat / 16 % 32 &&& r.2.toNat = 0 then (s.flagged r.2).wrote d (wd r.1)
  else (s.flagged r.2).trapped 0x0D r.2.toNat 0

/-- The operand of a register in a precision: bits [31:0] for f32 (R125). -/
def State.fpCode (s : State) (p : Prec) (r : Reg) : Nat :=
  match p with | .s => (s.reg r).toNat % 2 ^ 32 | .d => (s.reg r).toNat

def State.fpVal (s : State) (p : Prec) (r : Reg) : FVal :=
  decodeF (precFmt p) (s.fpCode p r)

end Sys2Proof.Machine

/-- R171, R173, R174: in each of the seven formats and every mode, the code that Round and RoundSat give is, short of overflow, the one that
the mode picks: no representable value lies nearer in the direction of the mode, and a tie goes to the even code. Inexact and
underflow are raised exactly when the code differs from the exact value, and when it is tiny besides. It is an overflow exactly when the value,
rounded with an unbounded exponent, exceeds the largest finite one; Round then gives an infinity, for e4m3 its NaN and for e2m1 the signed
largest, where the mode rounds away from zero, and the signed largest elsewhere, and RoundSat always the signed largest. A NaN gives the
canonical NaN, or zero in e2m1, and an infinity itself, the NaN of e4m3 or the largest of e2m1 with NV, or under RoundSat the largest. -/
def Obligations.RoundingIsCorrect : Prop :=
  (∀ f ∈ allFormats, ∀ (m : RM) (sat n : Bool),
    roundF f m sat (.nan n) = (if f = fmtE2m1 then (0, flNV) else (f.cnan, if n then flNV else 0)) ∧
    roundF f m sat (.inf n) =
      if sat then (f.signBit n + f.largest, 0) else if f = fmtE4m3 then (0x7F, flNV)
      else if f = fmtE2m1 then (f.signBit n + f.largest, flNV) else (f.signBit n + f.infCode, 0)) ∧
  ∀ f ∈ allFormats, ∀ (m : RM) (sat : Bool) (x : FVal) (q : ℝ), x.near q →
    let r := roundF f m sat x
    let v := (decodeF f r.1).real
    let top := (decodeF f f.largest).real
    let beyond : ℝ := top + (top - (decodeF f (f.largest - 1)).real)
    let away := match m with | .rne => true | .rtz => false | .rup => !x.neg | .rdn => x.neg
    (r.2 &&& flOF ≠ 0 ↔
      if m = .rne then (top + beyond) / 2 < |q| ∨ ((top + beyond) / 2 = |q| ∧ f.largest % 2 = 1)
      else if away then top < |q| else beyond ≤ |q|) ∧
    (r.2 &&& flOF = 0 →
      (decodeF f r.1).finite ∧
      (r.2 &&& flNX ≠ 0 ↔ v ≠ q) ∧
      (r.2 &&& flUF ≠ 0 ↔ v ≠ q ∧ |v| < (2 : ℝ) ^ f.emin) ∧
      (v = 0 → (decodeF f r.1).neg = x.neg) ∧
      ∀ c, (decodeF f c).finite →
        let w := (decodeF f c).real
        match m with
        | .rne => |v - q| ≤ |w - q| ∧ (|v - q| = |w - q| → w = v ∨ r.1 % 2 = 0)
        | .rtz => |v| ≤ |q| ∧ 0 ≤ v * q ∧ (|w| ≤ |q| → |w| ≤ |v|)
        | .rup => q ≤ v ∧ (q ≤ w → v ≤ w)
        | .rdn => v ≤ q ∧ (w ≤ q → w ≤ v)) ∧
    (r.2 &&& flOF ≠ 0 →
      r.2 = flOF ||| flNX ∧
      r.1 = if sat || !away then f.signBit x.neg + f.largest else if f = fmtE4m3 then 0x7F
        else f.signBit x.neg + (if f = fmtE2m1 then f.largest else f.infCode))

/-- R125, R129: on finite operands a scalar sum, difference, product, quotient, root, fused product, conversion from an integer
and conversion between precisions writes the exact result, rounded once in the mode FPCTL.RM; a zero sum, fused or not, has the sign of
R176. An infinity with operands that leave the operation valid gives, with no flag, the infinity of the stated sign, and a finite value
over one a zero. -/
def Obligations.ScalarFpArithmetic : Prop :=
  ∀ (s : State) (d a b : Reg) (p : Prec) (u : Bool),
    let m := rmOf s.st.sr.fpctl
    let x := s.fpVal p a
    let y := s.fpVal p b
    let c := s.fpVal p d
    let done (z : FVal) : State := s.fpDone d (roundF (precFmt p) m false z)
    let inf (f : Fmt) (n : Bool) : State := s.fpDone d (f.signBit n + f.infCode, 0)
    let zero (q : ℝ) (vn wn : Bool) (v : ℝ) (z : FVal) : Prop :=
      q = 0 → z.neg = if v = 0 ∧ vn = true ∧ wn = true then true else decide (m = .rdn)
    let sign := x.neg != y.neg
    (s.ready [d, a, b] → x.finite → y.finite →
      (∃ z, z.near (x.real + y.real) ∧ zero (x.real + y.real) x.neg y.neg x.real z ∧ exec (.fadd d a b p) s = .next (done z)) ∧
      (∃ z, z.near (x.real - y.real) ∧ zero (x.real - y.real) x.neg (!y.neg) x.real z ∧
        exec (.fsub d a b p) s = .next (done z)) ∧
      (∃ z, z.near (x.real * y.real) ∧ z.neg = (x.neg != y.neg) ∧ exec (.fmul d a b p) s = .next (done z)) ∧
      (y.real ≠ 0 → ∃ z, z.near (x.real / y.real) ∧ z.neg = (x.neg != y.neg) ∧
        exec (.fdiv d a b p) s = .next (done z)) ∧
      (c.finite →
        (∃ z, z.near (c.real + x.real * y.real) ∧ zero (c.real + x.real * y.real) c.neg sign c.real z ∧
          exec (.fmac d a b p) s = .next (done z)) ∧
        (∃ z, z.near (c.real - x.real * y.real) ∧ zero (c.real - x.real * y.real) c.neg (!sign) c.real z ∧
          exec (.fnmac d a b p) s = .next (done z)))) ∧
    (s.ready [d, a, b] →
      let f := precFmt p
      let big (v w : FVal) : Prop := v.isInf = true ∧ (w.isInf = true ∨ (w.finite ∧ w.real ≠ 0))
      let valid (v : FVal) (n : Bool) : Prop := v.finite ∨ (v.isInf = true ∧ v.neg = n)
      (x.isInf = true → valid y x.neg → exec (.fadd d a b p) s = .next (inf f x.neg)) ∧
      (x.finite → y.isInf = true → exec (.fadd d a b p) s = .next (inf f y.neg)) ∧
      (x.isInf = true → valid y (!x.neg) → exec (.fsub d a b p) s = .next (inf f x.neg)) ∧
      (x.finite → y.isInf = true → exec (.fsub d a b p) s = .next (inf f (!y.neg))) ∧
      (big x y ∨ big y x → exec (.fmul d a b p) s = .next (inf f sign)) ∧
      (x.isInf = true → y.finite → exec (.fdiv d a b p) s = .next (inf f sign)) ∧
      (x.finite → y.isInf = true → exec (.fdiv d a b p) s = .next (s.fpDone d (f.signBit sign, 0))) ∧
      (big x y ∨ big y x →
        (valid c sign → exec (.fmac d a b p) s = .next (inf f sign)) ∧
        (valid c (!sign) → exec (.fnmac d a b p) s = .next (inf f (!sign)))) ∧
      (x.finite → y.finite → c.isInf = true →
        exec (.fmac d a b p) s = .next (inf f c.neg) ∧ exec (.fnmac d a b p) s = .next (inf f c.neg))) ∧
    (s.ready [d, a] →
      (x.isInf = true → x.neg = false → exec (.fsqrt d a p) s = .next (inf (precFmt p) false)) ∧
      ((s.fpVal .d a).isInf = true → exec (.fcvtp d a .s) s = .next (inf fmtF32 (s.fpVal .d a).neg)) ∧
      ((s.fpVal .s a).isInf = true → exec (.fcvtp d a .d) s = .next (inf fmtF64 (s.fpVal .s a).neg)) ∧
      (x.finite → 0 ≤ x.real → ∃ z, z.near (Real.sqrt x.real) ∧ z.neg = x.neg ∧
        exec (.fsqrt d a p) s = .next (done z)) ∧
      (∃ z, z.near ((if u then ((s.reg a).toNat : ℤ) else (s.reg a).toInt : ℤ) : ℝ) ∧
        exec (.fcvtf d a p u) s = .next (done z)) ∧
      ((s.fpVal .d a).finite →
        exec (.fcvtp d a .s) s = .next (s.fpDone d (roundF fmtF32 m false (s.fpVal .d a)))) ∧
      ((s.fpVal .s a).finite → ∃ k : Nat, exec (.fcvtp d a .d) s = .next (s.wrote d (wd k)) ∧
        (decodeF fmtF64 k).finite ∧ (decodeF fmtF64 k).real = (s.fpVal .s a).real ∧
        (decodeF fmtF64 k).neg = (s.fpVal .s a).neg))

/-- R128: comparisons, minimum and maximum, FCVTI, FABS, FNEG and FCLASS, on every operand, NaNs, infinities and zeros included; the invalid
operations, those of FMAC and FNMAC among them, and the division of a finite value by zero: each gives the canonical NaN and NV, or the
signed infinity and DZ; an arithmetic result on any NaN, and FCVTP of one, is the canonical NaN. A fused 0 times infinity raises NV even
when the addend is a quiet NaN. -/
def Obligations.ScalarFpCompareAndSpecial : Prop :=
  (∀ (s : State) (d a b : Reg) (p : Prec) (u : Bool),
      let f := (precFmt p)
      let c := s.fpCode p a
      let x := s.fpVal p a
      let y := s.fpVal p b
      let nan := x.isNan = true ∨ y.isNan = true
      let snan : FFlags := if x.isSnan = true ∨ y.isSnan = true then flNV else 0
      let some (v : Nat) (fl : FFlags) : State := s.fpDone d (v, fl)
      let num (q : Prop) [Decidable q] : Nat := if q then 1 else 0
      open Classical in
      (s.ready [d, a, b] →
        exec (.feq d a b p) s = .next (some (num (¬ nan ∧ x.ext = y.ext)) snan) ∧
        exec (.flt d a b p) s = .next (some (num (¬ nan ∧ x.ext < y.ext)) (if nan then flNV else 0)) ∧
        exec (.fle d a b p) s = .next (some (num (¬ nan ∧ x.ext ≤ y.ext)) (if nan then flNV else 0)) ∧
        (let less := x.ext < y.ext ∨ (x.ext = y.ext ∧ x.neg = true)
         let pick (wantLess : Prop) [Decidable wantLess] : Nat :=
           if x.isNan = true ∧ y.isNan = true then f.cnan
           else if x.isNan = true then s.fpCode p b
           else if y.isNan = true then c
           else if wantLess then c else s.fpCode p b
         exec (.fmin d a b p) s = .next (some (pick less) snan) ∧
         exec (.fmax d a b p) s = .next (some (pick (y.ext < x.ext ∨ (x.ext = y.ext ∧ x.neg = false))) snan))) ∧
      (s.ready [d, a] →
        (let lo : ℤ := if u then 0 else -(2 ^ 63)
         let hi : ℤ := if u then 2 ^ 64 - 1 else 2 ^ 63 - 1
         let put (n : ℤ) (fl : FFlags) : State := some (BitVec.ofInt 64 n).toNat fl
         (x.isNan = true → exec (.fcvti d a p u) s = .next (put 0 flNV)) ∧
         (x.isInf = true → exec (.fcvti d a p u) s = .next (put (if x.neg = true then lo else hi) flNV)) ∧
         (x.finite → ∃ n : ℤ, roundsTo (rmOf s.st.sr.fpctl) x.real n ∧
           exec (.fcvti d a p u) s = .next
             (if n < lo then put lo flNV else if hi < n then put hi flNV
              else put n (if x.real = n then 0 else flNX)))) ∧
        exec (.fabs d a p) s = .next (s.wrote d (wd (if x.isNan then f.cnan else c % 2 ^ (f.width - 1)))) ∧
        exec (.fneg d a p) s = .next
          (s.wrote d (wd (if x.isNan then f.cnan else (c + 2 ^ (f.width - 1)) % 2 ^ f.width))) ∧
        (let e := c / 2 ^ f.mw % 2 ^ f.ew
         let m := c % 2 ^ f.mw
         let neg := c / 2 ^ (f.width - 1) = 1
         let k : Nat :=
           if e = 2 ^ f.ew - 1 then
             (if m = 0 then (if neg then 0 else 7) else if m < 2 ^ (f.mw - 1) then 8 else 9)
           else if e = 0 then
             (if m = 0 then (if neg then 3 else 4) else if neg then 2 else 5)
           else if neg then 1 else 6
         exec (.fclass d a p) s = .next (s.wrote d (wd (2 ^ k)))))) ∧
  (∀ (s : State) (d a b : Reg) (p : Prec), s.ready [d, a, b] →
      let x := s.fpVal p a
      let y := s.fpVal p b
      let zero (v : FVal) : Prop := v.finite ∧ v.real = 0
      let out (o : Instr) (c : Nat) (fl : FFlags) : Prop := exec o s = .next (s.fpDone d (c, fl))
      let snan : FFlags := if x.isSnan = true ∨ y.isSnan = true then flNV else 0
      let n := (precFmt p).cnan
      let c := s.fpVal p d
      let odd : Prop := (zero x ∧ y.isInf = true) ∨ (x.isInf = true ∧ zero y)
      let big (v w : FVal) : Prop := v.isInf = true ∧ (w.isInf = true ∨ (w.finite ∧ w.real ≠ 0))
      let sign := x.neg != y.neg
      open Classical in
      (x.isNan = true ∨ y.isNan = true ∨ c.isNan = true ∨ odd →
        let fl : FFlags := if x.isSnan = true ∨ y.isSnan = true ∨ c.isSnan = true ∨ odd then flNV else 0
        out (.fmac d a b p) n fl ∧ out (.fnmac d a b p) n fl) ∧
      (big x y ∨ big y x → c.isInf = true →
        (c.neg ≠ sign → out (.fmac d a b p) n flNV) ∧ (c.neg = sign → out (.fnmac d a b p) n flNV)) ∧
      (∀ q : Prec, let v := s.fpVal (match q with | .s => .d | .d => .s) a
        v.isNan = true → out (.fcvtp d a q) (precFmt q).cnan (if v.isSnan = true then flNV else 0)) ∧
      (x.isNan = true ∨ y.isNan = true →
        out (.fadd d a b p) n snan ∧ out (.fsub d a b p) n snan ∧ out (.fmul d a b p) n snan ∧
        out (.fdiv d a b p) n snan) ∧
      (x.isNan = true → out (.fsqrt d a p) n (if x.isSnan = true then flNV else 0)) ∧
      (x.isInf = true → y.isInf = true →
        (x.neg ≠ y.neg → out (.fadd d a b p) n flNV) ∧ (x.neg = y.neg → out (.fsub d a b p) n flNV) ∧
        out (.fdiv d a b p) n flNV) ∧
      (odd → out (.fmul d a b p) n flNV) ∧
      (zero x → zero y → out (.fdiv d a b p) n flNV) ∧
      (x.finite → x.real ≠ 0 → zero y →
        out (.fdiv d a b p) ((precFmt p).signBit (x.neg != y.neg) + (precFmt p).infCode) flDZ) ∧
      ((x.isInf = true ∧ x.neg = true) ∨ (x.finite ∧ x.real < 0) → out (.fsqrt d a p) n flNV))


/-! ### Memory, translation, scalar loads and stores -/

namespace Sys2Proof.Machine

/-- A byte of local HBM as a cluster's agents read it, under a tenant's key. -/
def State.seen (s : State) (c tenant a : Nat) : Option Byte := (s.cluRead c tenant a 1).2.1[0]?

/-- Nothing that a program can read differs, but for what caches hold and the A and D bits that a walk sets: the strands, the
clusters, the windows, host and peer memory, and Tollhouse are as before. -/
def State.sameBut (s t : State) : Prop :=
  t.st = s.st ∧ t.bench = s.bench ∧ t.fab = s.fab ∧ t.host = s.host ∧ t.toll = s.toll ∧ t.steps = s.steps ∧
  t.mem.win = s.mem.win ∧ t.mem.winPoison = s.mem.winPoison ∧ t.mem.hostMem = s.mem.hostMem ∧ t.mem.peerMem = s.mem.peerMem ∧
  t.sys.ctxs = s.sys.ctxs ∧ t.sys.launches = s.sys.launches ∧ t.sys.agenda = s.sys.agenda

/-- A bit of a page-table entry (R64). -/
def entryBit (leaf i : Nat) : Prop := leaf / 2 ^ i % 2 = 1

/-- R66: the access is refused by its leaf. -/
def denied (a : Acc) (leaf tenant : Nat) (user : Bool) : Prop :=
  (a = .load ∧ ¬ entryBit leaf 1) ∨ (a = .store ∧ ¬ entryBit leaf 2) ∨
  (a = .atomic ∧ ¬ (entryBit leaf 1 ∧ entryBit leaf 2)) ∨ (a = .fetch ∧ ¬ entryBit leaf 3) ∨
  (user = true ∧ ¬ entryBit leaf 4) ∨ (a = .fetch ∧ user = false ∧ entryBit leaf 4) ∨
  (user = true ∧ leaf / 2 ^ 60 % 16 ≠ tenant)

/-- The strand's translation cache holds a leaf of the address that an access of the kind may go through: to write, one with D = 1 (R67). -/
def State.holdsLeaf (s : State) (a : Acc) (va : Word) : Prop :=
  ∃ e, ((aget [] s.mem.tlbs s.who.tlb).find? fun e => (e.asid = s.who.asid ∨ e.glob) ∧ e.page = va.toNat / 2 ^ e.bits) = some e ∧
    ((a = .store ∨ a = .atomic) → entryBit e.leaf.toNat 8)

/-- The address of the first poisoned word, of 4 bytes, that an aligned access meets: of one at a window location the upper word only where
the lower is not marked; a line of local HBM is marked as a whole (R49, R98, R297). -/
def State.badWord (s : State) (va : Word) (l : Loc) : Word :=
  let first := wd (va.toNat / 4 * 4)
  match l with
  | .win key => if key / 4 ∈ s.mem.winPoison then first else first + 4
  | _ => first

/-- A location that answers a read: one of a peer, while a port is left, the domain is set and no failure waits for its next access (R320 to
R322). -/
def State.readable (s : State) (l : Loc) : Prop :=
  match l with
  | .peer d _ => s.fab.domain ≠ none ∧ s.fab.portless = false ∧ .peerError d ∉ s.sys.armed
  | _ => True

/-- What agents of a cluster read at a location: the cells of the window; of local HBM the cluster's copy of the line under that tenant, or else
the bytes at the memory-side cache, where a copy under another tenant is written back first; the bytes of the host, or of the peer. -/
def State.bytesThere (s : State) (c : Nat) (l : Loc) (n : Nat) : List Byte :=
  (List.range n).map fun i =>
    match l with
    | .win key => cellRead s.mem.win (key + i)
    | .hbm pa ten =>
      (match (s.cache c).find? fun x => x.tag = pa / 64 with
       | some x => if x.tenant = ten then x.bytes.getD (pa % 64 + i) 0 else (s.flushLine c (pa / 64)).devByte ten (pa + i)
       | none => s.devByte ten (pa + i))
    | .host pa => s.hostByte (pa + i)
    | .peer d pa => s.peerByte d (pa + i)

/-- A poison mark that such a read meets: of a word of the window, or of the line. -/
def State.markedThere (s : State) (c : Nat) (l : Loc) (n : Nat) : Prop :=
  match l with
  | .win key => ∃ x ∈ s.mem.winPoison, key / 4 ≤ x ∧ x ≤ (key + n - 1) / 4
  | .hbm pa ten =>
    (match (s.cache c).find? fun x => x.tag = pa / 64 with
     | some x => if x.tenant = ten then x.poison = true else (s.flushLine c (pa / 64)).linePoison (pa / 64) = true
     | none => s.linePoison (pa / 64) = true)
  | _ => False

/-- What is read at the point of a scope (R278): of local HBM at device and system scope the bytes at the memory-side cache, once the cluster
has written back its own copy of the line. -/
def State.bytesAt (s : State) (c : Nat) (sc : Scope) (l : Loc) (n : Nat) : List Byte :=
  match l with
  | .hbm pa ten => if sc = .dev ∨ sc = .sys then (s.flushLine c (pa / 64)).devRead ten pa n else s.bytesThere c l n
  | _ => s.bytesThere c l n

/-- The cause of a failed translation (R64). -/
def missCause (a : Acc) : Nat := if a = .store ∨ a = .atomic then 6 else 5

end Sys2Proof.Machine

/-- R16 to R19, R102: an address of the cluster window is decoded before translation and without a page table: to the byte of the
logical core it names, or of the front end's own core under the self alias, or it is refused with cause 0x1C in exactly the cases of
R17 and R102. The state is unchanged.
That the self alias of a front end is its own core is the model's reading: log entry 53. -/
def Obligations.WindowDecoding : Prop :=
  ∀ (s : State) (a : Acc) (core off n : Nat), core < 32 → off < 2 ^ 24 → s.st.cluster < 12 →
    let va := wd (0x7FFF0000000000 + core * 2 ^ 24 + off)
    let live := (s.cluster s.st.cluster).logical
    let bad := a = .fetch ∨ (0x400000 ≤ off ∧ off < 0x800000) ∨ (0x800000 ≤ off ∧ n < 4) ∨
      (core = 31 ∧ s.st.span = .ctrl) ∨ (core ≠ 31 ∧ live.length ≤ core)
    (bad → translate s.who a va n s = (.error (.trap 0x1C 0 va), s)) ∧
    (¬ bad → translate s.who a va n s =
      (.ok (.win (s.st.cluster * 2 ^ 29 + (if core = 31 then s.st.core else live.getD core 0) * 2 ^ 24 + off)), s))

/-- R62, R65, R66: outside the window a non-canonical address raises cause 0x1D; a translation that the translation cache holds is
checked against capacity and by R66 on every access, and gives FRAME times 2^16 and the page offset, in local HBM under the leaf's
tenant, in host memory or at a peer (R65). A host address of a context with ATS is translated by the ATS cache, or after a page request, which
the access waits for and whose refusal is a failed translation (R316); of an insecure link's context it waits (R318).
That the access waits there is the model's reading: log entry 58. -/
def Obligations.CachedTranslation : Prop :=
  ∀ (s : State) (a : Acc) (va : Word) (n : Nat), va.toNat / 2 ^ 29 ≠ 0x7FFF0000000000 / 2 ^ 29 →
    let w := s.who
    ((∃ i, 54 < i ∧ i < 64 ∧ va.getLsbD i ≠ va.getLsbD 54) → translate w a va n s = (.error (.trap 0x1D 0 va), s)) ∧
    ((∀ i, 54 < i → i < 64 → va.getLsbD i = va.getLsbD 54) →
      ∀ e : TlbEntry,
        ((aget [] s.mem.tlbs w.tlb).find? fun e => (e.asid = w.asid ∨ e.glob) ∧ e.page = va.toNat / 2 ^ e.bits) = some e →
        let leaf := e.leaf.toNat
        let pa := leaf / 2 ^ 10 % 2 ^ 36 * 2 ^ 16 + va.toNat % 2 ^ e.bits
        let mt := leaf / 2 ^ 46 % 4
        ((a = .store ∨ a = .atomic) → entryBit leaf 8) →
        (mt = 0 → s.capacity ≤ pa → translate w a va n s = (.error (.trap (missCause a) 0 va), s)) ∧
        (¬ (mt = 0 ∧ s.capacity ≤ pa) → denied a leaf w.tenant w.user →
          translate w a va n s = (.error (.trap 7 0 va), s)) ∧
        (¬ denied a leaf w.tenant w.user →
          (mt = 0 → pa < s.capacity → s.fab.stalled = none →
            translate w a va n s = (.ok (.hbm pa (leaf / 2 ^ 60 % 16)), s)) ∧
          (mt = 2 → translate w a va n s = (.ok (.peer (leaf / 2 ^ 48 % 2 ^ 12) pa), s)) ∧
          (mt = 1 → ∀ c, s.ctx? w.ctx = some c →
            (c.hfn ∈ s.host.insecure → 0 < s.st.sid → translate w a va n s = (.error .wait, s)) ∧
            (c.hfn ∉ s.host.insecure → c.ats = false → translate w a va n s = (.ok (.host pa), s)) ∧
            (c.hfn ∉ s.host.insecure → c.ats = true →
              let page := pa / 2 ^ 12
              let held := s.mem.atc.find? fun e => e.1 = w.asid ∧ e.2.1 = page
              let asked := s.sys.pri.find? fun p => p.asid = w.asid ∧ p.page = page
              let left (p : Pri) : State := { s with sys := { s.sys with pri := s.sys.pri.filter fun q => q ≠ p } }
              (∀ e, held = some e → translate w a va n s = (.ok (.host (e.2.2 * 2 ^ 12 + pa % 2 ^ 12)), s)) ∧
              (held = none →
                (asked = none → translate w a va n s = (.error .wait, { s with sys := { s.sys with
                  pri := s.sys.pri ++ [⟨w.ctx, w.asid, page, none⟩]
                  outbox := s.sys.outbox ++ [.pageRequest c.hfn w.asid page] } })) ∧
                (∀ p, asked = some p →
                  (p.answer = none → translate w a va n s = (.error .wait, s)) ∧
                  (p.answer = some none → translate w a va n s = (.error (.trap (missCause a) 0 va), left p)) ∧
                  (∀ f, p.answer = some (some f) → translate w a va n s = (.ok (.host (f * 2 ^ 12 + pa % 2 ^ 12)),
                    { left p with mem := { s.mem with atc := ((w.asid, page, f) :: s.mem.atc).take 4096 } }))))))))

/-- R63 to R67: with nothing cached, a walk of an address of either canonical half begins with the first-level entry of VA[54:34] and follows
the pointers, each under tenant 0's key, to the second level by VA[33:25] and the third by VA[24:16]. An entry that it meets and that is not valid
or malformed raises cause 0x05 or 0x06 and leaves the state as it was; a well-formed leaf that allows the access translates, by the page offset
of its level, into local HBM, host memory or a peer, and afterwards its A bit is set, and its D bit for a store or an atomic, with every other
byte of local HBM as before. -/
def Obligations.FirstLevelWalk : Prop :=
  ∀ (s : State) (a : Acc) (va : Word) (n level at_ : Nat),
    let w := s.who
    let entry (x : Nat) : Nat := leNat (s.devRead 0 x 8)
    let read (x : Nat) : Prop := x < s.capacity ∧ s.linePoison (x / 64) = false
    let points (x t : Nat) : Prop := entryBit (entry x) 0 ∧ entry x / 2 % 2 ^ 11 = 0 ∧ entry x / 2 ^ 52 = 0 ∧
      t = entry x / 2 ^ 12 % 2 ^ 40 * 2 ^ 12 ∧ t < s.capacity
    let first := w.ptb + 8 * (va.toNat / 2 ^ 34 % 2 ^ 21)
    let second (t : Nat) : Nat := t + 8 * (va.toNat / 2 ^ 25 % 2 ^ 9)
    let third (t : Nat) : Nat := t + 8 * (va.toNat / 2 ^ 16 % 2 ^ 9)
    let e := entry at_
    let off := if level = 1 then 34 else if level = 2 then 25 else 16
    let pa := e / 2 ^ 10 % 2 ^ 36 * 2 ^ 16 + va.toNat % 2 ^ off
    let mt := e / 2 ^ 46 % 4
    let peer := e / 2 ^ 48 % 2 ^ 12
    let leaf := entryBit e 1 ∨ entryBit e 2 ∨ entryBit e 3
    let malformed : Prop :=
      (¬ leaf ∧ (level = 3 ∨ e / 2 % 2 ^ 11 ≠ 0 ∨ e / 2 ^ 52 ≠ 0 ∨ s.capacity ≤ e / 2 ^ 12 % 2 ^ 40 * 2 ^ 12)) ∨
      (leaf ∧ (entryBit e 2 ∧ ¬ entryBit e 1 ∨ mt = 3 ∨ peer ≠ 0 ∧ mt ≠ 2 ∨ mt = 2 ∧ s.fab.domain = some peer ∨
        level = 1 ∧ e / 2 ^ 10 % 2 ^ 18 ≠ 0 ∨ level = 2 ∧ e / 2 ^ 10 % 2 ^ 9 ≠ 0))
    (va.toNat < 2 ^ 54 ∨ 2 ^ 64 - 2 ^ 54 ≤ va.toNat) → aget [] s.mem.tlbs w.tlb = [] → aget [] s.mem.walks w.cluster = [] →
    s.fab.stalled = none →
    (level = 1 ∧ at_ = first) ∨ (level = 2 ∧ ∃ t, read first ∧ points first t ∧ at_ = second t) ∨
      (level = 3 ∧ ∃ t u, read first ∧ points first t ∧ read (second t) ∧ points (second t) u ∧ at_ = third u) →
    read at_ →
    (¬ entryBit e 0 ∨ malformed → translate w a va n s = (.error (.trap (missCause a) 0 va), s)) ∧
    (entryBit e 0 → leaf → ¬ malformed → (mt = 0 → pa < s.capacity) → ¬ denied a e w.tenant w.user → s.mem.wf = true →
      (mt = 1 → ∃ c, s.ctx? w.ctx = some c ∧ c.hfn ∉ s.host.insecure ∧ c.ats = false) →
      ∃ t, translate w a va n s =
          (.ok (if mt = 0 then .hbm pa (e / 2 ^ 60 % 16) else if mt = 1 then .host pa else .peer peer pa), t) ∧ s.sameBut t ∧
        (∃ e', e' = leNat (t.devRead 0 at_ 8) ∧ entryBit e' 7 ∧ ((a = .store ∨ a = .atomic) → entryBit e' 8) ∧
          ∀ i, i ≠ 7 → i ≠ 8 → (entryBit e' i ↔ entryBit e i)) ∧
        ∀ x, x < at_ ∨ at_ + 8 ≤ x → ∀ k, t.devByte k x = s.devByte k x)

/-- R67, R92, R97, R122, R264: translating an address and reading at a location change no register, no window byte and no byte of host or
peer memory. Translating changes no cluster cache, and of local HBM no byte outside the eight of the leaf entry that the walk of the address
ends at, of which it sets at most bits 7 and 8 (A and D, R67) and clears none; it changes no byte at all where no walk is made (a window
address, one that is not canonical, a leaf that the translation cache holds and that the access may go through) or none ends at a leaf.
Reading changes no byte but one that was dirty in the cluster's own cache, which a line's departure writes back, and no other cluster's
cache. A store at a window location changes exactly its bytes, which read back as stored. A store to local HBM through a cluster's cache
reads back there as stored; while that cache has room for one more line every other byte reads there as before (of the same line under the
same tenant; of every other line under any); no window byte and no register changes.
A read answers the bytes at its location and whether a poison mark lies on them: the window's cells; local HBM as the cluster's cache holds the
line, or else as the memory-side cache has it; the bytes of the host or of the peer. A store to the host, or to a peer that answers, changes
exactly its bytes; one that fails writes nothing.
What becomes of the other bytes of a cached line is the model's reading: log entry 60. -/
def Obligations.ReadAndStoreFrames : Prop :=
  (∀ (s : State) (w : Who) (va : Word) (l : Loc) (n : Nat), s.mem.sound →
      (s.readable l → (∀ pa ten, l = .hbm pa ten → pa % 64 + n ≤ 64) →
        ∃ t bad, readLoc w va l n s = (.ok (s.bytesThere w.cluster l n, bad), t) ∧ (bad = true ↔ s.markedThere w.cluster l n) ∧
          ((∀ pa ten, l ≠ .hbm pa ten) → t = s)) ∧
      (¬ s.readable l → ∃ t, readLoc w va l n s = (.error (.trap 0x13 0 va), t) ∧ t.mem = s.mem ∧ t.st = s.st)) ∧
  (∀ (s t : State) (a : Acc) (va : Word) (n : Nat) (l : Loc) (r : Except Stop Loc) (q : Except Stop (List Byte × Bool)),
      (translate s.who a va n s = (r, t) → s.sameBut t ∧ t.mem.caches = s.mem.caches ∧
        (s.mem.sound → t.mem.sound ∧
          (∀ pa e level u, walk s.who a va s = (.ok (pa, e, level), u) →
            (∀ k x, x < pa ∨ pa + 8 ≤ x → t.devByte k x = s.devByte k x) ∧
            ∀ i, let old := entryBit (leNat (s.devRead 0 pa 8)) i
              let new := entryBit (leNat (t.devRead 0 pa 8)) i
              (i ≠ 7 → i ≠ 8 → (new ↔ old)) ∧ (old → new)) ∧
          (isWindow va = true ∨ canonical va = false ∨ s.holdsLeaf a va ∨ (∀ x u, walk s.who a va s ≠ (.ok x, u)) →
            ∀ k x, t.devByte k x = s.devByte k x))) ∧
      (readLoc s.who va l n s = (q, t) → s.sameBut t ∧ (∀ c, c ≠ s.st.cluster → t.cache c = s.cache c) ∧
        (s.mem.sound → t.mem.sound ∧
          ∀ k x, (∀ m ∈ s.cache s.st.cluster, m.tag = x / 64 → m.dirtyAt (x % 64) = 0) → t.devByte k x = s.devByte k x))) ∧
  (∀ (s : State) (w : Who) (key : Nat) (bs : List Byte), s.mem.wf = true →
      ∃ t, writeLoc w (.win key) bs s = (.ok (), t) ∧ t.mem.wf = true ∧
        (∀ i < bs.length, cellRead t.mem.win (key + i) = bs.getD i 0) ∧
        (∀ x, x < key ∨ key + bs.length ≤ x → cellRead t.mem.win x = cellRead s.mem.win x) ∧
        (∀ c k x, t.seen c k x = s.seen c k x) ∧ t.mem.hostMem = s.mem.hostMem ∧ t.mem.peerMem = s.mem.peerMem ∧
        t.st = s.st ∧ t.bench = s.bench ∧ t.fab = s.fab ∧ t.sys = s.sys ∧ t.host = s.host ∧ t.toll = s.toll) ∧
  (∀ (s : State) (w : Who) (pa tenant : Nat) (bs : List Byte), s.mem.sound → pa % 64 + bs.length ≤ 64 →
      ∃ t, writeLoc w (.hbm pa tenant) bs s = (.ok (), t) ∧ t.mem.sound ∧
        (∀ i < bs.length, t.seen w.cluster tenant (pa + i) = bs[i]?) ∧
        ((s.cache w.cluster).length < Config.cacheLines → ∀ x k, x < pa ∨ pa + bs.length ≤ x → (x / 64 = pa / 64 → k = tenant) →
          t.seen w.cluster k x = s.seen w.cluster k x) ∧
        s.sameBut t ∧ t.sys = s.sys) ∧
  (∀ (s : State) (w : Who) (d pa : Nat) (bs : List Byte),
      let beside (x : Nat) : Prop := x < pa ∨ pa + bs.length ≤ x
      let rest (t : State) : Prop := t.mem.win = s.mem.win ∧ t.mem.hbm = s.mem.hbm ∧ t.mem.caches = s.mem.caches ∧ t.st = s.st ∧ t.bench = s.bench
      (∃ t, writeLoc w (.host pa) bs s = (.ok (), t) ∧ (∀ i < bs.length, t.hostByte (pa + i) = bs.getD i 0) ∧
        (∀ x, beside x → t.hostByte x = s.hostByte x) ∧ t.mem.peerMem = s.mem.peerMem ∧ t.fab = s.fab ∧ rest t) ∧
      (s.readable (.peer d pa) → ∃ t, writeLoc w (.peer d pa) bs s = (.ok (), t) ∧ (∀ i < bs.length, t.peerByte d (pa + i) = bs.getD i 0) ∧
        (∀ x, beside x → t.peerByte d x = s.peerByte d x) ∧ t.mem.hostMem = s.mem.hostMem ∧ t.fab = s.fab ∧ rest t) ∧
      (¬ s.readable (.peer d pa) → ∃ t, writeLoc w (.peer d pa) bs s = (.ok (), t) ∧ t.mem = s.mem ∧ rest t))

/-- R122: a scalar access is at S[A] plus the signed offset; a misaligned address raises cause 0x04 and one whose translation fails its
trap, with nothing read or written; an access that must wait leaves the word to be executed again. A load of poisoned data raises 0x13 with
the address of the poisoned word (of 4 bytes: log entry 90) and does not write S[D]; otherwise S[D] takes the bytes that stand at the location,
least significant first, extended as the member says, and PC advances. A store
writes the low bytes of S[D] to the translated address, least significant first, and no register changes but PC. -/
def Obligations.ScalarLoadsAndStores : Prop :=
  ∀ (s : State) (d a : Reg) (i : BitVec 13), s.ready [d, a] →
    let ea := BitVec.ofInt 64 ((s.reg a).toInt + i.toInt)
    let loads (o : Instr) (n : Nat) (ext : Nat → Word) : Prop :=
      (ea.toNat % n ≠ 0 → exec o s = .next (s.trapped 4 0 ea)) ∧
      (ea.toNat % n = 0 → ∀ t,
        (∀ c e v, translate s.who .load ea n s = (.error (.trap c e v), t) → exec o s = .next (t.trapped c e v)) ∧
        (translate s.who .load ea n s = (.error .wait, t) → exec o s = .next t) ∧
        ∀ l, translate s.who .load ea n s = (.ok l, t) → ∀ t2 bs,
          (t.mem.sound → t.readable l → ¬ t.markedThere s.st.cluster l n →
            ∃ t3, exec o s = .next (t3.wrote d (ext (leNat (t.bytesThere s.st.cluster l n)))) ∧ t.sameBut t3) ∧
          (readLoc s.who ea l n t = (.ok (bs, false), t2) → exec o s = .next (t2.wrote d (ext (leNat bs)))) ∧
          (readLoc s.who ea l n t = (.ok (bs, true), t2) → exec o s = .next (t2.trapped 0x13 0 (t2.badWord ea l))) ∧
          ∀ c e v, readLoc s.who ea l n t = (.error (.trap c e v), t2) → exec o s = .next (t2.trapped c e v))
    let stores (o : Instr) (n : Nat) : Prop :=
      (ea.toNat % n ≠ 0 → exec o s = .next (s.trapped 4 0 ea)) ∧
      (ea.toNat % n = 0 → ∀ t,
        (∀ c e v, translate s.who .store ea n s = (.error (.trap c e v), t) → exec o s = .next (t.trapped c e v)) ∧
        (translate s.who .store ea n s = (.error .wait, t) → exec o s = .next t) ∧
        ∀ l, translate s.who .store ea n s = (.ok l, t) →
          ∃ t2, writeLoc s.who l (leBytes n (s.reg d).toNat) t = (.ok (), t2) ∧ exec o s = .next t2.stepped)
    loads (.ldb d a i) 1 (fun v => BitVec.ofInt 64 (BitVec.ofNat 8 v).toInt) ∧
    loads (.ldbu d a i) 1 wd ∧
    loads (.ldh d a i) 2 (fun v => BitVec.ofInt 64 (BitVec.ofNat 16 v).toInt) ∧
    loads (.ldhu d a i) 2 wd ∧
    loads (.ldw d a i) 4 (fun v => BitVec.ofInt 64 (BitVec.ofNat 32 v).toInt) ∧
    loads (.ldwu d a i) 4 wd ∧
    loads (.ldd d a i) 8 wd ∧
    stores (.stb d a i) 1 ∧ stores (.sth d a i) 2 ∧ stores (.stw d a i) 4 ∧ stores (.std d a i) 8

/-! ### Atomics -/

namespace Sys2Proof.Machine

/-- The new value of a location of `w` bits (R277): `m` the old one, `b` from S[B] and `c` from S[D], both cut to `w` bits. -/
noncomputable def newAtomic (op : AmoOp) (w m b c : Nat) : Nat :=
  let i (x : Nat) : ℤ := (BitVec.ofNat w x).toInt
  match op with
  | .swap => b
  | .add => (m + b) % 2 ^ w
  | .and => (BitVec.ofNat w m &&& BitVec.ofNat w b).toNat
  | .or => (BitVec.ofNat w m ||| BitVec.ofNat w b).toNat
  | .xor => (BitVec.ofNat w m ^^^ BitVec.ofNat w b).toNat
  | .min => (BitVec.ofInt w (min (i m) (i b))).toNat
  | .max => (BitVec.ofInt w (max (i m) (i b))).toNat
  | .minu => min m b
  | .maxu => max m b
  | .cas => if m = c then b else m
  | .fadd => (addF (if w = 32 then fmtF32 else fmtF64) .rne
      (decodeF (if w = 32 then fmtF32 else fmtF64) m) (decodeF (if w = 32 then fmtF32 else fmtF64) b)).1

/-- Whether Place(m) zero-extends a word (R277). -/
def zeroPlaced (op : AmoOp) : Bool := match op with | .minu | .maxu | .cas | .fadd => true | _ => false

def placed (zero : Bool) (z : Size) (m : Nat) : Word :=
  match z with | .d => wd m | .w => if zero then wd m else BitVec.ofInt 64 (BitVec.ofNat 32 m).toInt

/-- Whether an order releases, and whether it acquires (R277). -/
def orderRel (o : Order) : Prop := o = .rel ∨ o = .acqrel
def orderAcq (o : Order) : Prop := o = .acq ∨ o = .acqrel

/-- Whether a scope is that of the device or of the system (R265). -/
def outer (sc : Scope) : Prop := sc = .dev ∨ sc = .sys

/-- R97: at a window address an atomic, LDA or STL of an outer scope acts at cluster scope. -/
def scopeThere (ea : Word) (sc : Scope) : Scope :=
  if ea.toNat / 2 ^ 29 = 0x7FFF0000000000 / 2 ^ 29 ∧ (sc = .dev ∨ sc = .sys) then .clu else sc

/-- The release of an order has been made, leading from `s` to `u`. -/
def releasedBy (s : State) (sc : Scope) (o : Order) (u : State) : Prop :=
  if o = .rel ∨ o = .acqrel then releaseAt s.st.cluster s.who.owner sc s = (.ok (), u) else u = s

/-- The acquire of an order. -/
def acquiredBy (s : State) (sc : Scope) (o : Order) (t : State) : State :=
  if o = .acq ∨ o = .acqrel then t.acquire s.st.cluster sc else t

/-- A byte that was dirty in a line of a cache stands in local HBM under the line's tenant: each of its dirty nibbles. -/
def standsIn (t s : State) (l : Line) (i : Nat) : Prop :=
  t.devByte l.tenant (l.tag * 64 + i) =
    mergeNibbles (l.dirtyAt i) (l.bytes.getD i 0) (s.devByte l.tenant (l.tag * 64 + i))

end Sys2Proof.Machine

/-- R97, R277, R278: a read-modify-write: a misaligned address raises cause 0x04; AMOFADD under DETERM raises 0x0C with no access; with
rel or acqrel the release comes first, and the word waits while it must; then the translation as an atomic, the read at the point of the
scope of the bytes that stand there, the new value of the member's row of the table written there, the acquire, and S[D] takes the old value
as Place says. Poisoned data
raise 0x13 and write nothing. On a host page only SWAP, ADD and CAS are performed; every other member raises 0x07. At a window address an
outer scope acts as cluster scope. An AMOADD at system scope on the device-side command word rings (R324).
That an Unsupported Request is armed beforehand and met by the next host atomic is the model's choice: log entry 14. What a ring does is
log entry 35. -/
def Obligations.AtomicReadModifyWrite : Prop :=
  ∀ (s : State) (d a b : Reg) (sc : Scope) (o : Order) (z : Size), s.ready [d, a, b] →
    let ea := s.reg a
    let n := szBytes z
    let sc' := scopeThere ea sc
    let held : Prop := outer sc' ∧ s.holdsDirty s.st.cluster = true
    let atom (i : Instr) (op : AmoOp) : Prop :=
      (ea.toNat % n ≠ 0 → exec i s = .next (s.trapped 4 0 ea)) ∧
      (ea.toNat % n = 0 → (op = .fadd → s.st.sr.determ = 0) → o ≠ .rlx → held → exec i s = .next s) ∧
      (ea.toNat % n = 0 → (op = .fadd → s.st.sr.determ = 0) → (orderAcq o → ¬ held) → ∀ s0,
        ((o = .rel ∨ o = .acqrel) → releaseAt s.st.cluster s.who.owner sc' s = (.error .wait, s0) → exec i s = .next s0) ∧
        (releasedBy s sc' o s0 → ∀ t,
        (∀ c e v, translate s.who .atomic ea n s0 = (.error (.trap c e v), t) → exec i s = .next (t.trapped c e v)) ∧
        (∀ l, translate s.who .atomic ea n s0 = (.ok l, t) →
          let sent : Prop := op = .swap ∨ op = .add ∨ op = .cas
          ((∃ pa, l = .host pa) → ¬ sent → exec i s = .next (t.trapped 7 0 ea)) ∧
          ((∃ pa, l = .host pa) → sent → .hostUnsupported ∈ t.sys.armed →
            exec i s = .next (({ t with sys := { t.sys with armed := t.sys.armed.erase .hostUnsupported } } : State).trapped 7 0 ea)) ∧
          (∀ u, ((∀ pa, l ≠ .host pa) ∧ u = t) ∨
              (∃ pa, l = .host pa ∧ sent ∧ .hostUnsupported ∉ t.sys.armed ∧
                u = { t with sys := { t.sys with outbox := t.sys.outbox ++ [.atomicOp s.hfn op pa] } }) → ∀ t1,
            (∀ c e v, pointRead s.who sc' ea l n u = (.error (.trap c e v), t1) → exec i s = .next (t1.trapped c e v)) ∧
            (∀ m, pointRead s.who sc' ea l n u = (.ok m, t1) →
              (u.mem.sound → m = leNat (u.bytesAt s.st.cluster sc' l n)) ∧
              ∃ t2, pointWrite s.who.answered sc' l n
                  (newAtomic op (8 * n) m ((s.reg b).toNat % 2 ^ (8 * n)) ((s.reg d).toNat % 2 ^ (8 * n))) t1 = (.ok (), t2) ∧
                let t3 := if op = .add ∧ sc' = .sys ∧ l = .hbm (t2.mbxPa 0x3FF8) 0 then
                  t2.ring .supervisor (leNat (t2.mbxRead .supervisor 0x3FF8 4)) else t2
                (orderAcq o → outer sc' → t3.holdsDirty s.st.cluster = false) →
                  exec i s = .next ((acquiredBy s sc' o t3).wrote d (placed (zeroPlaced op) z m)))))))
    atom (.amoswap d a b sc o z) .swap ∧ atom (.amoadd d a b sc o z) .add ∧ atom (.amoand d a b sc o z) .and ∧
    atom (.amoor d a b sc o z) .or ∧ atom (.amoxor d a b sc o z) .xor ∧ atom (.amomin d a b sc o z) .min ∧
    atom (.amomax d a b sc o z) .max ∧ atom (.amominu d a b sc o z) .minu ∧ atom (.amomaxu d a b sc o z) .maxu ∧
    atom (.amocas d a b sc o z) .cas ∧ atom (.amofadd d a b sc o z) .fadd ∧
    (ea.toNat % n = 0 → s.st.sr.determ ≠ 0 → ∀ w, encode (.amofadd d a b sc o z) = some w →
      exec (.amofadd d a b sc o z) s = .next (s.trapped 0x0C 0 (w.setWidth 64)))

/-- R97, R266, R267, R270, R277, R278: LDA reads the bytes that stand at the point of its scope and then acquires, and raises 0x07 when the host answers its request
with Unsupported Request; STL releases and then writes at the point of its scope. An access of local HBM at device or system scope is made at the
memory-side cache, after the cluster's own copy of the line has been written back and dropped: every byte that was dirty there, and is not written now, stands in local HBM. A release at those scopes leaves
no dirty byte in the cluster's cache, and an acquire leaves nothing cached there; after either, every byte that was dirty stands in local
HBM. A release at system scope waits while a write of the agent, or one that a release has covered, is not acknowledged, and asks each link
to the host once for a flushing read.
What happens to the cluster's own copy of the line is the model's reading: log entries 60 and 63; whose writes a release covers is log
entry 72; that an Unsupported Request is armed beforehand is log entry 14. -/
def Obligations.LoadAcquireStoreRelease : Prop :=
  (∀ (s : State) (d a b : Reg) (sc : Scope) (o : Order) (z : Size),
      let ea := s.reg a
      let n := szBytes z
      let sc' := scopeThere ea sc
      (s.ready [d, a] →
        (ea.toNat % n ≠ 0 → exec (.lda d a sc o z) s = .next (s.trapped 4 0 ea)) ∧
        (ea.toNat % n = 0 → orderAcq o → outer sc' → s.holdsDirty s.st.cluster = true → exec (.lda d a sc o z) s = .next s) ∧
        (ea.toNat % n = 0 → (orderAcq o → outer sc' → s.holdsDirty s.st.cluster = false) → ∀ t,
          (∀ c e v, translate s.who .load ea n s = (.error (.trap c e v), t) →
            exec (.lda d a sc o z) s = .next (t.trapped c e v)) ∧
          ∀ l m t1, translate s.who .load ea n s = (.ok l, t) →
            ((∃ pa, l = .host pa) → .hostUnsupported ∈ t.sys.armed →
              exec (.lda d a sc o z) s =
                .next (({ t with sys := { t.sys with armed := t.sys.armed.erase .hostUnsupported } } : State).trapped 7 0 ea)) ∧
            (((∃ pa, l = .host pa) → .hostUnsupported ∉ t.sys.armed) →
              (∀ c e v, pointRead s.who sc' ea l n t = (.error (.trap c e v), t1) → exec (.lda d a sc o z) s = .next (t1.trapped c e v)) ∧
              (t.mem.sound → pointRead s.who sc' ea l n t = (.ok m, t1) → m = leNat (t.bytesAt s.st.cluster sc' l n)) ∧
              (pointRead s.who sc' ea l n t = (.ok m, t1) → (orderAcq o → outer sc' → t1.holdsDirty s.st.cluster = false) →
                exec (.lda d a sc o z) s = .next ((acquiredBy s sc' o t1).wrote d (placed false z m)))))) ∧
      (s.ready [a, b] →
        (ea.toNat % n ≠ 0 → exec (.stl a b sc o z) s = .next (s.trapped 4 0 ea)) ∧
        (ea.toNat % n = 0 → ∀ s0,
          ((o = .rel ∨ o = .acqrel) → releaseAt s.st.cluster s.who.owner sc' s = (.error .wait, s0) →
            exec (.stl a b sc o z) s = .next s0) ∧
          (releasedBy s sc' o s0 → ∀ t,
            (∀ c e v, translate s.who .store ea n s0 = (.error (.trap c e v), t) →
              exec (.stl a b sc o z) s = .next (t.trapped c e v)) ∧
            ∀ l, translate s.who .store ea n s0 = (.ok l, t) →
              ∃ t1, pointWrite s.who sc' l n (s.reg b).toNat t = (.ok (), t1) ∧
                exec (.stl a b sc o z) s = .next t1.stepped)))) ∧
  (∀ (s : State) (w : Who) (sc : Scope) (ea : Word) (pa tenant n v c owner : Nat), s.mem.sound → outer sc →
      (let u := s.flushLine w.cluster (pa / 64)
       pointRead w sc ea (.hbm pa tenant) n s =
          (if u.linePoison (pa / 64) then .error (.trap 0x13 0 ea) else .ok (leNat (u.devRead tenant pa n)), u) ∧
        (∀ l ∈ s.cache w.cluster, l.tag = pa / 64 → ∀ i < 64, l.dirtyAt i ≠ 0 → standsIn u s l i) ∧
        (∀ k x, (∀ l ∈ s.cache w.cluster, l.tag = pa / 64 → l.tag = x / 64 → l.dirtyAt (x % 64) = 0) →
          u.devByte k x = s.devByte k x)) ∧
      (pa % 64 + n ≤ 64 → ∃ t, pointWrite w sc (.hbm pa tenant) n v s = (.ok (), t) ∧
        (∀ i < n, t.devByte tenant (pa + i) = BitVec.ofNat 8 (v / 256 ^ i)) ∧
        (∀ l ∈ t.cache w.cluster, l.tag ≠ pa / 64) ∧ t.st = s.st ∧ t.mem.win = s.mem.win ∧
        (∀ l ∈ s.cache w.cluster, l.tag = pa / 64 → ∀ i < 64, l.dirtyAt i ≠ 0 →
          (l.tag * 64 + i < pa ∨ pa + n ≤ l.tag * 64 + i) → standsIn t s l i) ∧
        (∀ k x, x / 64 ≠ pa / 64 → t.devByte k x = s.devByte k x)) ∧
      (∀ l ∈ (s.release c sc).cache c, l.dirty = 0) ∧ (s.acquire c sc).cache c = [] ∧
      (∀ l ∈ s.cache c, ∀ i < 64, l.dirtyAt i ≠ 0 → standsIn (s.release c sc) s l i ∧ standsIn (s.acquire c sc) s l i) ∧
      (∀ k x, (∀ l ∈ s.cache c, l.tag = x / 64 → l.dirtyAt (x % 64) = 0) →
        (s.release c sc).devByte k x = s.devByte k x ∧ (s.acquire c sc).devByte k x = s.devByte k x) ∧
      (let o := s.sys.owed.filter fun o => o.owner == owner || o.shared
       (s.holdsDirty c = true → releaseAt c owner sc s = (.error .wait, s)) ∧
       (s.holdsDirty c = false → (sc = .dev ∨ o = []) →
         releaseAt c owner sc s = (.ok (), (s.release c sc).share owner)) ∧
       (s.holdsDirty c = false → sc = .sys → o ≠ [] →
         ∃ t, releaseAt c owner sc s = (.error .wait, t) ∧ t.mem = (s.release c sc).mem ∧ t.st = s.st ∧
           (∀ x ∈ t.sys.owed, (x.owner = owner ∨ x.shared = true) → x.asked = true) ∧
           t.sys.owed.length = s.sys.owed.length ∧
           ∀ fn, (∃ x ∈ o, x.link = .host fn ∧ x.asked = false) →
             t.sys.outbox.count (.flushRead fn) = s.sys.outbox.count (.flushRead fn) + 1)))

/-! ### State registers and privilege -/

/-- R110, R113, R114, R117: MFS reads each state register of the table, a privileged one in mode S; the counts of lanes read as 0,
VROWS as 1, on an MCC; nothing but S[D] and PC changes.
R110, R112, R116, R117, R290, R305: MTS writes the fields that the tables give a register and ignores the reserved bits; an MTS of EPC clears
bits [1:0]; no register but the one named, and PC, changes.
TIMER reads the model's clock: log entry 3. That a reserved bit is not kept is the model's reading: log entry 55. -/
def Obligations.StateRegisters : Prop :=
  (∀ (s : State) (d : Reg), s.ready [d] →
    let r := s.st.sr
    let rd (n : BitVec 11) (v : Word) : Prop := exec (.mfs d n) s = .next (s.wrote d v)
    let mcc := s.st.span = .ctrl
    (s.unsettled = false → rd 0x000 (if mcc then 0 else wd r.vl)) ∧
    rd 0x001 (if mcc then 1 else wd r.vrows) ∧ rd 0x002 (if mcc then 0 else wd r.vlmax) ∧ rd 0x003 r.vpol ∧
    rd 0x004 (if mcc then 0 else wd r.vprog) ∧ rd 0x005 r.fpctl ∧
    (s.passesInFlight = false → rd 0x006 r.fpflags) ∧
    rd 0x007 r.determ ∧ rd 0x008 r.rngkey ∧ rd 0x009 r.draw ∧ rd 0x00A r.strandkey ∧ rd 0x00B r.iter ∧ rd 0x00C r.groups ∧
    rd 0x00D r.tdtbase ∧
    ((∀ k, s.st.qerrSerial = some k → ∀ p ∈ s.st.passes, p.serial = k → p.inFlight = false) →
      rd 0x00E (if mcc then 0 else r.qerr)) ∧
    rd 0x00F (wd s.timer) ∧ rd 0x010 0 ∧ rd 0x011 (s.placeWord s.st) ∧
    (s.st.mode = .s →
      rd 0x100 r.tvec ∧ rd 0x101 r.epc ∧ rd 0x102 r.ecause ∧ rd 0x103 r.eva ∧ rd 0x104 r.eblame ∧ rd 0x105 r.eforce ∧
      rd 0x106 r.estatus ∧ rd 0x107 r.escratch ∧ rd 0x108 r.context ∧ rd 0x109 r.ptbase ∧ rd 0x10A s.lanepart ∧
      rd 0x10B r.wmbase ∧ rd 0x10C r.wmsize ∧ rd 0x10D s.wmhead ∧ rd 0x10E r.istatus ∧ rd 0x10F r.savearea)) ∧
  (∀ (s : State) (a : Reg), s.ready [a] →
    let x := s.reg a
    let bits (lo hi : Nat) : Word := wd (x.toNat / 2 ^ lo % 2 ^ (hi + 1 - lo) * 2 ^ lo)
    let wr (n : BitVec 11) (f : SRegs → SRegs) : Prop :=
      exec (.mts a n) s = .next ({ s with st := { s.st with sr := f s.st.sr } } : State).stepped
    wr 0x003 (fun r => { r with vpol := bits 0 2 }) ∧
    wr 0x005 (fun r => { r with fpctl := bits 0 1 ||| bits 4 8 }) ∧
    (s.passesInFlight = false → wr 0x006 (fun r => { r with fpflags := bits 0 4 })) ∧
    wr 0x007 (fun r => { r with determ := bits 0 0 }) ∧
    wr 0x008 (fun r => { r with rngkey := x }) ∧ wr 0x009 (fun r => { r with draw := x }) ∧
    (s.st.mode = .s →
      wr 0x100 (fun r => { r with tvec := bits 2 63 }) ∧ wr 0x101 (fun r => { r with epc := bits 2 63 }) ∧ wr 0x102 (fun r => { r with ecause := bits 0 15 }) ∧
      wr 0x103 (fun r => { r with eva := x }) ∧ wr 0x104 (fun r => { r with eblame := x }) ∧
      wr 0x105 (fun r => { r with eforce := x }) ∧ wr 0x106 (fun r => { r with estatus := bits 0 2 }) ∧
      wr 0x107 (fun r => { r with escratch := x }) ∧ wr 0x108 (fun r => { r with context := bits 0 19 }) ∧
      wr 0x109 (fun r => { r with ptbase := bits 24 51 }) ∧ wr 0x10B (fun r => { r with wmbase := x }) ∧
      (s.st.span = .ctrl → exec (.mts a 0x10A) s = .next s.stepped) ∧
      exec (.mts a 0x10D) s = .next (s.modCtx s.st.ctx fun c => { c with wmHead := x.toNat % 2 ^ 32 }).stepped ∧
      (s.st.span ≠ .ctrl →
        ∃ t, exec (.mts a 0x10A) s = .next t ∧ t.st = s.stepped.st ∧ t.mem = s.mem ∧ t.sys = s.sys ∧
          (let k := s.fab.core s.st.cluster s.st.core
           let k' := t.fab.core s.st.cluster s.st.core
           (k'.pin = true ↔ x.toNat / 4 % 2 = 1) ∧
           k'.part = if ∀ y ∈ s.onCore s.st.cluster s.st.core,
               (if y.span = .wide then 15 else y.lgs.toNat) ∈
                 ([[15], [3, 12], [3, 4, 8], [1, 2, 4, 8]] : List (List Nat)).getD (x.toNat % 4) [] then x.toNat % 4 else k.part)) ∧
      wr 0x10C (fun r => { r with wmsize := bits 0 31 }) ∧ wr 0x10E (fun r => { r with istatus := bits 0 3 }) ∧
      wr 0x10F (fun r => { r with savearea := x })))

/-- R20, R31, R32: in mode U, RTE, TLBI, MFS and MTS of a state number from 0x100, and MSLOT on the MCC that it belongs to, raise cause 0x03
at the word, EVA the word, and have no effect of their own; a number that is no state register's is no instruction (R111). -/
def Obligations.PrivilegeTraps : Prop :=
  ∀ (s : State) (d a b : Reg) (n : BitVec 11) (w : IWord), s.st.mode = .u →
    ∀ i ∈ ([.rte, .tlbi a b] ++ (if 256 ≤ n.toNat then [.mfs d n, .mts a n] else []) ++
        (if s.st.span = .ctrl then [.mslot d a b] else []) : List Instr),
      wellFormed i = true → encode i = some w → exec i s = .next (s.trapped 3 0 (w.setWidth 64))

/-! ### Traps, returns and the words of control -/

/-- R164, R168, R296, R298, R310: RTE in mode S completes: the mode is that of ESTATUS.PMODE, the interrupt enable that of PIE, and PC is EPC.
With SPASS = 1 the oldest suspended pass runs again, its checks to be made anew, and a younger one waits behind it. Nothing else changes, and
with SPASS = 0 no pass does.
That a resumed pass checks anew and the younger waits is the model's reading of R164 and R168: log entry 21. -/
def Obligations.ReturnFromTrap : Prop :=
  ∀ (s : State), s.st.mode = .s →
    let es := s.st.sr.estatus.toNat
    let is := s.st.sr.istatus
    let resumed (k : Nat) (p : Pass) : Pass :=
      if p.st = .suspended then
        { p with
          st := if k = 0 then .running else .waiting
          checked := false
          fault := none
          descs := []
          unsound := p.unsound.map fun u => { u with stale := true } }
      else p
    exec .rte s = .next { s with st := { s.st with
      mode := if es % 2 = 1 then .s else .u
      pc := s.st.sr.epc
      sr := { s.st.sr with istatus := is - wd (is.toNat % 2) + wd (es / 4 % 2) }
      passes := if es / 2 % 2 = 1 then s.st.passes.mapIdx resumed else s.st.passes } }

/-- R29 to R32, R95, R296, R297, R310, R311: NOP only advances; BREAK raises cause 0x16 at itself; TRAP raises 0x17 with its
immediate in EVA and EPC the next instruction; IFENCE empties the front end's instruction cache; a word that is no instruction raises
0x01, and one of major 0x3F 0x02, each with EVA the word and EPC its address. WAIT waits in place until an event has been seen or an
interrupt is pending; then, or when 10 microseconds have passed, the strand goes on at the next instruction, no longer waiting.
That a wait is a state of the strand and its time limit an event is the model's choice: log entry 19. -/
def Obligations.SystemWords : Prop :=
  ∀ (s : State) (i : BitVec 16) (w : IWord),
    (s.st.waiting = false → exec .wait s = .next { s with st := { s.st with waiting := true } }) ∧
    (s.st.waiting = true → s.st.woken = false → s.interruptFor = none → exec .wait s = .next s) ∧
    (s.st.waiting = true → (s.st.woken = true ∨ s.interruptFor ≠ none) →
      ∃ t, exec .wait s = .next t ∧ t.st.pc = s.st.pc + 4 ∧ t.st.waiting = false ∧ t.st.regs = s.st.regs ∧ t.mem = s.mem ∧
        t.fab = s.fab ∧ t.sys = s.sys) ∧
    (s.st.waiting = true →
      ∃ t, exec .waitTimeout s = .next t ∧ t.st.pc = s.st.pc + 4 ∧ t.st.waiting = false ∧ t.st.regs = s.st.regs ∧
        t.mem = s.mem ∧ t.fab = s.fab ∧ t.sys = s.sys) ∧
    (s.st.waiting = false → exec .waitTimeout s = .next s) ∧
    exec .nop s = .next s.stepped ∧
    exec .brk s = .next (s.trapped 0x16 0 0) ∧
    exec (.trap i) s = .next ((s.at (s.st.pc + 4)).trapped 0x17 0 (i.setWidth 64)) ∧
    exec (.illegalInstruction w) s = .next (s.trapped 1 0 (w.setWidth 64)) ∧
    exec (.emulationTrap w) s = .next (s.trapped 2 0 (w.setWidth 64)) ∧
    (∃ t, exec .ifence s = .next t ∧ t.st = s.stepped.st ∧ aget [] t.mem.icaches s.st.front = [] ∧
      (∀ k, k ≠ s.st.front → aget [] t.mem.icaches k = aget [] s.mem.icaches k) ∧
      t.mem.hbm = s.mem.hbm ∧ t.mem.caches = s.mem.caches ∧ t.fab = s.fab ∧ t.sys = s.sys ∧ t.bench = s.bench)

/-! ### Vector instructions at issue -/

namespace Sys2Proof.Machine

/-- The front end takes a vector word at once: no MCC (R29), no suspended pass (R298), VL settled (R154), no pending register (R153). -/
def State.mayIssue (s : State) (rs : List Reg) : Prop :=
  s.st.span ≠ .ctrl ∧ s.suspended = false ∧ s.unsettled = false ∧ s.ready rs

/-- A name stands for a stream of the present shape (R131): a vector name, or with `pred` a predicate name. -/
def State.named (s : State) (pred : Bool) (r : Reg) (x : Waypoint) : Prop :=
  afind (if pred then s.st.pnames else s.st.vnames) r.val = some x.id ∧ wpOf s.st.wps x.id = some x ∧
  x.vl = s.st.sr.vl ∧ x.vrows = s.st.sr.vrows

/-- The mask of an instruction, as the stream it captures (R136). -/
def State.maskIs (s : State) (m : Mask) (k : Option Nat) : Prop :=
  match m with
  | none => k = none
  | some p => ∃ x, s.named true p x ∧ k = some x.id

/-- The stream that VD named before issue, captured when the instruction is masked and VPOL.MASK is 0 (R148). -/
def State.oldIs (s : State) (pred : Bool) (vd : Reg) (m : Mask) (ty : Option Ty) (k : Option Nat) : Prop :=
  if m = none ∨ s.st.sr.vpol.toNat % 2 = 1 then k = none
  else
    match (afind (if pred then s.st.pnames else s.st.vnames) vd.val).bind (wpOf s.st.wps) with
    | none => k = none
    | some x => x.ty = ty ∧ x.vl = s.st.sr.vl ∧ x.vrows = s.st.sr.vrows ∧
        k = afind (if pred then s.st.pnames else s.st.vnames) vd.val

/-- The waypoint that an instruction makes, with the captures of R136 and R148. -/
def State.makes (s : State) (major : Nat) (op : WOp) (ty : Option Ty) (srcs : List Nat) (mask old seg : Option Nat) : Waypoint :=
  { id := s.st.nextWp, pc := s.st.pc, major := major, op := op, ty := ty, vl := s.st.sr.vl, vrows := s.st.sr.vrows, srcs := srcs,
    mask := mask, old := old, vpol := s.st.sr.vpol, fpctl := s.st.sr.fpctl, draw := s.st.sr.draw, rngkey := s.st.sr.rngkey,
    mark := s.st.mark, seg := seg }

/-- At most 64 waypoints are referenced, by these passes among others, once the names are rebound and `n` waypoints are made (R149). -/
def State.room (s : State) (pred : Bool) (names : List Nat) (ops : List Nat) (n : Nat) (ps : List Pass) : Prop :=
  let drop (l : List (Nat × Nat)) := l.filter fun p => !names.contains p.1
  (referenced s.st (if pred then s.st.vnames else drop s.st.vnames) (if pred then drop s.st.pnames else s.st.pnames)
    ps ops).length + n ≤ 64

/-- The passes that do not go on by themselves: the suspended ones. -/
def State.stopped (s : State) : List Pass := s.st.passes.filter fun p => !p.inFlight

/-- An instruction of `n` new waypoints completes with `t` when there is room for them; it waits when the passes in flight will make room, and
else traps with cause 0x09 (R149). -/
def State.issues (s : State) (i : Instr) (pred : Bool) (names : List Nat) (ops : List Nat) (n : Nat) (t : State) : Prop :=
  (s.room pred names ops n s.st.passes → exec i s = .next t) ∧
  (¬ s.room pred names ops n s.st.passes →
    (s.room pred names ops n s.stopped → exec i s = .next s) ∧
    (¬ s.room pred names ops n s.stopped → ∀ w, encode i = some w → exec i s = .next (s.trapped 9 0 (w.setWidth 64))))

/-- Names bound to new waypoints, PC advanced; with `draws` DRAW moves on by the tile's elements (R191). Nothing else changes. -/
def State.issued (s : State) (pred : Bool) (l : List (Nat × Waypoint)) (draws : Bool) : State :=
  let t := s.st.bind pred l
  { s with st := { t with
      pc := s.st.pc + 4
      sr := if draws then { s.st.sr with draw := s.st.sr.draw + wd (s.st.sr.vl * s.st.sr.vrows) } else s.st.sr } }

/-- What an instruction of one new waypoint needs, besides its sources and room for it (R131, R148, R153). -/
def State.fit (s : State) (pred : Bool) (vd : Reg) (m : Mask) (rs : List Reg) (ty : Option Ty) (mk old : Option Nat) : Prop :=
  s.mayIssue rs ∧ s.maskIs m mk ∧ s.oldIs pred vd m ty old

/-- The integer types, and the floating-point types of arithmetic (R197). -/
def intTypes : List Ty := [.i8, .i16, .i32, .i64]
def floatTypes : List Ty := [.f16, .bf16, .f32, .f64]

end Sys2Proof.Machine

/-- R131, R136, R148, R149, R153, R198, R199, R203: every member of VINT and VINTX issues on integer streams of one type: nothing is
computed, VD names a new waypoint that holds the member, the streams, the captured scalar, and the mask and old stream, and PC advances. When
the waypoint would be one more than 64, the instruction waits for passes in flight that will free one, and else traps with cause 0x09 and EVA
the word. -/
def Obligations.VectorIntegerIssue : Prop :=
  ∀ (s : State) (vd va vb : Reg) (m : Mask) (x y : Waypoint) (t : Ty) (mk old : Option Nat), t ∈ intTypes →
    s.named false va x → x.ty = some t →
    let wp (i : Instr) (major : Nat) (op : WOp) (srcs : List Nat) : Prop :=
      s.issues i false [vd.val] (srcs ++ mk.toList ++ old.toList) 1
        (s.issued false [(vd.val, s.makes major op (some t) srcs mk old none)] false)
    (s.named false vb y → y.ty = some t → s.fit false vd m [] (some t) mk old →
      ∀ q ∈ ([(.vadd vd va vb m, 0), (.vsub vd va vb m, 1), (.vmul vd va vb m, 2), (.vmulh vd va vb m, 3), 
      (.vmulhu vd va vb m, 4), (.vand vd va vb m, 5), (.vor vd va vb m, 6), (.vxor vd va vb m, 7), 
      (.vsll vd va vb m, 8), (.vsrl vd va vb m, 9), (.vsra vd va vb m, 10), (.vmin vd va vb m, 11), 
      (.vmax vd va vb m, 12), (.vminu vd va vb m, 13), (.vmaxu vd va vb m, 14), (.vadds vd va vb m, 15), 
      (.vaddsu vd va vb m, 16), (.vsubs vd va vb m, 17), (.vsubsu vd va vb m, 18)] : List (Instr × Nat)),
        wp q.1 0x24 (.vint q.2 none) [x.id, y.id]) ∧
    (s.fit false vd m [] (some t) mk old →
      ∀ q ∈ ([(.vabs vd va m, 19), (.vneg vd va m, 20), (.vnot vd va m, 21), (.vpopc vd va m, 22), 
      (.vclz vd va m, 23)] : List (Instr × Nat)),
        wp q.1 0x24 (.vint q.2 none) [x.id]) ∧
    (s.fit false vd m [vb] (some t) mk old →
      ∀ q ∈ ([(.vaddVintx vd va vb m, 0), (.vsubVintx vd va vb m, 1), (.vmulVintx vd va vb m, 2), 
      (.vmulhVintx vd va vb m, 3), (.vmulhuVintx vd va vb m, 4), (.vandVintx vd va vb m, 5), 
      (.vorVintx vd va vb m, 6), (.vxorVintx vd va vb m, 7), (.vsllVintx vd va vb m, 8), 
      (.vsrlVintx vd va vb m, 9), (.vsraVintx vd va vb m, 10), (.vminVintx vd va vb m, 11), 
      (.vmaxVintx vd va vb m, 12), (.vminuVintx vd va vb m, 13), (.vmaxuVintx vd va vb m, 14), 
      (.vaddsVintx vd va vb m, 15), (.vaddsuVintx vd va vb m, 16), (.vsubsVintx vd va vb m, 17), 
      (.vsubsuVintx vd va vb m, 18)] : List (Instr × Nat)),
        wp q.1 0x25 (.vint q.2 (some (s.reg vb))) [x.id])

/-- R149, R198, R199, R204, R205: every member of VFP and VFPX, and the four fused members, issue on floating-point streams of one type, or
wait or trap with cause 0x09 when no waypoint can be had. -/
def Obligations.VectorFloatIssue : Prop :=
  ∀ (s : State) (vd va vb vc : Reg) (m : Mask) (x y z : Waypoint) (t : Ty) (mk old : Option Nat), t ∈ floatTypes →
    s.named false va x → x.ty = some t →
    let wp (i : Instr) (major : Nat) (op : WOp) (srcs : List Nat) : Prop :=
      s.issues i false [vd.val] (srcs ++ mk.toList ++ old.toList) 1
        (s.issued false [(vd.val, s.makes major op (some t) srcs mk old none)] false)
    (s.named false vb y → y.ty = some t →
      (s.fit false vd m [] (some t) mk old →
        ∀ q ∈ ([(.vfadd vd va vb m, 0), (.vfsub vd va vb m, 1), (.vfmul vd va vb m, 2), (.vfdiv vd va vb m, 3), 
        (.vfmin vd va vb m, 4), (.vfmax vd va vb m, 5), (.vfsgnj vd va vb m, 13)] : List (Instr × Nat)),
          wp q.1 0x26 (.vfp q.2 none) [x.id, y.id]) ∧
      (s.named false vc z → z.ty = some t → s.fit false vd m [] (some t) mk old →
        ∀ q ∈ ([(.vfma vd va vb vc m, 0), (.vfms vd va vb vc m, 1), (.vfnma vd va vb vc m, 2), (.vfnms vd va vb vc m, 3)] :
            List (Instr × Nat)),
          wp q.1 (0x28 + q.2) (.fma q.2) [x.id, y.id, z.id])) ∧
    (s.fit false vd m [] (some t) mk old →
      ∀ q ∈ ([(.vfabs vd va m, 6), (.vfneg vd va m, 7), (.vfsqrt vd va m, 8), (.vfrcp vd va m, 9), 
      (.vfrsq vd va m, 10), (.vfexp2 vd va m, 11), (.vflog2 vd va m, 12), (.vfrint vd va m, 14)] : List (Instr × Nat)),
        wp q.1 0x26 (.vfp q.2 none) [x.id]) ∧
    (s.fit false vd m [vb] (some t) mk old →
      ∀ q ∈ ([(.vfaddVfpx vd va vb m, 0), (.vfsubVfpx vd va vb m, 1), (.vfmulVfpx vd va vb m, 2), 
      (.vfdivVfpx vd va vb m, 3), (.vfminVfpx vd va vb m, 4), (.vfmaxVfpx vd va vb m, 5), 
      (.vfsgnjVfpx vd va vb m, 13)] : List (Instr × Nat)),
        wp q.1 0x27 (.vfp q.2 (some (s.reg vb))) [x.id])

/-- R149, R191, R196, R206 to R210, R222 to R224: a compare makes a predicate stream of two streams of one type, or of a stream and a captured
scalar; the members of PRED combine predicate streams. Conversions, moves, broadcasts, selection, slides, permutations, scans, random
streams and index streams issue; the kinds that draw advance DRAW by the tile's elements. A slide by more than 7 raises cause 0x1B. When no
waypoint can be had they wait or trap with cause 0x09. -/
def Obligations.VectorPredicateAndMoveIssue : Prop :=
  (∀ (s : State) (pd va vb : Reg) (m : Mask) (c : ICond) (e : FCond) (x y : Waypoint) (t : Ty) (mk old : Option Nat),
      let wp (i : Instr) (major : Nat) (op : WOp) (srcs : List Nat) (mk old : Option Nat) : Prop :=
        s.issues i true [pd.val] (srcs ++ mk.toList ++ old.toList) 1
          (s.issued true [(pd.val, s.makes major op none srcs mk old none)] false)
      (s.named false va x → x.ty = some t →
        (s.named false vb y → y.ty = some t → s.fit true pd m [] none mk old →
          (t ∈ intTypes → wp (.vcmpInt pd va vb m c) 0x2C (.cmpI c none) [x.id, y.id] mk old) ∧
          (t ∈ floatTypes → wp (.vcmpFp pd va vb m e) 0x2C (.cmpF e none) [x.id, y.id] mk old)) ∧
        (s.fit true pd m [vb] none mk old →
          (t ∈ intTypes → wp (.vcmpxInt pd va vb m c) 0x2D (.cmpI c (some (s.reg vb))) [x.id] mk old) ∧
          (t ∈ floatTypes → wp (.vcmpxFp pd va vb m e) 0x2D (.cmpF e (some (s.reg vb))) [x.id] mk old))) ∧
      (s.named true va x → s.named true vb y → s.fit true pd none [] none none none →
        ∀ q ∈ ([(.pand pd va vb, 0), (.por pd va vb, 1), (.pxor pd va vb, 2), (.pandn pd va vb, 3)] : List (Instr × Nat)),
          wp q.1 0x31 (.pred q.2) [x.id, y.id] none none) ∧
      (s.named true va x → s.fit true pd none [] none none none →
        wp (.pnot pd va) 0x31 (.pred 4) [x.id] none none ∧
        wp (.pmov pd va) 0x31 (.pred 7) [x.id] none none) ∧
      (s.fit true pd none [] none none none →
        wp (.pset pd) 0x31 (.pred 5) [] none none ∧ wp (.pclr pd) 0x31 (.pred 6) [] none none)) ∧
  (∀ (s : State) (vd va vb p : Reg) (m : Mask) (x y z : Waypoint) (t u : Ty) (mk old : Option Nat) (i : BitVec 11) (j : BitVec 10),
      let wp (i : Instr) (major : Nat) (op : WOp) (ty : Ty) (srcs : List Nat) (mk old : Option Nat) (draws : Bool) : Prop :=
        s.issues i false [vd.val] (srcs ++ mk.toList ++ old.toList) 1
          (s.issued false [(vd.val, s.makes major op (some ty) srcs mk old none)] draws)
      (s.named false va x → x.ty = some u →
        (s.fit false vd m [] (some t) mk old →
          (cvtOk 0 u t = true → wp (.vcvtRnd vd va t m) 0x2E (.cvt 0) t [x.id] mk old false) ∧
          (cvtOk 1 u t = true → wp (.vcvtSr vd va t m) 0x2E (.cvt 1) t [x.id] mk old true) ∧
          (cvtOk 2 u t = true → wp (.vcvtRtz vd va t m) 0x2E (.cvt 2) t [x.id] mk old false) ∧
          (cvtOk 3 u t = true → wp (.vcvtSat vd va t m) 0x2E (.cvt 3) t [x.id] mk old false) ∧
          (u = .f32 → t = .e2m1 →
            wp (.vcvtF4 vd va m) 0x2E (.cvt 4) .e2m1 [x.id] mk old false ∧
            wp (.vcvtF4sr vd va m) 0x2E (.cvt 5) .e2m1 [x.id] mk old true) ∧
          (u ∈ intTypes ++ floatTypes → t ∈ intTypes ++ floatTypes → tyBits u = tyBits t →
            wp (.vreint vd va t m) 0x2F .reint t [x.id] mk old false)) ∧
        (u ∈ intTypes ++ floatTypes →
          (s.fit false vd m [] (some u) mk old →
            wp (.vmov vd va m) 0x2F .mov u [x.id] mk old false ∧
            wp (.vscansum vd va m) 0x2F .scan u [x.id] mk old false) ∧
          (s.fit false vd m [vb] (some u) mk old →
            (-7 ≤ (s.reg vb).toInt → (s.reg vb).toInt ≤ 7 →
              wp (.vslide vd va vb m) 0x2F (.slide (s.reg vb).toInt) u [x.id] mk old false) ∧
            (¬ (-7 ≤ (s.reg vb).toInt ∧ (s.reg vb).toInt ≤ 7) →
              exec (.vslide vd va vb m) s = .next (s.trapped 0x1B 0 (s.reg vb)))) ∧
          (s.named false vb y → (y.ty = some .i32 ∨ y.ty = some .i64) → s.fit false vd m [] (some u) mk old →
            wp (.vperm vd va vb m) 0x2F .perm u [x.id, y.id] mk old false) ∧
          (s.named false vb y → y.ty = some u → s.named true p z → s.fit false vd none [] (some u) none none →
            wp (.vsel vd va vb p) 0x2F .sel u [x.id, y.id, z.id] none none false))) ∧
      (t ∈ intTypes ++ floatTypes → s.fit false vd m [vb] (some t) mk old →
        wp (.vbcast vd t vb m) 0x2F (.bcast (s.reg vb)) t [] mk old false) ∧
      (s.fit false vd m [] (some .i32) mk old → wp (.vrand vd m) 0x2F .rand .i32 [] mk old true) ∧
      (s.fit false vd m [] (some .f32) mk old → wp (.vrandf vd m) 0x2F .randf .f32 [] mk old true) ∧
      (s.fit false vd none [] (some .i32) none none →
        wp (.vidx vd i j) 0x30 (.idx i.toInt j.toInt) .i32 [] none none false))

/-- R132, R138, R142 to R147, R149: every load issues without reading its data: VD names a waypoint that holds the addresses, or the
descriptor's number, as captured. In every form a base, stride or pitch that is no multiple of the element size is a stream fault with EVA
that value, and a tensor register with a bit above bit 11 a descriptor fault with EVA the register; VLD.ff with more than one row is a
stream fault with EVA the word. When the waypoints cannot be had, which a segment load needs all at once, it waits or traps with cause 0x09.
That S[A] is taken before S[B] when both are misaligned is the model's choice: log entry 78. -/
def Obligations.VectorLoadIssue : Prop :=
  ∀ (s : State) (vd a b : Reg) (m : Mask) (t : Ty) (x : Waypoint) (mk old : Option Nat),
    let st : Ty := match t with | .e4m3 => .f16 | .e5m2 => .f16 | .e2m1 => .f16 | .ch8 => .f32 | .ch4 => .f32 | y => y
    let whole (v : Word) : Prop := v.toNat % max 1 (tyBits t / 8) = 0
    let wp (i : Instr) (major : Nat) (op : WOp) (srcs : List Nat) : Prop :=
      s.issues i false [vd.val] (srcs ++ mk.toList ++ old.toList) 1
        (s.issued false [(vd.val, s.makes major op (some st) srcs mk old none)] false)
    let row (v : Word) : ℤ := (BitVec.ofNat 32 v.toNat).toInt
    let col (v : Word) : ℤ := (BitVec.ofNat 32 (v.toNat / 2 ^ 32)).toInt
    (s.fit false vd m [a] (some st) mk old →
      (¬ whole (s.reg a) → ∀ i ∈ ([.vld vd a m t, .vldFf vd a m t, .vldRow vd a m t, .vldCol vd a m t] : List Instr),
        exec i s = .next (s.trapped 8 0 (s.reg a))) ∧
      (whole (s.reg a) → s.st.sr.vrows ≠ 1 → ∀ w : IWord, encode (.vldFf vd a m t) = some w →
        exec (.vldFf vd a m t) s = .next (s.trapped 8 0 (w.setWidth 64))) ∧
      (whole (s.reg a) →
        wp (.vld vd a m t) 0x16 (.vld 0 0 (s.reg a) t) [] ∧
        (s.st.sr.vrows = 1 → wp (.vldFf vd a m t) 0x16 (.vld 1 0 (s.reg a) t) []) ∧
        wp (.vldRow vd a m t) 0x16 (.vld 9 0 (s.reg a) t) [] ∧
        wp (.vldCol vd a m t) 0x16 (.vld 10 0 (s.reg a) t) [])) ∧
    (s.fit false vd m [a, b] (some st) mk old →
      (¬ whole (s.reg a) → ∀ i ∈ ([.vlds vd a b m t, .vldt vd a b m t] : List Instr),
        exec i s = .next (s.trapped 8 0 (s.reg a))) ∧
      (whole (s.reg a) → ¬ whole (s.reg b) → ∀ i ∈ ([.vlds vd a b m t, .vldt vd a b m t] : List Instr),
        exec i s = .next (s.trapped 8 0 (s.reg b))) ∧
      (2 ^ 12 ≤ (s.reg b).toNat → exec (.vldtd vd a b m t) s = .next (s.trapped 0x0F 0 (s.reg b))) ∧
      (whole (s.reg a) → whole (s.reg b) →
        wp (.vlds vd a b m t) 0x17 (.vlds (s.reg a) (s.reg b) t) [] ∧
        wp (.vldt vd a b m t) 0x18 (.vldt (s.reg a) (s.reg b) t) []) ∧
      ((s.reg b).toNat < 2 ^ 12 →
        wp (.vldtd vd a b m t) 0x1A (.vldtd (row (s.reg a)) (col (s.reg a)) (s.reg b).toNat t) []) ∧
      ((s.reg a).toNat < 2 ^ 12 →
        wp (.vldz vd a b m t) 0x1B (.vldz (s.reg a).toNat (s.reg b).toNat t) []) ∧
      (2 ^ 12 ≤ (s.reg a).toNat → exec (.vldz vd a b m t) s = .next (s.trapped 0x0F 0 (s.reg a)))) ∧
    (s.named false b x → (x.ty = some .i32 ∨ x.ty = some .i64) → s.fit false vd m [a] (some st) mk old →
      ((s.reg a).toNat < 2 ^ 12 → wp (.vldx vd a b m t) 0x19 (.vldx (s.reg a).toNat t) [x.id]) ∧
      (2 ^ 12 ≤ (s.reg a).toNat → exec (.vldx vd a b m t) s = .next (s.trapped 0x0F 0 (s.reg a)))) ∧
    (∀ olds : List (Option Nat), olds.length = b.val → s.mayIssue [a] → s.maskIs m mk →
      (∀ f o, olds[f]? = some o → s.oldIs false (regPlus vd f) m (some st) o) →
      (¬ whole (s.reg a) → exec (.vldSeg vd a b m t) s = .next (s.trapped 8 0 (s.reg a))) ∧
      (whole (s.reg a) →
        s.issues (.vldSeg vd a b m t) false ((List.range b.val).map (vd.val + ·)) (mk.toList ++ olds.flatMap Option.toList) b.val
          (s.issued false (olds.zipIdx.map fun o =>
            (vd.val + o.2, s.makes 0x16 (.vld b.val o.2 (s.reg a) t) (some st) [] mk o.1 (some s.st.nextWp))) false)))

namespace Sys2Proof.Machine

/-- The scalar registers that a word reads or writes (R25, R26), for every word that a core executes; s1 is the link of BL (R124), s31 the
answer of BAR.TEST (R280). -/
def scalarsOf (i : Instr) : List Reg :=
  match i with
  | .add d a b | .sub d a b | .and d a b | .or d a b | .xor d a b | .andn d a b | .sll d a b | .srl d a b | .sra d a b
  | .ror d a b | .slt d a b | .sltu d a b | .min d a b | .max d a b | .minu d a b | .maxu d a b | .mul d a b | .mulh d a b
  | .mulhu d a b | .div d a b | .divu d a b | .rem d a b | .remu d a b | .amoswap d a b _ _ _ | .amoadd d a b _ _ _
  | .amoand d a b _ _ _ | .amoor d a b _ _ _ | .amoxor d a b _ _ _ | .amomin d a b _ _ _ | .amomax d a b _ _ _
  | .amominu d a b _ _ _ | .amomaxu d a b _ _ _ | .amocas d a b _ _ _ | .amofadd d a b _ _ _ | .fadd d a b _ | .fsub d a b _
  | .fmul d a b _ | .fdiv d a b _ | .fmin d a b _ | .fmax d a b _ | .feq d a b _ | .flt d a b _ | .fle d a b _ | .fmac d a b _
  | .fnmac d a b _ => [d, a, b]
  | .clz d a | .ctz d a | .popc d a | .sextb d a | .sexth d a | .sextw d a | .zextb d a | .zexth d a | .zextw d a | .bswap d a
  | .addi d a _ | .andi d a _ | .ori d a _ | .xori d a _ | .slli d a _ | .srli d a _ | .srai d a _ | .rori d a _ | .slti d a _
  | .sltiu d a _ | .ldb d a _ | .ldbu d a _ | .ldh d a _ | .ldhu d a _ | .ldw d a _ | .ldwu d a _ | .ldd d a _ | .stb d a _
  | .sth d a _ | .stw d a _ | .std d a _ | .jlr d a | .lda d a _ _ _ | .fsqrt d a _ | .fcvti d a _ _ | .fcvtf d a _ _
  | .fcvtp d a _ | .fabs d a _ | .fneg d a _ | .fclass d a _ | .setvl d a | .setrows d a | .launch d a | .xcopy d a
  | .xwait d a | .xpoll d a => [d, a]
  | .ldz d _ _ | .ldk d _ _ | .mfs d _ => [d]
  | .beqz a _ | .bnez a _ | .bltz a _ | .bgez a _ | .bgtz a _ | .blez a _ | .jr a | .mts a _ | .xcancel a | .tdinv a => [a]
  | .beq a b _ | .bne a b _ | .blt a b _ | .bge a b _ | .bltu a b _ | .bgeu a b _ | .stl a b _ _ _ | .tlbi a b | .cachewb a b
    => [a, b]
  | .bl _ => [1]
  | .barTest _ => [31]
  | .strip d a p k _ => d :: a :: (List.range (k.toNat + 1)).map (regPlus p)
  | .vld _ a _ _ | .vldFf _ a _ _ | .vldSeg _ a _ _ _ | .vldRow _ a _ _ | .vldCol _ a _ _ | .vldx _ a _ _ _ | .vst _ a _ _ _
  | .vstSeg _ a _ _ _ _ | .vstx _ a _ _ _ _ | .vstxadd _ a _ _ _ _ => [a]
  | .vlds _ a b _ _ | .vldt _ a b _ _ | .vldtd _ a b _ _ | .vldz _ a b _ _ | .vsts _ a b _ _ _ | .vstt _ a b _ _ _
  | .vsttd _ a b _ _ _ | .vstc _ a b _ _ _ | .vstcmp _ a b _ _ _ => [a, b]
  | .vaddVintx _ _ vb _ | .vsubVintx _ _ vb _ | .vmulVintx _ _ vb _ | .vmulhVintx _ _ vb _ | .vmulhuVintx _ _ vb _
  | .vandVintx _ _ vb _ | .vorVintx _ _ vb _ | .vxorVintx _ _ vb _ | .vsllVintx _ _ vb _ | .vsrlVintx _ _ vb _
  | .vsraVintx _ _ vb _ | .vminVintx _ _ vb _ | .vmaxVintx _ _ vb _ | .vminuVintx _ _ vb _ | .vmaxuVintx _ _ vb _
  | .vaddsVintx _ _ vb _ | .vaddsuVintx _ _ vb _ | .vsubsVintx _ _ vb _ | .vsubsuVintx _ _ vb _ | .vfaddVfpx _ _ vb _
  | .vfsubVfpx _ _ vb _ | .vfmulVfpx _ _ vb _ | .vfdivVfpx _ _ vb _ | .vfminVfpx _ _ vb _ | .vfmaxVfpx _ _ vb _
  | .vfsgnjVfpx _ _ vb _ | .vcmpxInt _ _ vb _ _ | .vcmpxFp _ _ vb _ _ | .vslide _ _ vb _ => [vb]
  | .vbcast _ _ b _ => [b]
  | .vredsum d _ _ _ | .vredsumt d _ _ _ | .vredmax d _ _ _ | .vredmin d _ _ _ | .vredmaxu d _ _ _ | .vredminu d _ _ _
  | .vredand d _ _ _ | .vredor d _ _ _ | .vredxor d _ _ _ | .vffs d _ _ _ | .vpop d _ _ _ => [d]
  | _ => []

/-- The streams that a word of majors 0x16 to 0x32 reads, its mask among them, as vector names or, with true, predicate names; none for
another word. -/
def streamsOf (i : Instr) : Option (List (Bool × Reg)) :=
  let mask (m : Mask) : List (Bool × Reg) := m.toList.map fun p => (true, p)
  match i with
  | .vld _ _ m _ | .vldFf _ _ m _ | .vldSeg _ _ _ m _ | .vldRow _ _ m _ | .vldCol _ _ m _ | .vlds _ _ _ m _ | .vldt _ _ _ m _
  | .vldtd _ _ _ m _ | .vldz _ _ _ m _ | .vbcast _ _ _ m | .vrand _ m | .vrandf _ m => some (mask m)
  | .vldx _ _ b m _ => some ((false, b) :: mask m)
  | .vst vs _ _ m _ | .vsts vs _ _ _ m _ | .vstt vs _ _ _ m _ | .vsttd vs _ _ _ m _ | .vstc vs _ _ _ m _ | .vstcmp vs _ _ _ m _
    => some ((false, vs) :: mask m)
  | .vstSeg vs _ b _ m _ => some ((List.range b.val).map (fun k => (false, regPlus vs k)) ++ mask m)
  | .vstx vs _ b _ m _ | .vstxadd vs _ b _ m _ => some ((false, vs) :: (false, b) :: mask m)
  | .vadd _ va vb m | .vsub _ va vb m | .vmul _ va vb m | .vmulh _ va vb m | .vmulhu _ va vb m | .vand _ va vb m
  | .vor _ va vb m | .vxor _ va vb m | .vsll _ va vb m | .vsrl _ va vb m | .vsra _ va vb m | .vmin _ va vb m | .vmax _ va vb m
  | .vminu _ va vb m | .vmaxu _ va vb m | .vadds _ va vb m | .vaddsu _ va vb m | .vsubs _ va vb m | .vsubsu _ va vb m
  | .vfadd _ va vb m | .vfsub _ va vb m | .vfmul _ va vb m | .vfdiv _ va vb m | .vfmin _ va vb m | .vfmax _ va vb m
  | .vfsgnj _ va vb m | .vcmpInt _ va vb m _ | .vcmpFp _ va vb m _ | .vperm _ va vb m => some ((false, va) :: (false, vb) :: mask m)
  | .vfma _ va vb vc m | .vfms _ va vb vc m | .vfnma _ va vb vc m | .vfnms _ va vb vc m
    => some ((false, va) :: (false, vb) :: (false, vc) :: mask m)
  | .vabs _ va m | .vneg _ va m | .vnot _ va m | .vpopc _ va m | .vclz _ va m | .vaddVintx _ va _ m | .vsubVintx _ va _ m
  | .vmulVintx _ va _ m | .vmulhVintx _ va _ m | .vmulhuVintx _ va _ m | .vandVintx _ va _ m | .vorVintx _ va _ m
  | .vxorVintx _ va _ m | .vsllVintx _ va _ m | .vsrlVintx _ va _ m | .vsraVintx _ va _ m | .vminVintx _ va _ m
  | .vmaxVintx _ va _ m | .vminuVintx _ va _ m | .vmaxuVintx _ va _ m | .vaddsVintx _ va _ m | .vaddsuVintx _ va _ m
  | .vsubsVintx _ va _ m | .vsubsuVintx _ va _ m | .vfabs _ va m | .vfneg _ va m | .vfsqrt _ va m | .vfrcp _ va m
  | .vfrsq _ va m | .vfexp2 _ va m | .vflog2 _ va m | .vfrint _ va m | .vfaddVfpx _ va _ m | .vfsubVfpx _ va _ m
  | .vfmulVfpx _ va _ m | .vfdivVfpx _ va _ m | .vfminVfpx _ va _ m | .vfmaxVfpx _ va _ m | .vfsgnjVfpx _ va _ m
  | .vcmpxInt _ va _ m _ | .vcmpxFp _ va _ m _ | .vcvtRnd _ va _ m | .vcvtSr _ va _ m | .vcvtRtz _ va _ m | .vcvtSat _ va _ m
  | .vcvtF4 _ va m | .vcvtF4sr _ va m | .vmov _ va m | .vslide _ va _ m | .vscansum _ va m | .vreint _ va _ m
  | .vredsum _ va m _ | .vredsumt _ va m _ | .vredmax _ va m _ | .vredmin _ va m _ | .vredmaxu _ va m _ | .vredminu _ va m _
  | .vredand _ va m _ | .vredor _ va m _ | .vredxor _ va m _ | .vredrow _ va m _ | .vredrowmax _ va m _
    => some ((false, va) :: mask m)
  | .vsel _ va vb m => some [(false, va), (false, vb), (true, m)]
  | .vidx _ _ _ | .pset _ | .pclr _ => some []
  | .pand _ pa pb | .por _ pa pb | .pxor _ pa pb | .pandn _ pa pb => some [(true, pa), (true, pb)]
  | .pnot _ pa | .pmov _ pa => some [(true, pa)]
  | .vffs _ va m _ | .vpop _ va m _ => some ((true, va) :: mask m)
  | _ => none

/-- The data streams that a word of majors 0x16 to 0x32 reads have these types, in the order of `streamsOf`. -/
def State.typed (s : State) (l : List (Bool × Reg)) (ts : List Ty) : Prop :=
  List.Forall₂ (fun (q : Bool × Reg) t => ∃ x, s.named false q.2 x ∧ x.ty = some t) (l.filter fun q => !q.1) ts

/-- R145, R197, R198, R203 to R209, R222, R223: the types of its data streams that the entry of a waypoint-making word takes, and the type of a
VBCAST (R208). Those of stores and reductions have statements of their own. -/
def accepts (i : Instr) (ts : List Ty) : Prop :=
  let arith := intTypes ++ floatTypes
  let oneOf (ok : List Ty) : Prop := ∃ t ∈ ok, ∀ u ∈ ts, u = t
  let index (u : Ty) : Prop := u = .i32 ∨ u = .i64
  match i with
  | .vadd _ _ _ _ | .vsub _ _ _ _ | .vmul _ _ _ _ | .vmulh _ _ _ _ | .vmulhu _ _ _ _ | .vand _ _ _ _ | .vor _ _ _ _
  | .vxor _ _ _ _ | .vsll _ _ _ _ | .vsrl _ _ _ _ | .vsra _ _ _ _ | .vmin _ _ _ _ | .vmax _ _ _ _ | .vminu _ _ _ _
  | .vmaxu _ _ _ _ | .vadds _ _ _ _ | .vaddsu _ _ _ _ | .vsubs _ _ _ _ | .vsubsu _ _ _ _ | .vabs _ _ _ | .vneg _ _ _
  | .vnot _ _ _ | .vpopc _ _ _ | .vclz _ _ _ | .vaddVintx _ _ _ _ | .vsubVintx _ _ _ _ | .vmulVintx _ _ _ _
  | .vmulhVintx _ _ _ _ | .vmulhuVintx _ _ _ _ | .vandVintx _ _ _ _ | .vorVintx _ _ _ _ | .vxorVintx _ _ _ _
  | .vsllVintx _ _ _ _ | .vsrlVintx _ _ _ _ | .vsraVintx _ _ _ _ | .vminVintx _ _ _ _ | .vmaxVintx _ _ _ _
  | .vminuVintx _ _ _ _ | .vmaxuVintx _ _ _ _ | .vaddsVintx _ _ _ _ | .vaddsuVintx _ _ _ _ | .vsubsVintx _ _ _ _
  | .vsubsuVintx _ _ _ _ | .vcmpInt _ _ _ _ _ | .vcmpxInt _ _ _ _ _ => oneOf intTypes
  | .vfadd _ _ _ _ | .vfsub _ _ _ _ | .vfmul _ _ _ _ | .vfdiv _ _ _ _ | .vfmin _ _ _ _ | .vfmax _ _ _ _ | .vfsgnj _ _ _ _
  | .vfabs _ _ _ | .vfneg _ _ _ | .vfsqrt _ _ _ | .vfrcp _ _ _ | .vfrsq _ _ _ | .vfexp2 _ _ _ | .vflog2 _ _ _ | .vfrint _ _ _
  | .vfaddVfpx _ _ _ _ | .vfsubVfpx _ _ _ _ | .vfmulVfpx _ _ _ _ | .vfdivVfpx _ _ _ _ | .vfminVfpx _ _ _ _
  | .vfmaxVfpx _ _ _ _ | .vfsgnjVfpx _ _ _ _ | .vfma _ _ _ _ _ | .vfms _ _ _ _ _ | .vfnma _ _ _ _ _ | .vfnms _ _ _ _ _
  | .vcmpFp _ _ _ _ _ | .vcmpxFp _ _ _ _ _ => oneOf floatTypes
  | .vmov _ _ _ | .vslide _ _ _ _ | .vscansum _ _ _ | .vsel _ _ _ _ => oneOf arith
  | .vperm _ _ _ _ => ∃ t u, ts = [t, u] ∧ t ∈ arith ∧ index u
  | .vldx _ _ _ _ _ => ∀ u ∈ ts, index u
  | .vcvtRnd _ _ t _ => ∀ u ∈ ts, cvtOk 0 u t = true
  | .vcvtSr _ _ t _ => ∀ u ∈ ts, cvtOk 1 u t = true
  | .vcvtRtz _ _ t _ => ∀ u ∈ ts, cvtOk 2 u t = true
  | .vcvtSat _ _ t _ => ∀ u ∈ ts, cvtOk 3 u t = true
  | .vcvtF4 _ _ _ | .vcvtF4sr _ _ _ => ∀ u ∈ ts, u = .f32
  | .vreint _ _ t _ => t ∈ arith ∧ ∀ u ∈ ts, u ∈ arith ∧ tyBits u = tyBits t
  | .vbcast _ t _ _ => t ∈ arith
  | _ => True

/-- What a word that may be masked makes of data streams of these types: a predicate stream or data streams, under these names, with this mask
and of this type (R132, R199, R206 to R208). -/
def produces (i : Instr) (ts : List Ty) : Option (Bool × List Reg × Mask × Option Ty) :=
  let loaded (t : Ty) : Option Ty := some (match t with | .e4m3 => .f16 | .e5m2 => .f16 | .e2m1 => .f16 | .ch8 => .f32 | .ch4 => .f32 | y => y)
  match i with
  | .vld vd _ m t | .vldFf vd _ m t | .vldRow vd _ m t | .vldCol vd _ m t | .vlds vd _ _ m t | .vldt vd _ _ m t | .vldtd vd _ _ m t
  | .vldz vd _ _ m t | .vldx vd _ _ m t => some (false, [vd], m, loaded t)
  | .vldSeg vd _ b m t => some (false, (List.range b.val).map (regPlus vd), m, loaded t)
  | .vadd vd _ _ m | .vsub vd _ _ m | .vmul vd _ _ m | .vmulh vd _ _ m | .vmulhu vd _ _ m | .vand vd _ _ m | .vor vd _ _ m
  | .vxor vd _ _ m | .vsll vd _ _ m | .vsrl vd _ _ m | .vsra vd _ _ m | .vmin vd _ _ m | .vmax vd _ _ m | .vminu vd _ _ m
  | .vmaxu vd _ _ m | .vadds vd _ _ m | .vaddsu vd _ _ m | .vsubs vd _ _ m | .vsubsu vd _ _ m | .vabs vd _ m | .vneg vd _ m
  | .vnot vd _ m | .vpopc vd _ m | .vclz vd _ m | .vaddVintx vd _ _ m | .vsubVintx vd _ _ m | .vmulVintx vd _ _ m
  | .vmulhVintx vd _ _ m | .vmulhuVintx vd _ _ m | .vandVintx vd _ _ m | .vorVintx vd _ _ m | .vxorVintx vd _ _ m
  | .vsllVintx vd _ _ m | .vsrlVintx vd _ _ m | .vsraVintx vd _ _ m | .vminVintx vd _ _ m | .vmaxVintx vd _ _ m
  | .vminuVintx vd _ _ m | .vmaxuVintx vd _ _ m | .vaddsVintx vd _ _ m | .vaddsuVintx vd _ _ m | .vsubsVintx vd _ _ m
  | .vsubsuVintx vd _ _ m | .vfadd vd _ _ m | .vfsub vd _ _ m | .vfmul vd _ _ m | .vfdiv vd _ _ m | .vfmin vd _ _ m
  | .vfmax vd _ _ m | .vfsgnj vd _ _ m | .vfabs vd _ m | .vfneg vd _ m | .vfsqrt vd _ m | .vfrcp vd _ m | .vfrsq vd _ m
  | .vfexp2 vd _ m | .vflog2 vd _ m | .vfrint vd _ m | .vfaddVfpx vd _ _ m | .vfsubVfpx vd _ _ m | .vfmulVfpx vd _ _ m
  | .vfdivVfpx vd _ _ m | .vfminVfpx vd _ _ m | .vfmaxVfpx vd _ _ m | .vfsgnjVfpx vd _ _ m | .vfma vd _ _ _ m
  | .vfms vd _ _ _ m | .vfnma vd _ _ _ m | .vfnms vd _ _ _ m | .vmov vd _ m | .vslide vd _ _ m | .vperm vd _ _ m
  | .vscansum vd _ m => some (false, [vd], m, ts.head?)
  | .vcmpInt pd _ _ m _ | .vcmpFp pd _ _ m _ | .vcmpxInt pd _ _ m _ | .vcmpxFp pd _ _ m _ => some (true, [pd], m, none)
  | .vcvtRnd vd _ t m | .vcvtSr vd _ t m | .vcvtRtz vd _ t m | .vcvtSat vd _ t m | .vreint vd _ t m | .vbcast vd t _ m
    => some (false, [vd], m, some t)
  | .vcvtF4 vd _ m | .vcvtF4sr vd _ m => some (false, [vd], m, some .e2m1)
  | .vrand vd m => some (false, [vd], m, some .i32)
  | .vrandf vd m => some (false, [vd], m, some .f32)
  | _ => none

/-- A name that stands for no stream of the present shape: it is unnamed, or its stream has another shape (R131). -/
def State.misfit (s : State) (pred : Bool) (r : Reg) : Prop :=
  ∀ id x, afind (if pred then s.st.pnames else s.st.vnames) r.val = some id → wpOf s.st.wps id = some x →
    x.vl ≠ s.st.sr.vl ∨ x.vrows ≠ s.st.sr.vrows

end Sys2Proof.Machine

/-- R29, R31, R131, R153, R154, R226, R298, R332: when an instruction does not issue. Any word that reads or writes a register which a sink of a pass
in flight will write waits at its boundary: nothing changes, and it is executed again. A word of majors 0x14 to 0x32, FORCE, CONVOY, VSYNC and
VDROP are illegal on an MCC and while a pass is suspended, and a word of major 0x34 is while one is suspended. A word that reads streams or
names waits while VL is unsettled, and is a stream fault with EVA the word when a source of it, or its mask, is
unnamed or of another shape, when its entry does not take the type of a source, and when it is masked under the undisturbed policy and a name
that it makes anew stands for a stream of another type or shape.
That such a fault comes before one of a misaligned register is the model's choice: log entry 102. -/
def Obligations.IssueWaitsAndFaults : Prop :=
  (∀ (s : State) (i : Instr) (r : Reg), r ∈ scalarsOf i → s.pending r = true → s.st.span ≠ .ctrl → s.suspended = false →
      (s.st.mode = .u → (∀ a b, i ≠ .tlbi a b) ∧ ∀ a n, 256 ≤ n.toNat → i ≠ .mfs a n ∧ i ≠ .mts a n) →
      exec i s = .next s) ∧
  (∀ s : State, s.pending 0 = false) ∧
  (∀ (s : State) (i : Instr) (w : IWord), encode i = some w →
      let major := w.toNat / 2 ^ 26
      (((0x14 ≤ major ∧ major ≤ 0x32) ∨ i ∈ ([.force, .convoy, .vsync] : List Instr) ∨ ∃ vd, i = .vdrop vd) →
        (s.st.span = .ctrl ∨ s.suspended = true) → exec i s = .next (s.trapped 1 0 (w.setWidth 64))) ∧
      (major = 0x34 → s.suspended = true → exec i s = .next (s.trapped 1 0 (w.setWidth 64)))) ∧
  (∀ (s : State) (i : Instr) (w : IWord) (l : List (Bool × Reg)), streamsOf i = some l → encode i = some w →
      (s.st.span ≠ .ctrl → s.suspended = false →
        (s.unsettled = true → exec i s = .next s) ∧
        (s.unsettled = false → s.ready (scalarsOf i) → s.st.sr.determ.toNat % 2 = 0 → (∃ q ∈ l, s.misfit q.1 q.2) →
          exec i s = .next (s.trapped 8 0 (w.setWidth 64))) ∧
        (s.unsettled = false → s.ready (scalarsOf i) → ∀ ts, s.typed l ts →
          (¬ accepts i ts → exec i s = .next (s.trapped 8 0 (w.setWidth 64))) ∧
          (∀ pred names m ty, produces i ts = some (pred, names, m, ty) → m ≠ none → s.st.sr.vpol.toNat % 2 = 0 →
            (∃ r ∈ names, ∃ id x, afind (if pred then s.st.pnames else s.st.vnames) r.val = some id ∧ wpOf s.st.wps id = some x ∧
              (x.ty ≠ ty ∨ x.vl ≠ s.st.sr.vl ∨ x.vrows ≠ s.st.sr.vrows)) →
            exec i s = .next (s.trapped 8 0 (w.setWidth 64))))))

/-- R139 to R141: SETVL grants the smaller of S[A] and 4,096 times the live lanes and leaves VLMAX at that limit; SETROWS holds its
value between 1 and 65,535; each writes S[D] too. STRIP moves k + 1 pointers on by the old VL times their element sizes, takes the next
strip from the count in S[A], and sets VL and S[D] to its length. -/
def Obligations.LengthsAndStrips : Prop :=
  ∀ (s : State) (d a p : Reg) (k : BitVec 2) (z : BitVec 8), s.st.span ≠ .ctrl → s.suspended = false →
    let most := 4096 * s.liveLanes s.st
    let take := min (s.reg a).toNat most
    (s.unsettled = false → s.ready [d, a] →
      exec (.setvl d a) s = .next
        (({ s with st := { s.st with sr := { s.st.sr with vl := take, vlmax := most } } } : State).wrote d (wd take))) ∧
    (s.ready [d, a] →
      let v := max 1 (min (s.reg a).toNat 65535)
      exec (.setrows d a) s = .next
        (({ s with st := { s.st with sr := { s.st.sr with vrows := v } } } : State).wrote d (wd v))) ∧
    (s.unsettled = false → s.ready (d :: a :: (List.range (k.toNat + 1)).map (regPlus p)) →
      ∃ t, exec (.strip d a p k z) s = .next t ∧ t.st.sr = { s.st.sr with vl := take, vlmax := most } ∧ t.st.pc = s.st.pc + 4 ∧
        t.mem = s.mem ∧ t.fab = s.fab ∧ t.sys = s.sys ∧ t.st.vnames = s.st.vnames ∧ t.st.queue = s.st.queue ∧
        (d ≠ 0 → t.reg d = wd take) ∧ (a ≠ 0 → a ≠ d → t.reg a = wd ((s.reg a).toNat - take)) ∧
        (∀ j ≤ k.toNat, let q := regPlus p j
          q ≠ 0 → q ≠ d → q ≠ a → t.reg q = s.reg q + wd (s.st.sr.vl * 2 ^ (z.toNat / 4 ^ j % 4))) ∧
        ∀ r, r ≠ d → r ≠ a → (∀ j ≤ k.toNat, r ≠ regPlus p j) → t.reg r = s.reg r)

/-! ### The elements that waypoints compute -/

namespace Sys2Proof.Machine

/-- R167, R200: an element of a waypoint with an operation is `z.1`; the flags `z.2` are noted at the element and the node, and are an FP
exception there when a trap of theirs is enabled. -/
def notes (x : Strip) (node : Nat) (w : Waypoint) (r : Res) (e : Nat) (v : Ev) (s : State) (op : WOp) (ss : List Elem) (z : Nat × FFlags) : Prop :=
  ∃ v', evalElem x node { w with op := op } r e ss v s = (.ok (Elem.ok z.1, v'), s) ∧
    v'.fl = (if z.2 = 0 then v.fl else (e, node, z.2) :: v.fl) ∧
    (w.fpctl.toNat / 16 % 32 &&& z.2.toNat = 0 → v' = { v with fl := v'.fl }) ∧
    (w.fpctl.toNat / 16 % 32 &&& z.2.toNat ≠ 0 → v.best = none →
      v'.best = some ⟨e, node, 0x0D, z.2.toNat, 0, w.pc, 0⟩)

end Sys2Proof.Machine

/-- R198, R203, R206, R224: what the members of VINT and VINTX compute, on codes of `w` bits: sums and products modulo 2^w, high halves, shifts by
the amount modulo w, signed and unsigned extremes, saturating sums, counts of bits; the conditions of the compares, and NV of a floating-point
one: of a signalling NaN, and of an ordering for any NaN; the members of PRED. An element of a waypoint is that of its sources in their
order (VABS, VNEG, VNOT, VPOPC, VCLZ, PNOT and PMOV have one, PSET and PCLR none), or of the low w bits of the scalar that it captured; a compare's flags are noted at the element and node. -/
def Obligations.IntegerAndCompareElements : Prop :=
  (∀ (x : Strip) (node e : Nat) (w : Waypoint) (r : Res) (a b : Elem) (v : Ev) (s : State) (t : Ty) (k : Nat) (y : Word),
      w.ty = some t → a.bad = false → b.bad = false →
      let u := x.p.wpTy (w.srcs.headD 0)
      let gives (op : WOp) (ss : List Elem) (n : Nat) : Prop :=
        evalElem x node { w with op := op } r e ss v s = (.ok (Elem.ok n, v), s)
      gives (.vint k none) [a, b] (vintOp k (tyBits t) a.val b.val) ∧
      (k ∈ [19, 20, 21, 22, 23] → gives (.vint k none) [a] (vintOp k (tyBits t) a.val 0)) ∧
      (k ∈ [4, 7] → gives (.pred k) [a] (predOpE k a.val 0)) ∧ (k ∈ [5, 6] → gives (.pred k) [] (predOpE k 0 0)) ∧
      gives (.vint k (some y)) [a] (vintOp k (tyBits t) a.val (y.toNat % 2 ^ tyBits t)) ∧
      gives (.pred k) [a, b] (predOpE k a.val b.val) ∧
      (∀ q, gives (.cmpI q none) [a, b] (if cmpIOp q (tyBits u) a.val b.val then 1 else 0) ∧
        gives (.cmpI q (some y)) [a] (if cmpIOp q (tyBits u) a.val (y.toNat % 2 ^ tyBits u) then 1 else 0)) ∧
      (∀ f q, tyFmt u = some f →
        let z (n : Nat) : Nat × FFlags := (if (cmpFOp q f a.val n).1 then 1 else 0, (cmpFOp q f a.val n).2)
        notes x node w r e v s (.cmpF q none) [a, b] (z b.val) ∧ notes x node w r e v s (.cmpF q (some y)) [a] (z (y.toNat % 2 ^ tyBits u)))) ∧
  (∀ (w a b : Nat), w ∈ [8, 16, 32, 64] → a < 2 ^ w → b < 2 ^ w →
      let x := (BitVec.ofNat w a).toInt
      let y := (BitVec.ofNat w b).toInt
      let cut (v : ℤ) : Nat := (BitVec.ofInt w v).toNat
      let hold (v : ℤ) : ℤ := max (-2 ^ (w - 1)) (min (2 ^ (w - 1) - 1) v)
      vintOp 0 w a b = (a + b) % 2 ^ w ∧ vintOp 1 w a b = cut ((a : ℤ) - b) ∧ vintOp 2 w a b = (a * b) % 2 ^ w ∧
      vintOp 3 w a b = cut (x * y / 2 ^ w) ∧ vintOp 4 w a b = a * b / 2 ^ w ∧
      vintOp 5 w a b = (BitVec.ofNat w a &&& BitVec.ofNat w b).toNat ∧ vintOp 6 w a b = (BitVec.ofNat w a ||| BitVec.ofNat w b).toNat ∧
      vintOp 7 w a b = (BitVec.ofNat w a ^^^ BitVec.ofNat w b).toNat ∧
      vintOp 8 w a b = a * 2 ^ (b % w) % 2 ^ w ∧ vintOp 9 w a b = a / 2 ^ (b % w) ∧ vintOp 10 w a b = cut (x / 2 ^ (b % w)) ∧
      vintOp 11 w a b = cut (min x y) ∧ vintOp 12 w a b = cut (max x y) ∧ vintOp 13 w a b = min a b ∧ vintOp 14 w a b = max a b ∧
      vintOp 15 w a b = cut (hold (x + y)) ∧ vintOp 16 w a b = min (a + b) (2 ^ w - 1) ∧
      vintOp 17 w a b = cut (hold (x - y)) ∧ vintOp 18 w a b = a - b ∧
      vintOp 19 w a b = cut |x| ∧ vintOp 20 w a b = cut (-x) ∧ vintOp 21 w a b = (~~~ BitVec.ofNat w a).toNat ∧
      vintOp 22 w a b = (List.range w).countP (fun i => a / 2 ^ i % 2 = 1) ∧
      (vintOp 23 w a b ≤ w ∧ a < 2 ^ (w - vintOp 23 w a b) ∧ (vintOp 23 w a b < w → 2 ^ (w - 1 - vintOp 23 w a b) ≤ a))) ∧
  ((∀ (w a b : Nat), w ∈ [8, 16, 32, 64] → a < 2 ^ w → b < 2 ^ w →
      let x := (BitVec.ofNat w a).toInt
      let y := (BitVec.ofNat w b).toInt
      (cmpIOp .eq w a b = true ↔ a = b) ∧ (cmpIOp .ne w a b = true ↔ a ≠ b) ∧ (cmpIOp .lt w a b = true ↔ x < y) ∧
      (cmpIOp .le w a b = true ↔ x ≤ y) ∧ (cmpIOp .gt w a b = true ↔ y < x) ∧ (cmpIOp .ge w a b = true ↔ y ≤ x) ∧
      (cmpIOp .ltu w a b = true ↔ a < b) ∧ (cmpIOp .leu w a b = true ↔ a ≤ b) ∧ (cmpIOp .gtu w a b = true ↔ b < a) ∧
      (cmpIOp .geu w a b = true ↔ b ≤ a)) ∧
    (∀ f ∈ [fmtF64, fmtF32, fmtF16, fmtBf16], ∀ (a b : Nat),
      let x := decodeF f a
      let y := decodeF f b
      let un := x.isNan = true ∨ y.isNan = true
      ((cmpFOp .eq f a b).1 = true ↔ ¬ un ∧ x.ext = y.ext) ∧ ((cmpFOp .ne f a b).1 = true ↔ un ∨ x.ext ≠ y.ext) ∧
      ((cmpFOp .lt f a b).1 = true ↔ ¬ un ∧ x.ext < y.ext) ∧ ((cmpFOp .le f a b).1 = true ↔ ¬ un ∧ x.ext ≤ y.ext) ∧
      ((cmpFOp .gt f a b).1 = true ↔ ¬ un ∧ y.ext < x.ext) ∧ ((cmpFOp .ge f a b).1 = true ↔ ¬ un ∧ y.ext ≤ x.ext) ∧
      ((cmpFOp .un f a b).1 = true ↔ un) ∧ ((cmpFOp .ord f a b).1 = true ↔ ¬ un) ∧
      ∀ q, (cmpFOp q f a b).2 = open Classical in
        if q ∈ [.lt, .le, .gt, .ge] then (if un then flNV else 0) else if x.isSnan = true ∨ y.isSnan = true then flNV else 0) ∧
    (∀ a < 2, ∀ b < 2, predOpE 0 a b = a * b ∧ predOpE 1 a b = max a b ∧ predOpE 2 a b = (a + b) % 2 ∧
      predOpE 3 a b = a * (1 - b) ∧ predOpE 4 a b = 1 - a ∧ predOpE 5 a b = 1 ∧ predOpE 6 a b = 0 ∧ predOpE 7 a b = a))

/-- R176, R195, R198, R200, R203 to R205, R207: on finite operands the members of VFP that compute, and the fused members with their negations,
give the exact result rounded once in the captured mode, in each of the four types of arithmetic; where VFEXP2 and VFLOG2 are not exact, the
rounding of a value within one part in 2^60 of theirs. A NaN gives the canonical NaN, with NV for a signalling one and the invalid
operations; an infinity, a division by zero and the sign of a zero sum or product. VFMIN, VFMAX, VFABS, VFNEG and VFSGNJ on every operand, and
the special values of the function members. Every pair of VCVT: low bits, sign extension or clamp; rounding to an integer with saturation;
rounding of an exact value; exact widening. A stochastic rounding takes the neighbour away from zero when the draw lies below the part of
the step that the value has gone, in units of 2^-32, and overflows where that neighbour, or the value itself, is beyond the largest. An
element of a waypoint is that of its sources in their order (one for the unary members), or of the low bits of the scalar that it captured, in
the mode and with the draw captured; its flags are noted at element and node, and are a fault there when a trap of theirs is enabled. -/
def Obligations.FloatElements : Prop :=
  (∀ (x : Strip) (node e : Nat) (w : Waypoint) (r : Res) (a b c : Elem) (v : Ev) (s : State) (t : Ty) (k : Nat) (y : Word),
      w.ty = some t → a.bad = false → b.bad = false → c.bad = false →
      let m := rmOf w.fpctl
      (∀ f, tyFmt t = some f →
        notes x node w r e v s (.vfp k none) [a, b] (vfpOp k f m a.val b.val) ∧
        (k ∈ [6, 7, 8, 9, 10, 11, 12, 14] → notes x node w r e v s (.vfp k none) [a] (vfpOp k f m a.val 0)) ∧
        notes x node w r e v s (.vfp k (some y)) [a] (vfpOp k f m a.val (y.toNat % 2 ^ tyBits t)) ∧
        notes x node w r e v s (.fma k) [a, b, c] (fusedOp k f m a.val b.val c.val)) ∧
      notes x node w r e v s (.cvt k) [a]
        (cvtOp k m (x.p.wpTy (w.srcs.headD 0)) t (draw w.rngkey x.t.sr.strandkey (w.draw.toNat + e)) a.val)) ∧
  (∀ f ∈ [fmtF64, fmtF32, fmtF16, fmtBf16], ∀ (m : RM) (a b : Nat),
    let x := decodeF f a
    let rounds (r : Nat × FFlags) (q : ℝ) : Prop := ∃ v : FVal, v.near q ∧ r = roundF f m false v
    (x.finite → |x.real| < 2 ^ 19 → (∀ n : ℤ, x.real ≠ n) →
      ∃ q : ℝ, |q - (2 : ℝ) ^ x.real| ≤ (2 : ℝ) ^ x.real / 2 ^ 60 ∧ rounds (vfpOp 11 f m a b) q) ∧
    (x.finite → 0 < x.real → (∀ n : ℤ, x.real ≠ (2 : ℝ) ^ n) →
      ∃ q : ℝ, |q - Real.logb 2 x.real| ≤ |Real.logb 2 x.real| / 2 ^ 60 ∧ rounds (vfpOp 12 f m a b) q)) ∧
  (∀ f ∈ [fmtF64, fmtF32, fmtF16, fmtBf16], ∀ (m : RM) (a b c : Nat),
    let x := decodeF f a
    let y := decodeF f b
    let z := decodeF f c
    let inf (n : Bool) : Nat := f.signBit n + f.infCode
    let sgn2 := x.neg != y.neg
    (∀ k ∈ [0, 1, 2, 3],
      let op (v : Nat) (fl : FFlags) : Prop := vfpOp k f m a b = (v, fl)
      let n := y.neg != (k == 1)
      (x.isNan = true ∨ y.isNan = true → op f.cnan (if x.isSnan = true ∨ y.isSnan = true then flNV else 0)) ∧
      (k ≤ 1 →
        (x.isInf = true → y.isInf = true → op (if x.neg = n then inf n else f.cnan) (if x.neg = n then 0 else flNV)) ∧
        (x.isInf = true → y.finite → op (inf x.neg) 0) ∧ (x.finite → y.isInf = true → op (inf n) 0) ∧
        (x.finite → y.finite → x.real + (if k = 1 then -y.real else y.real) = 0 →
          op (f.signBit (open Classical in if x.real = 0 ∧ x.neg = true ∧ n = true then true else m == .rdn)) 0)) ∧
      (k = 2 →
        (x.isInf = true → y.isInf = true → op (inf sgn2) 0) ∧
        (x.isInf = true ∧ y.finite ∧ y.real ≠ 0 ∨ y.isInf = true ∧ x.finite ∧ x.real ≠ 0 → op (inf sgn2) 0) ∧
        (x.isInf = true ∧ y.finite ∧ y.real = 0 ∨ y.isInf = true ∧ x.finite ∧ x.real = 0 → op f.cnan flNV) ∧
        (x.finite → y.finite → x.real * y.real = 0 → op (f.signBit sgn2) 0)) ∧
      (k = 3 →
        (x.isInf = true → y.isInf = true → op f.cnan flNV) ∧ (x.isInf = true → y.finite → op (inf sgn2) 0) ∧
        (x.finite → y.isInf = true → op (f.signBit sgn2) 0) ∧
        (x.finite → y.finite → y.real = 0 → op (open Classical in if x.real = 0 then f.cnan else inf sgn2)
          (open Classical in if x.real = 0 then flNV else flDZ)) ∧
        (x.finite → y.finite → x.real = 0 → y.real ≠ 0 → op (f.signBit sgn2) 0))) ∧
    (∀ k < 4,
      let op (v : Nat) (fl : FFlags) : Prop := fusedOp k f m a b c = (v, fl)
      let p := sgn2 != decide (2 ≤ k)
      let n := z.neg != (k % 2 == 1)
      let clash := x.isInf = true ∧ y.finite ∧ y.real = 0 ∨ y.isInf = true ∧ x.finite ∧ x.real = 0
      let snan := x.isSnan = true ∨ y.isSnan = true ∨ z.isSnan = true
      let nan := x.isNan = true ∨ y.isNan = true ∨ z.isNan = true
      let big := x.isInf = true ∨ y.isInf = true
      (clash ∨ snan → op f.cnan flNV) ∧ (nan → ¬ clash → ¬ snan → op f.cnan 0) ∧
      (¬ nan → ¬ clash → big → z.isInf = true → p ≠ n → op f.cnan flNV) ∧
      (¬ nan → ¬ clash → big → (z.isInf = true → p = n) → op (inf p) 0) ∧
      (x.finite → y.finite → z.isInf = true → op (inf n) 0) ∧
      (x.finite → y.finite → z.finite →
        (if 2 ≤ k then -(x.real * y.real) else x.real * y.real) + (if k % 2 = 1 then -z.real else z.real) = 0 →
        op (f.signBit (open Classical in if z.real = 0 ∧ p = true ∧ n = true then true else m == .rdn)) 0))) ∧
  (∀ f ∈ [fmtF64, fmtF32, fmtF16, fmtBf16], ∀ (m : RM) (a b c : Nat),
    let x := decodeF f a
    let y := decodeF f b
    let z := decodeF f c
    let rounds (r : Nat × FFlags) (q : ℝ) : Prop := ∃ v : FVal, v.near q ∧ r = roundF f m false v
    x.finite → y.finite →
    rounds (vfpOp 0 f m a b) (x.real + y.real) ∧ rounds (vfpOp 1 f m a b) (x.real - y.real) ∧
    rounds (vfpOp 2 f m a b) (x.real * y.real) ∧ (y.real ≠ 0 → rounds (vfpOp 3 f m a b) (x.real / y.real)) ∧
    (0 ≤ x.real → rounds (vfpOp 8 f m a b) (Real.sqrt x.real)) ∧ (x.real ≠ 0 → rounds (vfpOp 9 f m a b) (1 / x.real)) ∧
    (0 < x.real → rounds (vfpOp 10 f m a b) (1 / Real.sqrt x.real)) ∧
    (∀ n : ℤ, |n| < 2 ^ 19 → x.real = n → rounds (vfpOp 11 f m a b) ((2 : ℝ) ^ n)) ∧
    (∀ n : ℤ, x.real = (2 : ℝ) ^ n → rounds (vfpOp 12 f m a b) n) ∧
    (∃ n : ℤ, roundsTo m x.real n ∧ (decodeF f (vfpOp 14 f m a b).1).real = n ∧
      (decodeF f (vfpOp 14 f m a b).1).neg = x.neg ∧ (vfpOp 14 f m a b).2 = 0) ∧
    (z.finite →
      rounds (fusedOp 0 f m a b c) (x.real * y.real + z.real) ∧ rounds (fusedOp 1 f m a b c) (x.real * y.real - z.real) ∧
      rounds (fusedOp 2 f m a b c) (-(x.real * y.real) + z.real) ∧ rounds (fusedOp 3 f m a b c) (-(x.real * y.real) - z.real))) ∧
  (∀ f ∈ [fmtF64, fmtF32, fmtF16, fmtBf16], ∀ (m : RM) (a b : Nat), a < 2 ^ f.width → b < 2 ^ f.width →
    let x := decodeF f a
    let y := decodeF f b
    let top := 2 ^ (f.width - 1)
    let snan : FFlags := if x.isSnan = true ∨ y.isSnan = true then flNV else 0
    let own : FFlags := if x.isSnan = true then flNV else 0
    let inf (n : Bool) : Nat := f.signBit n + f.infCode
    let op (k : Nat) (v : Nat) (fl : FFlags) : Prop := vfpOp k f m a b = (v, fl)
    open Classical in
    let pick (wantFirst : Prop) : Nat :=
      if x.isNan = true ∧ y.isNan = true then f.cnan
      else if x.isNan = true then b else if y.isNan = true then a else if wantFirst then a else b
    op 4 (pick (x.ext < y.ext ∨ (x.ext = y.ext ∧ x.neg = true))) snan ∧
    op 5 (pick (y.ext < x.ext ∨ (x.ext = y.ext ∧ x.neg = false))) snan ∧
    op 6 (if x.isNan = true then f.cnan else a % top) 0 ∧
    op 7 (if x.isNan = true then f.cnan else (a + top) % 2 ^ f.width) 0 ∧
    op 13 (if x.isNan = true then f.cnan else a % top + b / top * top) 0 ∧
    (x.isNan = true → ∀ k ∈ [8, 9, 10, 11, 12, 14], op k f.cnan own) ∧
    (x.isInf = true → op 9 (f.signBit x.neg) 0 ∧ op 14 a 0 ∧
      (x.neg = true → op 8 f.cnan flNV ∧ op 10 f.cnan flNV ∧ op 11 0 0 ∧ op 12 f.cnan flNV) ∧
      (x.neg = false → op 8 a 0 ∧ op 10 0 0 ∧ op 11 a 0 ∧ op 12 a 0)) ∧
    (x.finite → x.real = 0 → op 9 (inf x.neg) flDZ ∧ op 10 (inf x.neg) flDZ ∧ op 12 (inf true) flDZ) ∧
    (x.finite → x.real < 0 → op 8 f.cnan flNV ∧ op 10 f.cnan flNV ∧ op 12 f.cnan flNV)) ∧
  (∀ (k : Nat) (u t : Ty) (m : RM) (w c : Nat), cvtOk k u t = true → c < 2 ^ tyBits u →
    let r := cvtOp k m u t w c
    let n := tyBits t
    let lo : ℤ := -(2 ^ (n - 1))
    let hi : ℤ := 2 ^ (n - 1) - 1
    let i := (BitVec.ofNat (tyBits u) c).toInt
    let put (j : ℤ) : Nat := (BitVec.ofInt n j).toNat
    let placed (g : Fmt) (v : FVal) : Prop :=
      (k = 0 ∨ k = 4 → r = roundF g m false v) ∧ (k = 1 ∨ k = 5 → r = stochRound g false w v) ∧
      (k = 2 → r = roundF g .rtz false v) ∧ (k = 3 → r = roundF g .rne true v)
    (u ∈ intTypes → t ∈ intTypes → r = (put (if k = 3 then max lo (min hi i) else i), 0)) ∧
    (∀ f, tyFmt u = some f → t ∈ intTypes →
      let x := decodeF f c
      let mode := if k = 2 then .rtz else if k = 3 then .rne else m
      (x.isNan = true → r = (0, flNV)) ∧ (x.isInf = true → r = (put (if x.neg = true then lo else hi), flNV)) ∧
      (x.finite → ∃ j : ℤ, roundsTo mode x.real j ∧
        (j < lo → r = (put lo, flNV)) ∧ (hi < j → r = (put hi, flNV)) ∧
        (lo ≤ j → j ≤ hi → r = (put j, open Classical in if x.real = j then 0 else flNX)))) ∧
    (∀ g, tyFmt t = some g → u ∈ intTypes → ∃ v : FVal, v.finite ∧ v.real = i ∧ placed g v) ∧
    (∀ f g, tyFmt u = some f → tyFmt t = some g → n < tyBits u → placed g (decodeF f c)) ∧
    (∀ f g, tyFmt u = some f → tyFmt t = some g → tyBits u < n →
      let x := decodeF f c
      (x.isNan = true → r = (g.cnan, if x.isSnan = true then flNV else 0)) ∧
      (x.isInf = true → r = (g.signBit x.neg + g.infCode, 0)) ∧
      (x.finite → r.2 = 0 ∧ (decodeF g r.1).finite ∧ (decodeF g r.1).real = x.real ∧ (decodeF g r.1).neg = x.neg))) ∧
  (∀ g ∈ [fmtF64, fmtF32, fmtF16, fmtBf16, fmtE4m3, fmtE5m2, fmtE2m1], ∀ (v : FVal) (w : Nat), v.finite → w < 2 ^ 32 →
    let near := roundF g .rtz false v
    let far := roundF g (if v.neg then .rdn else .rup) false v
    let p : ℝ := (|v.real| - |(decodeF g near.1).real|) / (|(decodeF g far.1).real| - |(decodeF g near.1).real|)
    let most := (roundF g .rtz false (.num v.neg 1 4000 false)).1
    let past := (roundF g .rne false (.num v.neg 1 4000 false)).1
    let top : ℝ := |(decodeF g most).real|
    let step : ℝ := top - |(decodeF g (most - 1)).real|
    (far.2 &&& flOF = 0 →
      stochRound g false w v = open Classical in if near.1 ≠ far.1 ∧ (w : ℤ) < ⌊p * 2 ^ 32⌋ then far else near) ∧
    (far.2 &&& flOF ≠ 0 → stochRound g false w v = open Classical in
      if top + step ≤ |v.real| ∨ (w : ℤ) < ⌊(|v.real| - top) / step * 2 ^ 32⌋ then (past, flOF ||| flNX) else (most, flNX)))

/-- R148, R152, R165, R191, R196, R199, R207 to R210, R214, R219 to R223: what the other members give at an element. A move and VREINT keep the bits,
a broadcast and VIDX compute from their scalars, VSEL chooses by the mask, VRAND and VRANDF draw at their index, VSLIDE and VPERM read within
the permute window of the element and give zero outside it and outside the tile, VSCANSUM carries its sum along the row, and a row result gives
every element of a row what its slot holds for that row. Padding of a source or
the mask makes an element padding, and an element whose mask is 0 is inactive and takes zero or what VD named before issue. Over a strip a
waypoint evaluates its elements one after another, each so: padding of a tile or a compressed tensor, settled by its streams, or computed; and
the nodes of a pass are evaluated in their order, a segment load's fields together, each from the results of those before it. -/
def Obligations.MoveElements : Prop :=
  (∀ (x : Strip) (node e : Nat) (w : Waypoint) (r : Res) (a b c : Elem) (v : Ev) (s : State) (t : Ty),
      w.ty = some t → t ∈ intTypes ++ floatTypes → a.bad = false → b.bad = false →
      let gives (op : WOp) (ss : List Elem) (n : Nat) : Prop :=
        evalElem x node { w with op := op } r e ss v s = (.ok (Elem.ok n, v), s)
      let drawn := draw w.rngkey x.t.sr.strandkey (w.draw.toNat + e)
      gives .mov [a] a.val ∧ gives .reint [a] a.val ∧
      (∀ y : Word, gives (.bcast y) [] (y.toNat % 2 ^ tyBits t)) ∧
      (c.bad = false → gives .sel [a, b, c] (if c.val = 1 then a.val else b.val)) ∧
      (∀ st step : ℤ, gives (.idx st step) [] (BitVec.ofInt 32 (st + e * step)).toNat) ∧
      gives .rand [] drawn ∧
      (∀ slot made : Nat, gives (.rowres slot made) [] (((afind x.t.rows slot).getD []).getD (e / x.p.vl) 0)) ∧
      (∃ n, gives .randf [] n ∧ (decodeF fmtF32 n).finite ∧ (decodeF fmtF32 n).neg = false ∧
        (decodeF fmtF32 n).real = ((drawn / 2 ^ 8 : Nat) : ℝ) / 2 ^ 24) ∧
      (∀ (src ix : Nat) (k : ℤ), x.lo % 8 = 0 → x.lo ≤ e → e < x.hi → x.hi ≤ x.n → (x.hi % 8 = 0 ∨ x.hi = x.n) →
        (∀ q < x.hi - x.lo, (r.at src q).bad = false) →
        let w1 := { w with srcs := [src, ix] }
        let slid (op : WOp) (ss : List Elem) (n : Nat) : Prop :=
          evalElem x node { w1 with op := op } r e ss v s = (.ok (Elem.ok n, v), s)
        let read (q : ℤ) : Nat :=
          if q < 0 ∨ (x.n : ℤ) ≤ q ∨ q / 8 ≠ (e : ℤ) / 8 then 0
          else let u := r.at src (q.toNat - x.lo); if u.pad then 0 else u.val
        slid (.slide k) [a] (read (e - k)) ∧
        (x.p.wpTy ix = .i32 ∨ x.p.wpTy ix = .i64 →
          let i := (BitVec.ofNat (tyBits (x.p.wpTy ix)) b.val).toInt
          slid .perm [a, b] (if 0 ≤ i ∧ i ≤ 7 then read (8 * (e / 8 : Nat) + i) else 0))) ∧
      (let row := e / x.p.vl
       let acc := afind (partOf v.parts w.id).accs row
       ∃ v' n p, evalElem x node { w with op := .scan } r e [a] v s = (.ok (Elem.ok n, v'), s) ∧
         afind (partOf v'.parts w.id).accs row = some p ∧
         (match tyFmt t with
          | none => (acc = none → p = a.val) ∧ (∀ y, acc = some y → p = (y + a.val) % 2 ^ tyBits t) ∧ n = p ∧ v'.fl = v.fl
          | some f => (acc = none → p = a.val) ∧
              (∀ y, acc = some y → p = (addF f (rmOf w.fpctl) (decodeF f y) (decodeF f a.val)).1) ∧
              n = if (decodeF f p).isNan = true then f.cnan else p))) ∧
  (∀ (w : Waypoint) (r : Res) (i : Nat),
      let at_ (k : Nat) := r.at k i
      ((∃ k ∈ w.srcs ++ w.mask.toList, (at_ k).pad = true) → gateOf w r i = .settled .padding) ∧
      ((∀ k ∈ w.srcs ++ w.mask.toList, (at_ k).pad = false) →
        (w.mask = none → gateOf w r i = .active (w.srcs.map at_)) ∧
        (∀ m, w.mask = some m → (at_ m).bad = false →
          ((at_ m).val ≠ 0 → gateOf w r i = .active (w.srcs.map at_)) ∧
          ((at_ m).val = 0 → w.old = none → gateOf w r i = .settled (Elem.off 0 false)) ∧
          ((at_ m).val = 0 → ∀ o, w.old = some o →
            gateOf w r i = .settled (Elem.off (if (at_ o).pad then 0 else (at_ o).val) (at_ o).bad))))) ∧
  (∀ (x : Strip) (node : Nat) (w : Waypoint) (r : Res) (v v' : Ev) (s s' : State) (es : Array Elem),
      evalWp x node w r v s = (.ok (es, v'), s') → (w.op = .scan → ∀ a ∈ es, a.bad = false) →
      es.size = x.hi - x.lo ∧ ∃ st : Nat → Ev × State, st 0 = (v, s) ∧ st es.size = (v', s') ∧ ∀ i < es.size,
        (tilePad x w (x.lo + i) = true → es[i]? = some Elem.padding ∧ st (i + 1) = st i) ∧
        (tilePad x w (x.lo + i) = false →
          (∀ u, gateOf w r i = .settled u → es[i]? = some u ∧ st (i + 1) = st i) ∧
          (∀ ss, gateOf w r i = .active ss → ∃ a v1, es[i]? = some a ∧
            evalElem x node w r (x.lo + i) ss (st i).1 (st i).2 = (.ok (a, v1), (st (i + 1)).2) ∧
            (st (i + 1)).1 = { v1 with stats := (st (i + 1)).1.stats }))) ∧
  (∀ (x : Strip) (w : Waypoint) (e : Nat),
      (∀ row0 col0 tid t, w.op = .vldtd row0 col0 tid t →
        let d := x.p.desc tid
        let tr := row0 + (e / x.p.vl : Nat)
        let tc := col0 + (e % x.p.vl : Nat)
        (tilePad x w e = true ↔ tr < 0 ∨ (d.rows : ℤ) ≤ tr ∨ tc < 0 ∨ (d.cols : ℤ) ≤ tc)) ∧
      (∀ tid j0 t, w.op = .vldz tid j0 t →
        (tilePad x w e = true ↔ (x.p.desc tid).rows * (x.p.desc tid).cols ≤ j0 * (x.p.desc tid).ce + e)) ∧
      ((∀ row0 col0 tid t, w.op ≠ .vldtd row0 col0 tid t) → (∀ tid j0 t, w.op ≠ .vldz tid j0 t) → tilePad x w e = false)) ∧
  (∀ (x : Strip) (ns : List Node) (r : Res) (v v1 : Ev) (s s1 : State),
      let all : Nat → Bool := fun _ => true
      evalNodes x all [] v s = (.ok ([], v), s) ∧
      (evalNodes x all ns v s = (.ok (r, v1), s1) → ∀ k, evalNodes x all (ns ++ [.sink k]) v s = (.ok (r, v1), s1)) ∧
      (∀ (w z : Waypoint) (more : List Waypoint) (es : Array Elem) (v2 : Ev) (s2 : State),
        (evalNodes x all ns v s = (.ok (r, v1), s1) → evalWp x w.id w r v1 s1 = (.ok (es, v2), s2) →
          evalNodes x all (ns ++ [.wp w []]) v s = (.ok ((w.id, es) :: r, v2), s2)) ∧
        (evalNodes x all (ns ++ [.wp w more]) v s = (.ok (r, v1), s1) → evalWp x w.id z r v1 s1 = (.ok (es, v2), s2) →
          evalNodes x all (ns ++ [.wp w (more ++ [z])]) v s = (.ok ((z.id, es) :: r, v2), s2))) ∧
      (∀ (k j i : Nat) (es : Array Elem), Res.at ((k, es) :: r) k i = es.getD i Elem.lost ∧
        (j ≠ k → Res.at ((k, es) :: r) j i = r.at j i)))

namespace Sys2Proof.Machine

/-- R132: the stream element that a code of a type in memory becomes. -/
def becomes (t : Ty) (c n : Nat) : Prop :=
  let same (f : Fmt) : Prop := n < 2 ^ 16 ∧ (decodeF fmtF16 n).finite ∧ (decodeF fmtF16 n).real = (decodeF f c).real ∧
    (decodeF fmtF16 n).neg = (decodeF f c).neg
  match t with
  | .e4m3 => if c % 128 = 127 then n = 0x7E00 else same fmtE4m3
  | .e2m1 => same fmtE2m1
  | .e5m2 => n = c * 256
  | _ => n = c

/-- R138: the byte, and its nibble, that lies `bytes` bytes and `k` elements from a base. -/
def placeOf (t : Ty) (base : Word) (bytes k : ℤ) : Word × Nat :=
  if tyBits t = 4 then (base + BitVec.ofInt 64 ((2 * bytes + k) / 2), ((2 * bytes + k) % 2).toNat)
  else (base + BitVec.ofInt 64 (bytes + k * (tyBits t / 8 : Nat)), 0)

end Sys2Proof.Machine

/-- R54, R86, R87, R89, R132, R133, R138, R142 to R147, R179: each form of a load reads its element at the stated address and decodes it as the
table says; a fault of the access is the element's fault. An element that is broadcast is read once. A gather takes its index as signed, reads at
the memory-side cache, and one outside the tensor is a descriptor fault with EVA the index; a tile's or a compressed tensor's element outside
the tensor is padding, and nothing is read. VLDZ reads and decodes each chunk once: its lengths, its stream (here stored blocks and the
literals of the fixed code, with details 3, 4, 6, 7 and 10), its CRC; the element is found in it. The value of a Chanter code is that of its
header's selector, and it becomes f32 by one rounding to the nearest even, exact where f32 holds it.
That EVA of poisoned data is rounded down to 4 bytes is the model's reading: log entry 90; for which element an access that several share is
made is log entry 74. -/
def Obligations.LoadedElements : Prop :=
  (∀ (x : Strip) (node e : Nat) (w : Waypoint) (r : Res) (v : Ev) (s : State) (t : Ty), t ≠ .ch4 → t ≠ .ch8 →
      let col := e % x.p.vl
      let row := e / x.p.vl
      let n := max 1 (tyBits t / 8)
      let code (raw nib : Nat) : Nat := if tyBits t = 4 then raw / 16 ^ nib % 16 else raw
      let from_ (rd : M Nat) (sh : Option Nat → List Shared) (nib : Nat) (op : WOp) (ss : List Elem) : Prop :=
        ∀ q u, rd s = (q, u) →
          (∀ raw, q = .ok raw → ∃ v' y, evalElem x node { w with op := op } r e ss v s = (.ok (Elem.ok y, v'), u) ∧
            becomes t (code raw nib) y ∧ v'.best = v.best ∧ v'.fl = v.fl ∧ v'.shared = sh (some raw)) ∧
          (∀ c d a, q = .error (.trap c d a) →
            ∃ v', evalElem x node { w with op := op } r e ss v s = (.ok (Elem.lost, v'), u) ∧ v'.shared = sh none ∧
              (v.best = none → v'.best = some ⟨e, node, c, d, a, w.pc, 0⟩))
      let reads (op : WOp) (at_ : Word × Nat) : Prop := from_ (loadAt (x.who e) at_.1 n) (fun _ => v.shared) at_.2 op []
      let shares (op : WOp) (at_ : Word × Nat) (i : Nat) : Prop :=
        let held := v.shared.find? fun u => u.node == node && u.idx == i
        (held = none → from_ (loadAt (x.who e) at_.1 n) (fun o => ⟨node, i, o⟩ :: v.shared) at_.2 op []) ∧
        (∀ raw, held = some ⟨node, i, some raw⟩ → ∃ v' y, evalElem x node { w with op := op } r e [] v s = (.ok (Elem.ok y, v'), s) ∧
          becomes t (code raw at_.2) y ∧ v'.best = v.best ∧ v'.fl = v.fl) ∧
        (held = some ⟨node, i, none⟩ → ∃ v', evalElem x node { w with op := op } r e [] v s = (.ok (Elem.lost, v'), s) ∧
          v'.best = v.best)
      (∀ (base b : Word) (c f : Nat), 2 ≤ c → c ≤ 8 →
        reads (.vld 0 0 base t) (placeOf t base 0 e) ∧ reads (.vld 1 0 base t) (placeOf t base 0 e) ∧
        reads (.vld c f base t) (placeOf t base 0 (e * c + f : Nat)) ∧
        shares (.vld 9 0 base t) (placeOf t base 0 row) row ∧ shares (.vld 10 0 base t) (placeOf t base 0 col) col ∧
        reads (.vlds base b t)
          (if tyBits t = 4 then placeOf t base 0 (e * b.toInt) else placeOf t base (e * b.toInt) 0) ∧
        reads (.vldt base b t) (placeOf t base (row * b.toInt) col)) ∧
      (∀ (tid : Nat) (row0 col0 : ℤ) (a : Elem), (x.p.desc tid).bits = tyBits t → a.bad = false →
        let d := x.p.desc tid
        let i := (BitVec.ofNat (tyBits (x.p.wpTy (w.srcs.headD 0))) a.val).toInt
        let there (rw cl : Nat) := placeOf t 0 (d.elembase + rw * d.pitch) cl
        (0 ≤ row0 + row → 0 ≤ col0 + col →
          reads (.vldtd row0 col0 tid t) (there (row0 + row).toNat (col0 + col).toNat)) ∧
        (0 ≤ i → i < (d.rows * d.cols : ℤ) →
          let p := there (i.toNat / d.cols) (i.toNat % d.cols)
          from_ (bywayRead (x.who e) p.1 n) (fun _ => v.shared) p.2 (.vldx tid t) [a])) ∧
      (∀ tid j0 : Nat, 0 < (x.p.desc tid).ce → (x.p.desc tid).bits = tyBits t →
        let d := x.p.desc tid
        let j := (j0 * d.ce + e) / d.ce
        let k := (j0 * d.ce + e) % d.ce
        let pick (bs : List Byte) : Nat :=
          if tyBits t = 4 then leNat ((bs.drop (k / 2)).take 1) / 16 ^ (k % 2) % 16 else leNat ((bs.drop (k * n)).take n)
        let out := evalElem x node { w with op := .vldz tid j0 t } r e [] v s
        let held := v.chunks.find? fun c => c.node = node ∧ c.j = j
        (held = none → ∀ q u, readChunk (x.who e) n d j s = (q, u) →
          (∀ bs good k, q = .ok (bs, good, k) → ∃ v' y, out = (.ok (Elem.ok y, v'), u) ∧ becomes t (pick bs) y ∧ v'.best = v.best ∧
            v'.chunks = ⟨node, j, d.slotAddr j, bs, good, e⟩ :: v.chunks) ∧
          (∀ c k a, q = .error (.trap c k a) → ∃ v', out = (.ok (Elem.lost, v'), u) ∧
            (v.best = none → v'.best = some ⟨e, node, c, k, a, w.pc, 0⟩))) ∧
        (∀ c, held = some c → ∃ v' y, out = (.ok (Elem.ok y, v'), s) ∧ becomes t (pick c.data) y ∧ v'.best = v.best))) ∧
  (∀ (x : Strip) (node tid j0 : Nat) (row0 col0 : ℤ) (w : Waypoint) (r : Res) (v : Ev) (s : State) (t : Ty), x.hi = x.lo + 1 →
      let d := x.p.desc tid
      let tr := row0 + (x.lo / x.p.vl : Nat)
      let tc := col0 + (x.lo % x.p.vl : Nat)
      let pads (op : WOp) (out : Prop) : Prop :=
        (out → evalWp x node { w with op := op } r v s = (.ok (#[Elem.padding], v), s)) ∧
        (¬ out → ∀ ss y v' u, gateOf { w with op := op } r 0 = .active ss → w.id ≠ node →
          evalElem x node { w with op := op } r x.lo ss v s = (.ok (y, v'), u) →
          evalWp x node { w with op := op } r v s = (.ok (#[y], v'), u))
      pads (.vldtd row0 col0 tid t) (tr < 0 ∨ (d.rows : ℤ) ≤ tr ∨ tc < 0 ∨ (d.cols : ℤ) ≤ tc) ∧
      pads (.vldz tid j0 t) (d.rows * d.cols ≤ j0 * d.ce + x.lo)) ∧
  (∀ (s : State) (w : Who) (va : Word) (n : Nat), ∀ q t, translate w .load va n s = (q, t) →
      (∀ e, q = .error e → bywayRead w va n s = (.error e, t)) ∧
      (∀ pa ten, q = .ok (.hbm pa ten) →
        let u := t.cleanLines w.cluster fun y => y == pa / 64
        bywayRead w va n s = if u.linePoison (pa / 64) then (.error (.trap 0x13 0 (wd (va.toNat / 4 * 4))), u)
          else (.ok (leNat (u.devRead ten pa n)), u))) ∧
  (∀ (s s1 : State) (w : Who) (n j : Nat) (d : Desc) (h : List Byte), readSpan w n (d.slotAddr j) 16 2 s = (.ok h, s1) →
      let clen := leNat (h.take 4)
      let ulen := leNat ((h.drop 4).take 4)
      let bad : Prop := d.slot < clen + 16 ∨ ulen ≠ (min d.ce (d.rows * d.cols - j * d.ce) * d.bits + 7) / 8
      (bad → readChunk w n d j s = (.error (.trap 0x11 10 (d.slotAddr j)), s1)) ∧
      (¬ bad → ∀ data s2, readSpan w n (d.slotAddr j + 16) clen (clen / 64 + 2) s1 = (.ok data, s2) →
        (∀ k, inflate data ulen = .error k → readChunk w n d j s = (.error (.trap 0x11 k (d.slotAddr j)), s2)) ∧
        ∀ bs, inflate data ulen = .ok bs →
          readChunk w n d j s = (.ok (bs, crc64 bs == leNat (h.drop 8), clen + 16), s2))) ∧
  (∀ (bs data : List Byte) (rest : List Bool),
      let len (k : Nat) : List Byte := [BitVec.ofNat 8 k, BitVec.ofNat 8 (k / 256)]
      let literal (b : Byte) : List Bool :=
        let c := if b.toNat < 144 then (8, 0x30 + b.toNat) else (9, 0x190 + (b.toNat - 144))
        (List.range c.1).map fun i => c.2.testBit (c.1 - 1 - i)
      (bs.length < 2 ^ 16 → inflate ([1] ++ len bs.length ++ len (65535 - bs.length) ++ bs ++ data) bs.length = .ok bs) ∧
      (∀ k m ulen : Nat, k < 2 ^ 16 → m < 2 ^ 16 → k + m ≠ 65535 → inflate ([1] ++ len k ++ len m ++ data) ulen = .error 4) ∧
      (∀ ulen, inflate (7 :: data) ulen = .error 3 ∧ inflate [] ulen = .error 7) ∧
      (bitsOf data = [true, true, false] ++ bs.flatMap literal ++ List.replicate 7 false ++ rest →
        inflate data bs.length = .ok bs ∧ ∀ ulen, bs.length < ulen → inflate data ulen = .error 6)) ∧
  (∀ (x : Strip) (node e tid : Nat) (w : Waypoint) (r : Res) (v : Ev) (s : State) (t : Ty) (a : Elem), a.bad = false →
      let d := x.p.desc tid
      let i := (BitVec.ofNat (tyBits (x.p.wpTy (w.srcs.headD 0))) a.val).toInt
      (i < 0 ∨ (d.rows * d.cols : ℤ) ≤ i → ∃ v', evalElem x node { w with op := .vldx tid t } r e [a] v s = (.ok (Elem.lost, v'), s) ∧
        (v.best = none → v'.best = some ⟨e, node, 0x0F, 0, BitVec.ofInt 64 i, w.pc, 0⟩))) ∧
  (∀ (w h code level : Nat), (w = 4 ∨ w = 8) → code < 2 ^ w →
      let e : ℤ := (h / 2 ^ 22 % 2 ^ 8 : Nat)
      let eb : ℤ := (h / 2 ^ 14 % 2 ^ 8 : Nat)
      let y := chanterVal w h code level
      let m := code % 2 ^ (w - 2)
      let grid := decodeF (if w = 4 then fmtE2m1 else fmtE4m3) code
      (h / 2 ^ 30 % 4 = 0 → y.finite ∧ y.real = (BitVec.ofNat w code).toInt * (2 : ℝ) ^ (e - 127)) ∧
      (h / 2 ^ 30 % 4 = 1 → y.finite ∧ (y.neg = true ↔ code / 2 ^ (w - 2) % 2 = 1) ∧
        y.real = (if code / 2 ^ (w - 2) % 2 = 1 then -1 else 1) * (m : ℝ) *
          (2 : ℝ) ^ ((if code / 2 ^ (w - 1) % 2 = 0 then e else eb) - 127)) ∧
      (h / 2 ^ 30 % 4 = 2 → grid.finite → y.finite ∧ y.neg = grid.neg ∧ y.real = grid.real * (2 : ℝ) ^ (e - 127)) ∧
      (h / 2 ^ 30 % 4 = 2 → grid.isNan = true → roundF fmtF32 .rne false y = (0x7FC00000, 0)) ∧
      (h / 2 ^ 30 % 4 = 3 → (decodeF fmtBf16 level).finite →
        y.finite ∧ y.real = (decodeF fmtBf16 level).real * (2 : ℝ) ^ (e - 127))) ∧
  (∀ (x : Strip) (w : Waypoint) (node e tid row col h c : Nat) (d : Desc) (ls : List Nat) (code : E (Option Nat)) (v : Ev)
      (fl : List (Nat × Nat × FFlags)) (s s1 s2 s3 : State),
      let ha := d.hdrAddr row (col / 32)
      loadAt (x.who e) ha 4 s = (.ok h, s1) → checkHeader (deskWho x.t x.p) d tid h ha s1 = (.ok ls, s2) →
      (∀ v0 : Ev, v0.best = v.best → v0.fl = v.fl → ∃ v1, code v0 s2 = (.ok (some c, v1), s3) ∧ v1.fl = fl) →
      let z := roundF fmtF32 .rne false (chanterVal d.bits h c (ls.getD c 0))
      ∃ v', chanterElem x w node e d tid row col code v s = (.ok (Elem.ok z.1, v'), s3) ∧
        v'.fl = (if z.2 = 0 then fl else (e, node, z.2) :: fl))

/-! ### Sinks and passes -/

namespace Sys2Proof.Machine

/-- A sink with the captures of R136, in the queue's order. -/
def State.sinkOf (s : State) (major : Nat) (op : SOp) (ty : Option Ty) (data : List Nat) (idx mask : Option Nat) : Sink :=
  { id := s.st.nextWp, pc := s.st.pc, major := major, op := op, ty := ty, vl := s.st.sr.vl, vrows := s.st.sr.vrows, data := data,
    idx := idx, mask := mask, vpol := s.st.sr.vpol, fpctl := s.st.sr.fpctl, draw := s.st.sr.draw, rngkey := s.st.sr.rngkey,
    mark := s.st.mark }

/-- The queue takes a sink without a force of its own (R150, R220): it has room, its sinks are of the present shape, and no row
result that is still queued is reached. -/
def State.queueFits (s : State) (roots : List Nat) : Prop :=
  s.st.queue.length < 8 ∧ (∀ k ∈ s.st.queue, k.vl = s.st.sr.vl ∧ k.vrows = s.st.sr.vrows) ∧ reachesQueuedRow s.st roots = false

/-- The strand with a sink at the end of its queue; with `draws` DRAW moves on (R191). -/
def State.queued (s : State) (k : Sink) (draws : Bool) : State :=
  { s with st := { s.st with
      queue := s.st.queue ++ [k]
      nextWp := s.st.nextWp + 1
      sr := if draws then { s.st.sr with draw := s.st.sr.draw + wd (s.st.sr.vl * s.st.sr.vrows) } else s.st.sr } }

/-- What a sink does when it issues (R150, R153, R154, R220): `join t u` says that u is t with it at the end of the queue. It joins as the queue
stands, or, where it does not fit, after a force; until that force can be made the instruction waits as the strand was, and after it for a
length that is then unsettled or a register that is then pending, with the queue forced. With Q = 1 it stays queued; with Q = 0, while fewer than two
passes are in flight, the queue with it is forced as well, and else the instruction waits, the sink not queued. Then PC advances, and what is no
longer referenced is reclaimed. -/
def State.joins (s : State) (roots : List Nat) (regs : List Reg) (i : Bool → Instr) (join : State → State → Prop) : Prop :=
  let many (t : State) : Nat := (t.st.passes.filter Pass.inFlight).length
  let ends (t : State) : State := ({ t with st := t.st.reclaim } : State).stepped
  let from_ (t : State) : Prop := ∃ u, join t u ∧ exec (i true) s = .next (ends u) ∧
    (many t < 2 →
      (∀ v, forceQueue u = (.ok (), v) → exec (i false) s = .next (ends v)) ∧
      (∀ v, forceQueue u = (.error .wait, v) → exec (i false) s = .next { v with st := t.st })) ∧
    (2 ≤ many t → exec (i false) s = .next t)
  (s.queueFits roots → from_ s) ∧
  (¬ s.queueFits roots →
    (2 ≤ many s → ∀ q, exec (i q) s = .next s) ∧
    (∀ t, force s = (.error .wait, t) → t.st = s.st ∧ ∀ q, exec (i q) s = .next t) ∧
    ∀ t, force s = (.ok (), t) →
      let waits : Prop := t.unsettled = true ∨ ∃ r ∈ regs, t.pending r = true
      (waits → ∀ q, exec (i q) s = .next t) ∧ (¬ waits → from_ t))

/-- A sink of the captures `k` that joins so; with `draws` DRAW moves on (R191). -/
def State.sinks (s : State) (roots : List Nat) (regs : List Reg) (i : Bool → Instr) (k : Sink) (draws : Bool) : Prop :=
  s.joins roots regs i fun t u => u = t.queued { k with id := t.st.nextWp } draws

end Sys2Proof.Machine

/-- R138, R144, R150, R220, R247, R251 to R257, R332: every store of the way back issues as a sink that holds its data stream, its addresses or its
descriptor's number as captured; VSTC draws under VPOL.QRND; VSTCMP will write its count to S[B]. Where the queue holds 8 sinks, one of another shape, or a row
sink that the store reaches, the queue is forced first. A data stream of another type, an index
stream that is not i32 or i64 and a VSTXADD of a type of 8 bits or less that is no integer's are stream faults with EVA the word; a base, stride
or pitch that is no multiple of the element size one with EVA that value; a tensor register with a bit above bit 11 a descriptor fault with
EVA the register; a VSTXADD of any floating-point type under DETERM raises cause 0x0C, before every one of these.
That S[A] is taken before S[B] when both are misaligned is the model's choice: log entry 78; so is that a stream fault of the data comes before
one of a misaligned register: log entry 102. -/
def Obligations.VectorStoreIssue : Prop :=
  ∀ (s : State) (vs a b : Reg) (m : Mask) (t : Ty) (x y : Waypoint) (mk : Option Nat),
    let whole (v : Word) : Prop := v.toNat % max 1 (tyBits t / 8) = 0
    let row (v : Word) : ℤ := (BitVec.ofNat 32 v.toNat).toInt
    let col (v : Word) : ℤ := (BitVec.ofNat 32 (v.toNat / 2 ^ 32)).toInt
    let det := s.st.sr.determ.toNat % 2
    s.named false vs x → s.maskIs m mk →
    (∀ q : Bool,
      let direct := [Instr.vsts vs a b q m t, .vstt vs a b q m t]
      let based := [Instr.vst vs a q m t, .vstcmp vs a b q m t]
      let fault (i : Instr) (c : Nat) : Prop := ∀ w, encode i = some w → exec i s = .next (s.trapped c 0 (w.setWidth 64))
      s.mayIssue [a, b] →
      (x.ty ≠ some t → (∀ i ∈ direct ++ based ++ [.vsttd vs a b q m t, .vstx vs a b q m t], fault i 8) ∧
        (det = 0 → fault (.vstxadd vs a b q m t) 8)) ∧
      (x.ty ≠ some .f16 → x.ty ≠ some .bf16 → x.ty ≠ some .f32 → fault (.vstc vs a b q m t) 8) ∧
      (x.ty = some t →
        (¬ whole (s.reg a) → ∀ i ∈ direct ++ based, exec i s = .next (s.trapped 8 0 (s.reg a))) ∧
        (whole (s.reg a) → ¬ whole (s.reg b) → ∀ i ∈ direct, exec i s = .next (s.trapped 8 0 (s.reg b)))) ∧
      (2 ^ 12 ≤ (s.reg b).toNat →
        (x.ty = some t → exec (.vsttd vs a b q m t) s = .next (s.trapped 0x0F 0 (s.reg b))) ∧
        (x.ty = some .f16 ∨ x.ty = some .bf16 ∨ x.ty = some .f32 →
          exec (.vstc vs a b q m t) s = .next (s.trapped 0x0F 0 (s.reg b)))) ∧
      (t ∈ floatTypes ++ [.e4m3, .e5m2, .e2m1] → det = 1 → fault (.vstxadd vs a b q m t) 0x0C) ∧
      (t ∈ [.e4m3, .e5m2, .e2m1] → det = 0 → fault (.vstxadd vs a b q m t) 8) ∧
      (s.named false b y → y.ty ≠ some .i32 → y.ty ≠ some .i64 → fault (.vstx vs a b q m t) 8 ∧
        (t ∈ intTypes ∨ det = 0 → fault (.vstxadd vs a b q m t) 8)) ∧
      (x.ty = some t → s.named false b y → (y.ty = some .i32 ∨ y.ty = some .i64) → 2 ^ 12 ≤ (s.reg a).toNat →
        exec (.vstx vs a b q m t) s = .next (s.trapped 0x0F 0 (s.reg a)) ∧
        (t ∈ intTypes ∨ (t ∈ floatTypes ∧ det = 0) → exec (.vstxadd vs a b q m t) s = .next (s.trapped 0x0F 0 (s.reg a)))) ∧
      (∀ zs : List Waypoint, zs.length = b.val → (∀ f z, zs[f]? = some z → s.named false (regPlus vs f) z) →
        ((∃ z ∈ zs, z.ty ≠ some t) → fault (.vstSeg vs a b q m t) 8) ∧
        ((∀ z ∈ zs, z.ty = some t) → ¬ whole (s.reg a) → exec (.vstSeg vs a b q m t) s = .next (s.trapped 8 0 (s.reg a))))) ∧
    (x.ty = some t →
      let sinks := s.sinks ([x.id] ++ mk.toList)
      (s.mayIssue [a] → whole (s.reg a) →
        sinks [a] (fun q => .vst vs a q m t) (s.sinkOf 0x1C (.vst 1 (s.reg a)) (some t) [x.id] none mk) false) ∧
      (s.mayIssue [a, b] → whole (s.reg a) →
        sinks [a, b] (fun q => .vstcmp vs a b q m t) (s.sinkOf 0x23 (.vstcmp (s.reg a) b) (some t) [x.id] none mk) false ∧
        (whole (s.reg b) →
          sinks [a, b] (fun q => .vsts vs a b q m t) (s.sinkOf 0x1D (.vsts (s.reg a) (s.reg b)) (some t) [x.id] none mk) false ∧
          sinks [a, b] (fun q => .vstt vs a b q m t) (s.sinkOf 0x1E (.vstt (s.reg a) (s.reg b)) (some t) [x.id] none mk) false)) ∧
      (s.mayIssue [a, b] → (s.reg b).toNat < 2 ^ 12 →
        sinks [a, b] (fun q => .vsttd vs a b q m t)
          (s.sinkOf 0x21 (.vsttd (row (s.reg a)) (col (s.reg a)) (s.reg b).toNat) (some t) [x.id] none mk) false)) ∧
    ((x.ty = some .f16 ∨ x.ty = some .bf16 ∨ x.ty = some .f32) → s.mayIssue [a, b] → (s.reg b).toNat < 2 ^ 12 →
      s.sinks ([x.id] ++ mk.toList) [a, b] (fun q => .vstc vs a b q m t)
        (s.sinkOf 0x22 (.vstc (row (s.reg a)) (col (s.reg a)) (s.reg b).toNat) (some t) [x.id] none mk)
        (decide (s.st.sr.vpol.toNat / 4 % 2 = 1))) ∧
    (x.ty = some t → s.named false b y → (y.ty = some .i32 ∨ y.ty = some .i64) → s.mayIssue [a] → (s.reg a).toNat < 2 ^ 12 →
      let sinks := s.sinks ([x.id] ++ [y.id] ++ mk.toList) [a]
      sinks (fun q => .vstx vs a b q m t) (s.sinkOf 0x1F (.vstx (s.reg a).toNat) (some t) [x.id] (some y.id) mk) false ∧
      (t ∈ intTypes ∨ (t ∈ floatTypes ∧ det = 0) →
        sinks (fun q => .vstxadd vs a b q m t) (s.sinkOf 0x20 (.vstxadd (s.reg a).toNat) (some t) [x.id] (some y.id) mk) false)) ∧
    (∀ ids : List Nat, ids.length = b.val →
      (∀ f k, ids[f]? = some k → ∃ z, s.named false (regPlus vs f) z ∧ z.ty = some t ∧ z.id = k) →
      s.mayIssue [a] → whole (s.reg a) →
      s.sinks (ids ++ mk.toList) [a] (fun q => .vstSeg vs a b q m t) (s.sinkOf 0x1C (.vst b.val (s.reg a)) (some t) ids none mk) false)

/-- R131, R149, R150, R212, R213, R216 to R220: every member of VRED issues as a sink, queued or forced, after a force where the queue does not fit
it; the scalar ones will write S[d] when
their pass completes; the row ones bind VD at once to a row-result waypoint that holds a free row slot, or, when no waypoint or slot can be had,
wait for passes in flight that will free one, or trap with cause 0x09. A source of a type that the member does not take, more than 128 rows, or
under a mask and the undisturbed policy a VD that names a stream of another type or shape, is a stream fault; VREDSUMT under DETERM raises cause
0x0C. -/
def Obligations.ReductionIssue : Prop :=
  ∀ (s : State) (d va : Reg) (m : Mask) (x : Waypoint) (t : Ty) (mk : Option Nat), s.maskIs m mk →
    let red (k : Nat) : Sink := s.sinkOf 0x32 (.red k d) none [x.id] none mk
    let sinks := s.sinks ([x.id] ++ mk.toList) [d]
    (s.named false va x → x.ty = some t → s.mayIssue [d] →
      (t ∈ intTypes ++ floatTypes →
        sinks (fun q => .vredsum d va m q) (red 0) false ∧
        (s.st.sr.determ.toNat % 2 = 0 → sinks (fun q => .vredsumt d va m q) (red 1) false) ∧
        sinks (fun q => .vredmax d va m q) (red 2) false ∧ sinks (fun q => .vredmin d va m q) (red 3) false) ∧
      (t ∈ intTypes →
        sinks (fun q => .vredmaxu d va m q) (red 4) false ∧ sinks (fun q => .vredminu d va m q) (red 5) false ∧
        sinks (fun q => .vredand d va m q) (red 6) false ∧ sinks (fun q => .vredor d va m q) (red 7) false ∧
        sinks (fun q => .vredxor d va m q) (red 8) false)) ∧
    (s.named true va x → s.mayIssue [d] →
      sinks (fun q => .vffs d va m q) (red 11) false ∧ sinks (fun q => .vpop d va m q) (red 12) false) ∧
    (s.named false va x → x.ty = some t → t ∈ intTypes ++ floatTypes → s.st.sr.vrows ≤ 128 →
      s.mayIssue [] → (∃ old, s.oldIs false d m (some t) old) →
      ∀ (mx : Bool) (i : Bool → Instr), (i = if mx then (fun q => .vredrowmax d va m q) else fun q => .vredrow d va m q) →
      let ops := [x.id] ++ mk.toList
      let slots (t : State) (ps : List Pass) : List Nat :=
        rowSlots (referenced t.st (t.st.vnames.filter fun p => p.1 ≠ d.val) t.st.pnames ps ops)
      let fits (ps : List Pass) : Prop := s.room false [d.val] ops 1 ps ∧ (slots s ps).length < 2
      (fits s.st.passes → s.joins ops [] i fun u v => ∃ slot, slot < 2 ∧ slot ∉ slots u u.st.passes ∧
        v = { u with st := { u.st with
          queue := u.st.queue ++ [{ s.sinkOf 0x32 (.rowred mx (u.st.nextWp + 1) slot) none [x.id] none mk with id := u.st.nextWp }]
          nextWp := u.st.nextWp + 2
          vnames := aset u.st.vnames d.val (u.st.nextWp + 1)
          wps := u.st.wps ++ [{ s.makes 0x32 (.rowres slot u.st.nextWp) (some t) [] none none none with id := u.st.nextWp + 1 }] } }) ∧
      (¬ fits s.st.passes → ∀ q,
        (fits s.stopped → exec (i q) s = .next s) ∧
        (¬ fits s.stopped → ∀ w, encode (i q) = some w → exec (i q) s = .next (s.trapped 9 0 (w.setWidth 64))))) ∧
    (s.mayIssue [d] →
      let fault (i : Instr) (c : Nat) : Prop := ∀ w, encode i = some w → exec i s = .next (s.trapped c 0 (w.setWidth 64))
      ∀ q : Bool,
        (s.st.sr.determ.toNat % 2 = 1 → fault (.vredsumt d va m q) 0x0C) ∧
        (s.named false va x →
          ((∀ t ∈ intTypes ++ floatTypes, x.ty ≠ some t) →
            fault (.vredsum d va m q) 8 ∧ fault (.vredmax d va m q) 8 ∧ fault (.vredmin d va m q) 8 ∧
            (s.st.sr.determ.toNat % 2 = 0 → fault (.vredsumt d va m q) 8) ∧ fault (.vredrow d va m q) 8 ∧ fault (.vredrowmax d va m q) 8) ∧
          ((∀ t ∈ intTypes, x.ty ≠ some t) →
            ∀ i ∈ ([.vredmaxu d va m q, .vredminu d va m q, .vredand d va m q, .vredor d va m q, .vredxor d va m q] : List Instr),
              fault i 8))) ∧
    (s.named false va x → x.ty = some t → t ∈ intTypes ++ floatTypes → s.mayIssue [] →
      (128 < s.st.sr.vrows ∨ (m ≠ none ∧ s.st.sr.vpol.toNat % 2 = 0 ∧
        ∃ y, afind s.st.vnames d.val = some y.id ∧ wpOf s.st.wps y.id = some y ∧
          (y.ty ≠ some t ∨ y.vl ≠ s.st.sr.vl ∨ y.vrows ≠ s.st.sr.vrows))) →
      ∀ (q : Bool) (i : Instr) (w : IWord), (i = .vredrow d va m q ∨ i = .vredrowmax d va m q) → encode i = some w →
        exec i s = .next (s.trapped 8 0 (w.setWidth 64)))

namespace Sys2Proof.Machine

/-- R214: the sum of two codes of a stream, and of two that may be absent. -/
def addCodes (t : Ty) (m : RM) (x y : Nat) : Nat :=
  match tyFmt t with
  | some f => (addF f m (decodeF f x) (decodeF f y)).1
  | none => (x + y) % 2 ^ tyBits t

def joinCodes (t : Ty) (m : RM) (x y : Option Nat) : Option Nat :=
  match x, y with
  | none, y => y
  | x, none => x
  | some a, some b => some (addCodes t m a b)

/-- R216: the partials of L lanes after the pairings at distances 1, 2, 4 and so on, `n` of them. -/
def paired (t : Ty) (m : RM) (L : Nat) (n : Nat) (q : Nat → Option Nat) : Nat → Option Nat :=
  match n with
  | 0 => q
  | n + 1 => fun l =>
    let p := paired t m L n q
    if l % (2 * 2 ^ n) = 0 ∧ l + 2 ^ n < L then joinCodes t m (p l) (p (l + 2 ^ n)) else p l

/-- R215: the code that a maximum (or minimum) of a list of codes keeps: of integers by their signed values, of floating-point codes with NaNs
set aside and -0 below +0; the canonical NaN when all are NaN. -/
def extreme (t : Ty) (max : Bool) (cs : List Nat) (y : Nat) : Prop :=
  match tyFmt t with
  | none => y ∈ cs ∧ ∀ z ∈ cs, let a := (BitVec.ofNat (tyBits t) z).toInt
      let b := (BitVec.ofNat (tyBits t) y).toInt
      if max then a ≤ b else b ≤ a
  | some f =>
    let below (a b : FVal) : Prop := a.ext < b.ext ∨ (a.ext = b.ext ∧ (a.neg = true ∨ b.neg = false))
    if ∀ z ∈ cs, (decodeF f z).isNan = true then y = f.cnan
    else y ∈ cs ∧ (decodeF f y).isNan = false ∧ ∀ z ∈ cs, (decodeF f z).isNan = false →
      if max then below (decodeF f z) (decodeF f y) else below (decodeF f y) (decodeF f z)

end Sys2Proof.Machine

/-- R211 to R216, R218, R219: what a reduction makes of the contributing elements of a strip: a sum in ascending order; a tree sum by lanes and
pairings; a signalling NaN that is the only contributing element becomes the canonical NaN and raises NV at its element; a largest or smallest
code; the bitwise members; the lowest set element and the count; the row members for each row apart. With what
its pass leaves, each member gives the result that the table of empty results or its placement in 64 bits says; a row member gives one for each
row, as a code of its stream. -/
def Obligations.FoldedElements : Prop :=
  (∀ (x : Strip) (k : Sink) (r : Res) (v : Ev) (s : State) (t : Ty) (src : Nat) (d : Reg),
      k.data = [src] → k.idx = none → x.p.wpTy src = t → t ∈ intTypes ++ floatTypes →
      (∀ j ∈ src :: k.mask.toList, ∀ i < x.hi - x.lo, (r.at j i).bad = false) →
      let takes (i : Nat) : Bool := !(r.at src i).pad &&
        match k.mask with | none => true | some m => !(r.at m i).pad && (r.at m i).val == 1
      let els : List (Nat × Nat) := ((List.range (x.hi - x.lo)).filter takes).map fun i => (x.lo + i, (r.at src i).val)
      let codes := els.map fun q => q.2
      let acc (row : Nat) := afind (partOf v.parts k.id).accs row
      let m := rmOf k.fpctl
      let L := max 1 x.lanes.size
      let lane (l : Nat) : Option Nat := (els.filter fun q => (q.1 - x.lo) % L = l).foldl (fun a q => joinCodes t m a (some q.2)) none
      let kept := (acc 0).toList ++ codes
      let quiet : Prop := ∀ c ∈ codes, ∀ f, tyFmt t = some f → (decodeF f c).isSnan = false
      let folds (op : SOp) (row : Nat) (out : Option Nat) : Prop :=
        ∃ v', evalFold x { k with op := op } r v s = (.ok ((), v'), s) ∧ afind (partOf v'.parts k.id).accs row = out
      let alone (row : Nat) (mine : List (Nat × Nat)) (e : Nat) (f : Fmt) : Prop :=
        acc row = none ∧ tyFmt t = some f ∧ ∃ c, mine = [(e, c)] ∧ (decodeF f c).isSnan = true
      let invalid (op : SOp) (row e : Nat) (f : Fmt) : Prop :=
        ∃ v', evalFold x { k with op := op } r v s = (.ok ((), v'), s) ∧ afind (partOf v'.parts k.id).accs row = some f.cnan ∧
          (e, k.id, flNV) ∈ v'.fl
      ((¬ ∃ e f, alone 0 els e f) →
        folds (.red 0 d) 0 (codes.foldl (fun a c => joinCodes t m a (some c)) (acc 0)) ∧
        folds (.red 1 d) 0 (joinCodes t m (acc 0) (paired t m L L lane 0))) ∧
      (∀ e f, alone 0 els e f → x.n ≤ x.hi → invalid (.red 0 d) 0 e f ∧ invalid (.red 1 d) 0 e f) ∧
      (codes ≠ [] → ∀ mx : Bool, ∃ y, extreme t mx kept y ∧ folds (.red (if mx then 2 else 3) d) 0 (some y)) ∧
      (t ∈ intTypes → ∀ a rest, kept = a :: rest →
        folds (.red 4 d) 0 (some (rest.foldl max a)) ∧ folds (.red 5 d) 0 (some (rest.foldl min a)) ∧
        folds (.red 6 d) 0 (some (rest.foldl (· &&& ·) a)) ∧ folds (.red 7 d) 0 (some (rest.foldl (· ||| ·) a)) ∧
        folds (.red 8 d) 0 (some (rest.foldl (· ^^^ ·) a))) ∧
      folds (.red 11 d) 0 ((acc 0).or ((els.find? fun q => q.2 = 1).map fun q => q.1)) ∧
      folds (.red 12 d) 0 (some ((acc 0).getD 0 + (els.filter fun q => q.2 = 1).length)) ∧
      (∀ row wp slot : Nat,
        let its := els.filter fun q => q.1 / max 1 x.p.vl = row
        let mine := its.map fun q => q.2
        (quiet → folds (.rowred false wp slot) row (mine.foldl (fun a c => joinCodes t m a (some c)) (acc row))) ∧
        (∀ e f, alone row its e f → els = its → min x.n ((row + 1) * max 1 x.p.vl) ≤ x.hi → invalid (.rowred false wp slot) row e f) ∧
        (mine ≠ [] → ∃ y, extreme t true ((acc row).toList ++ mine) y ∧ folds (.rowred true wp slot) row (some y)) ∧
        (mine = [] → folds (.rowred true wp slot) row (acc row)))) ∧
  (∀ (p : Pass) (k : Sink) (d : Reg) (t : Ty) (src : Nat), k.data = [src] → p.wpTy src = t → t ∈ intTypes ++ floatTypes →
      let w := tyBits t
      let acc := afind (partOf p.parts k.id).accs 0
      let gives (j : Nat) (y : Word) : Prop := sinkResult p { k with op := .red j d } = some (d, y)
      let signed (c : Nat) : Word := BitVec.ofInt 64 (BitVec.ofNat w c).toInt
      let lone (f : Fmt) (c : Nat) : Word := wd (if (decodeF f c).isNan = true then f.cnan else c)
      (acc = none → gives 0 0 ∧ gives 1 0 ∧ gives 11 (BitVec.allOnes 64) ∧ gives 12 0 ∧
        (t ∈ intTypes → gives 2 (BitVec.ofInt 64 (-(2 ^ (w - 1)))) ∧ gives 3 (wd (2 ^ (w - 1) - 1)) ∧ gives 4 0 ∧
          gives 5 (wd (2 ^ w - 1)) ∧ gives 6 (wd (2 ^ w - 1)) ∧ gives 7 0 ∧ gives 8 0) ∧
        (∀ f, tyFmt t = some f → gives 2 (wd (f.signBit true + f.infCode)) ∧ gives 3 (wd f.infCode))) ∧
      (∀ c, acc = some c → gives 11 (wd c) ∧ gives 12 (wd c) ∧
        (t ∈ intTypes → (∀ j ∈ [0, 1, 2, 3], gives j (signed c)) ∧ ∀ j ∈ [4, 5, 6, 7, 8], gives j (wd c)) ∧
        (∀ f, tyFmt t = some f → gives 0 (lone f c) ∧ gives 1 (lone f c) ∧ gives 2 (wd c) ∧ gives 3 (wd c))) ∧
      (∀ (mx : Bool) (wp slot : Nat), ∃ vs, rowValues p { k with op := .rowred mx wp slot } = some (slot, vs) ∧ vs.length = p.vrows ∧
        ∀ row < p.vrows,
          let sum := afind (partOf p.parts k.id).accs row
          (sum = none → vs[row]? = some (if mx then (match tyFmt t with | some f => f.signBit true + f.infCode | none => 2 ^ (w - 1)) else 0)) ∧
          (∀ c, sum = some c → vs[row]? = some (match tyFmt t with
            | some f => if mx = false ∧ (decodeF f c).isNan = true then f.cnan else c
            | none => c))))

namespace Sys2Proof.Machine

/-- The write of an element: its nibble, or its bytes, least significant first (R249). -/
def stored (t : Ty) (w : Who) (l : Loc) (nib c : Nat) : Wr :=
  if tyBits t = 4 then .nib w l nib c else .bytes w l (leBytes (max 1 (tyBits t / 8)) c)

end Sys2Proof.Machine

/-- R161, R163, R165, R248 to R256: what a store makes of an element that it takes: one write at the stated address of the element's bytes, least
significant first, or of its nibble, through the translation of that element; a translation that fails is the element's fault, and writes
nothing. A segment store writes one field after another. Over a strip a sink takes its elements one after another, each where no stream is padding,
its mask is set and it lies in its tensor, and its row's tail after it. A scatter takes its index as signed, and one outside the tensor is a descriptor fault; an
add is translated as an atomic, and poison there is its fault. What is padding or masked off writes nothing. The writes of a strip are made element by element
and, for one element, in the order of the sinks; floating-point adds alone change places with each other. A nibble leaves its neighbour, and an add
to local HBM stands at the memory-side cache. The tail of a row of a tile store is empty under the undisturbed policy, and else goes from its last
column in the tensor to the next multiple of 64 or the end of the row's pitch; it is written as zeros, nibble and bytes, at the row's last element.
The order of floating-point adds is open: log entry 62. That a tail's fault stands at that element is log entry 96; that EVA of poisoned data is
rounded down to 4 bytes is log entry 90. -/
def Obligations.StoredElements : Prop :=
  (∀ (x : Strip) (k : Sink) (r : Res) (e i src : Nat) (v : Ev) (s : State) (t : Ty), k.ty = some t → k.data = [src] →
      let n := max 1 (tyBits t / 8)
      let c := (r.at src i).val
      let col := e % x.p.vl
      let row := e / x.p.vl
      let writes (op : SOp) (aim : M Loc) (mk : Who → Loc → Wr) : Prop :=
        ∀ q u, aim s = (q, u) →
          (∀ l, q = .ok l → ∃ v', storeElem x { k with op := op } r e i v s = (.ok ([mk (x.who e) l], v'), u) ∧
            v'.best = v.best ∧ v'.fl = v.fl) ∧
          (∀ z d y, q = .error (.trap z d y) → ∃ v', storeElem x { k with op := op } r e i v s = (.ok ([], v'), u) ∧
            (v.best = none → v'.best = some ⟨e, k.id, z, d, y, k.pc, 0⟩))
      let stores (op : SOp) (at_ : Word × Nat) : Prop := writes op (translate (x.who e) .store at_.1 n) fun w l => stored t w l at_.2 c
      (∀ base b : Word,
        stores (.vst 1 base) (placeOf t base 0 e) ∧
        stores (.vsts base b) (if tyBits t = 4 then placeOf t base 0 (e * b.toInt) else placeOf t base (e * b.toInt) 0) ∧
        stores (.vstt base b) (placeOf t base (row * b.toInt) col) ∧
        ∀ d, stores (.vstcmp base d) (placeOf t base 0 (partOf v.parts k.id).count)) ∧
      (∀ (tid : Nat) (row0 col0 : ℤ), let d := x.p.desc tid
        0 ≤ row0 + row → 0 ≤ col0 + col → d.bits = tyBits t →
          stores (.vsttd row0 col0 tid) (placeOf t 0 (d.elembase + (row0 + row).toNat * d.pitch) (col0 + col).toNat)) ∧
      (∀ tid ix : Nat, k.idx = some ix →
        let d := x.p.desc tid
        let j := (BitVec.ofNat (tyBits (x.p.wpTy ix)) (r.at ix i).val).toInt
        let there := placeOf t 0 (d.elembase + (j.toNat / d.cols) * d.pitch) (j.toNat % d.cols)
        (0 ≤ j → j < (d.rows * d.cols : ℤ) → d.bits = tyBits t →
          stores (.vstx tid) there ∧
          (8 ≤ tyBits t → writes (.vstxadd tid) (addTarget (x.who e) there.1 n) fun w l => .add w l t c)) ∧
        (j < 0 ∨ (d.rows * d.cols : ℤ) ≤ j → ∀ op ∈ [SOp.vstx tid, SOp.vstxadd tid],
          ∃ v', storeElem x { k with op := op } r e i v s = (.ok ([], v'), s) ∧
            (v.best = none → v'.best = some ⟨e, k.id, 0x0F, 0, BitVec.ofInt 64 j, k.pc, 0⟩)))) ∧
  (∀ (x : Strip) (k : Sink) (r : Res) (e i c : Nat) (base : Word) (v : Ev) (s : State) (t : Ty), k.ty = some t →
      let seg (ds : List Nat) : Sink := { k with op := .vst c base, data := ds }
      storeElem x (seg []) r e i v s = (.ok ([], v), s) ∧
      ∀ srcs src ws v1 s1, storeElem x (seg srcs) r e i v s = (.ok (ws, v1), s1) →
        let p := placeOf t base 0 (e * c + srcs.length : Nat)
        ∀ q u, translate (x.who e) .store p.1 (max 1 (tyBits t / 8)) s1 = (q, u) →
          (∀ l, q = .ok l → ∃ v', storeElem x (seg (srcs ++ [src])) r e i v s =
            (.ok (ws ++ [stored t (x.who e) l p.2 (r.at src i).val], v'), u) ∧ v'.best = v1.best) ∧
          (∀ z d y, q = .error (.trap z d y) → ∃ v', storeElem x (seg (srcs ++ [src])) r e i v s = (.ok (ws, v'), u) ∧
            (v1.best = none → v'.best = some ⟨e, k.id, z, d, y, k.pc, 0⟩))) ∧
  (∀ (s : State) (w : Who) (va : Word) (n : Nat) (q : Except Stop Loc) (t : State), translate w .atomic va n s = (q, t) →
      (∀ e, q = .error e → addTarget w va n s = (.error e, t)) ∧
      (∀ pa ten, q = .ok (.hbm pa ten) → addTarget w va n s =
        if (∃ l ∈ t.cache w.cluster, l.tag = pa / 64 ∧ l.poison = true) ∨ t.linePoison (pa / 64) = true
        then (.error (.trap 0x13 0 (wd (va.toNat / 4 * 4))), t) else (.ok (.hbm pa ten), t)) ∧
      (∀ key, q = .ok (.win key) → t.winPoisoned key n = false → addTarget w va n s = (.ok (.win key), t)) ∧
      (∀ pa, q = .ok (.host pa) → addTarget w va n s = (.ok (.host pa), t))) ∧
  (∀ (x : Strip) (k : Sink) (r : Res) (v : Ev) (s : State) (ts : List Wr) (v' : Ev) (u : State), x.hi = x.lo + 1 → k.isVstc = false →
      ((∃ d ∈ k.data ++ k.idx.toList, (r.at d 0).pad = true) ∨
        (∃ m, k.mask = some m ∧ ((r.at m 0).pad = true ∨ (r.at m 0).val ≠ 1)) ∨
        (∃ row0 col0 tid, k.op = .vsttd row0 col0 tid ∧
          let tr := row0 + (x.lo / x.p.vl : Nat)
          let tc := col0 + (x.lo % x.p.vl : Nat)
          tr < 0 ∨ ((x.p.desc tid).rows : ℤ) ≤ tr ∨ tc < 0 ∨ ((x.p.desc tid).cols : ℤ) ≤ tc)) →
      tailAfter x k x.lo v s = (.ok (ts, v'), u) → evalStore x k r v s = (.ok (#[ts], v'), u)) ∧
  (∀ (x : Strip) (k : Sink) (r : Res) (v v' : Ev) (s s' : State) (a : Array (List Wr)), k.isVstc = false →
      evalStore x k r v s = (.ok (a, v'), s') →
      a.size = x.hi - x.lo ∧ ∃ st : Nat → Ev × State, st 0 = (v, s) ∧ st a.size = (v', s') ∧ ∀ i < a.size,
        let e := x.lo + i
        let takes : Prop := (∀ d ∈ k.data ++ k.idx.toList, (r.at d i).pad = false) ∧
          (∀ m, k.mask = some m → (r.at m i).pad = false ∧ (r.at m i).val = 1) ∧ (∀ d ∈ k.operands, (r.at d i).bad = false) ∧
          (∀ row0 col0 tid, k.op = .vsttd row0 col0 tid →
            let tr := row0 + (e / x.p.vl : Nat)
            let tc := col0 + (e % x.p.vl : Nat)
            0 ≤ tr ∧ tr < (x.p.desc tid).rows ∧ 0 ≤ tc ∧ tc < (x.p.desc tid).cols)
        ∃ (ws ts : List Wr) (v1 : Ev) (s1 : State), a[i]? = some (ws ++ ts) ∧
          (takes → ∃ g, storeElem x k r e i { (st i).1 with stats := g } (st i).2 = (.ok (ws, v1), s1)) ∧
          (¬ takes → ws = [] ∧ (v1, s1) = st i) ∧ tailAfter x k e v1 s1 = (.ok (ts, (st (i + 1)).1), (st (i + 1)).2)) ∧
  (∀ (x : Strip) (k : Sink) (r : Res) (v v1 : Ev) (s s1 : State),
      let folds : Prop := (∃ m d, k.op = .red m d) ∨ ∃ mx wp slot, k.op = .rowred mx wp slot
      (folds → evalFold x k r v s = (.ok ((), v1), s1) → evalSink x k r v s = (.ok ((#[], []), v1), s1)) ∧
      (¬ folds → ∀ a, evalStore x k r v s = (.ok (a, v1), s1) →
        (x.p.late = false → evalSink x k r v s = (.ok ((a, []), v1), s1)) ∧
        (x.p.late = true → k.isVstc = false →
          (tailOf x k 0 = none → evalSink x k r v s = (.ok ((a, []), v1), s1)) ∧
          (∀ sp ts v2 s2, tailOf x k 0 = some sp → tailWrites x k (x.lo - 1) sp v1 s1 = (.ok (ts, v2), s2) →
            evalSink x k r v s = (.ok ((a, ts), v2), s2))))) ∧
  (∀ (s : State) (w : Who) (l : Loc) (bs : List Byte) (key v : Nat) (t : Ty),
      (Wr.bytes w l bs).perform s = writeLoc w l bs s ∧
      (∀ nib < 2, (Wr.nib w (.win key) nib v).perform s = writeLoc w (.win key)
        [let b := (cellRead s.mem.win key).toNat
         BitVec.ofNat 8 (if nib = 0 then b / 16 * 16 + v % 16 else b % 16 + 16 * (v % 16))] s) ∧
      (t ∈ intTypes ++ floatTypes → (Wr.add w (.win key) t v).perform s = writeLoc w (.win key)
        (leBytes (tyBits t / 8) (addCodes t .rne (leNat (s.winRead key (tyBits t / 8))) v)) s)) ∧
  (∀ (s : State) (n : Nat) (cols : List (Array (List Wr))) (ws : List Wr),
      ws = ((List.range n).flatMap fun i => cols.flatMap fun c => c.getD i []) →
      ((∀ y : Wr, y ∈ ws → y.unordered = false) → ∀ u, ws.forM Wr.perform s = (.ok (), u) → performAll n cols s = (.ok ws, u)) ∧
      (∀ j, (permuteAdds j ws).Perm ws ∧ ∀ (i : Nat) (y : Wr), ws[i]? = some y → y.unordered = false → (permuteAdds j ws)[i]? = some y)) ∧
  (∀ (s : State) (w : Who) (pa tenant y : Nat) (b : Byte) (t : Ty), s.mem.sound →
      (∀ nib < 2, s.seen w.cluster tenant pa = some b →
        ∃ u, (Wr.nib w (.hbm pa tenant) nib y).perform s = (.ok (), u) ∧ u.mem.sound ∧
          u.seen w.cluster tenant pa = some (BitVec.ofNat 8
            (if nib = 0 then b.toNat / 16 * 16 + y % 16 else b.toNat % 16 + 16 * (y % 16)))) ∧
      (t ∈ intTypes ++ floatTypes → pa % 64 + tyBits t / 8 ≤ 64 →
        (∀ l ∈ s.cache w.cluster, l.tag = pa / 64 → l.dirty = 0) →
        ∃ u, (Wr.add w (.hbm pa tenant) t y).perform s = (.ok (), u) ∧
          u.devRead tenant pa (tyBits t / 8) =
            leBytes (tyBits t / 8) (addCodes t .rne (leNat (s.devRead tenant pa (tyBits t / 8))) y))) ∧
  (∀ (x : Strip) (k : Sink) (row : Nat) (t : Ty), k.ty = some t →
      let vl := if x.p.vrows = 1 then x.n else x.p.vl
      let size := tyBits t
      let ends (start : ℤ) (bits : ℤ) (stop : ℤ) : Option (ℤ × ℤ) :=
        let p := 2 * start + bits / 4
        let q := min (2 * stop) ((p + 127) / 128 * 128)
        if p < q then some (p, q) else none
      (k.vpol.toNat / 2 % 2 = 0 ∨ vl = 0 → tailOf x k row = none) ∧
      (k.vpol.toNat / 2 % 2 = 1 → 0 < vl →
        (∀ base pitch : Word, k.op = .vstt base pitch →
          let start : ℤ := (base + BitVec.ofInt 64 (row * pitch.toInt)).toNat
          (pitch.toInt < ((vl * size + 7) / 8 : Nat) → tailOf x k row = none) ∧
          (((vl * size + 7) / 8 : Nat) ≤ pitch.toInt → tailOf x k row = ends start (vl * size : Nat) (start + pitch.toInt))) ∧
        (∀ (row0 col0 : ℤ) (tid : Nat), k.op = .vsttd row0 col0 tid →
          let d := x.p.desc tid
          let tr := row0 + row
          let inside : Prop := 0 ≤ tr ∧ tr < d.rows ∧ col0 < d.cols ∧ 0 < col0 + vl
          (¬ inside → tailOf x k row = none) ∧
          (inside → tailOf x k row =
            ends (d.elembase + tr * d.pitch) (min (col0 + vl) d.cols * size) (d.elembase + (tr + 1) * d.pitch)))) ∧
      (∀ e v s, 0 < vl →
        ((e + 1) % vl ≠ 0 ∨ tailOf x k (e / vl) = none → tailAfter x k e v s = (.ok ([], v), s)) ∧
        (∀ sp, (e + 1) % vl = 0 → tailOf x k (e / vl) = some sp → tailAfter x k e v s = tailWrites x k e sp v s))) ∧
  (∀ (x : Strip) (k : Sink) (e : Nat) (p q : ℤ) (v : Ev) (s : State) (t : Ty), k.ty = some t → p < q → q % 2 = 0 →
      let w := x.who e
      let first : ℤ := (p + 1) / 2
      let n := (q / 2 - first).toNat
      let zeros (l : Loc) : Wr := .bytes w l (List.replicate n 0)
      let aim (a : ℤ) : M Loc := translate w .store (BitVec.ofInt 64 a) (max 1 (tyBits t / 8))
      let done (ws : List Wr) (u : State) : Prop := ∃ v', tailWrites x k e (p, q) v s = (.ok (ws, v'), u) ∧ v'.best = v.best
      (p % 2 = 0 →
        (∀ l u, aim first s = (.ok l, u) → done [zeros l] u) ∧
        (∀ z d y u, aim first s = (.error (.trap z d y), u) → ∃ v', tailWrites x k e (p, q) v s = (.ok ([], v'), u) ∧
          (v.best = none → v'.best = some ⟨e, k.id, z, d, y, k.pc, 0⟩))) ∧
      (p % 2 = 1 → ∀ h u, aim (p / 2) s = (.ok h, u) →
        (n = 0 → done [.nib w h 1 0] u) ∧ (0 < n → ∀ l u', aim first u = (.ok l, u') → done [.nib w h 1 0, zeros l] u')))

namespace Sys2Proof.Machine

/-- R195, R259: a magnitude rounded by a draw: the next integer when the draw lies below the part of it that is gone, in units of 2^-32. -/
noncomputable def drawnUp (y : ℝ) (word : Nat) : ℤ := ⌊y⌋ + if (word : ℤ) < ⌊(y - ⌊y⌋) * 2 ^ 32⌋ then 1 else 0

/-- R258: the finite active elements of a block fit a candidate's largest value at an exponent. -/
def Cand.fits (w : Nat) (stat : List FVal) (sel : Nat) (levels : List Nat) (e : Nat) : Prop :=
  ∀ v ∈ stat,
    let under (q : ℝ) : Prop := |v.real| ≤ q * (2 : ℝ) ^ ((e : ℤ) - 127)
    if sel = 0 then under (2 ^ (w - 1) - 1) else if sel = 1 then under (2 ^ (w - 2) - 1)
    else if sel = 2 then under (if w = 4 then 6 else 448) else ∃ l ∈ levels, under |(decodeF fmtBf16 l).real|

/-- The error of a candidate over those elements, each with its draw (R261). -/
def Cand.errorOf (c : Cand) (w : Nat) (sr : Bool) (stat : List (FVal × Nat)) : Nat :=
  stat.foldl (fun a q => addF64 a (sqErr q.1 (c.value w (c.code w sr q.2 q.1)))) 0

end Sys2Proof.Machine

/-- R177, R178, R191, R257 to R261: the block that a quantising store writes. The header names a selector that the descriptor
allows, with its CRC. For SI, TE and MF the exponent is the least with which every finite active element fits; each such element takes the code of
its value divided by the scale, rounded on the grid of its selector, for LT the nearest level; an infinity takes the code of largest magnitude of its
sign; NaNs and inactive elements take code 0. The error is the f64 sum of the squares, and no other candidate has a smaller one; of equal ones the
first stands: candidates come by selector, and under LT by their tables' order. There is one for each selector allowed, under LT for each table
that fits; with no other, the table of largest levels with exponent 254. Under stochastic rounding the code is the next value away from zero, for
LT the level above, when the element's draw lies below the part of the step that is gone. Each tile element of a VSTC joins its block, a NaN with NV;
with its last element the block's codes and header are written at their addresses and its error kept. QERR is the sum of those errors.
Which element's access the block's accesses are, the order of their faults, that tables are read for each block, and what a trim leaves of a block,
are the model's choice: log entries 74, 98, 106 and 107. -/
def Obligations.QuantisedBlocks : Prop :=
  (∀ (w selmask : Nat) (f : Fmt) (tabs : List (Nat × List Nat)) (els : List BlockElem),
      (w = 4 ∨ w = 8) → f ∈ [fmtF16, fmtBf16, fmtF32] → 0 < selmask → selmask < 16 → (selmask = 8 → tabs ≠ []) →
      (els.map BlockElem.pos).Nodup → (∀ b ∈ els, b.pos < 32) →
      (∀ q ∈ tabs, q.1 < 2 ^ 14 ∧ q.2.length = 2 ^ w ∧ ∀ l ∈ q.2, (decodeF fmtBf16 l).finite) → (tabs.map fun q => q.1).Nodup →
      let codes := (quantBlock w f false selmask tabs els).1
      let h := (quantBlock w f false selmask tabs els).2.1
      let err := (quantBlock w f false selmask tabs els).2.2
      let val (b : BlockElem) := decodeF f b.code
      let stat := els.filter fun b => b.active && (val b).isFinite
      let sel := h / 2 ^ 30
      let e : ℤ := (h / 2 ^ 22 % 2 ^ 8 : Nat)
      let param := h / 2 ^ 8 % 2 ^ 14
      let eb : ℤ := (param / 2 ^ 6 : Nat)
      let ls := ((tabs.find? fun q => q.1 = param).map fun q => q.2).getD []
      let top (q : ℝ) : Prop := (∀ b ∈ stat, |(val b).real| ≤ q * (2 : ℝ) ^ (e - 127)) ∧
        (0 < e → ∃ b ∈ stat, q * (2 : ℝ) ^ (e - 1 - 127) < |(val b).real|)
      let sign (b : BlockElem) : Nat := if (val b).neg then 2 ^ (w - 2) else 0
      codes.length = 32 ∧ sel < 4 ∧ selmask / 2 ^ sel % 2 = 1 ∧ h % 2 ^ 8 = headerCrc h ∧
      (∀ i < 32, (∀ b ∈ els, b.pos = i → b.active = false ∨ (val b).isNan = true) → codes.getD i 0 = 0) ∧
      (sel = 0 → param = 0 ∧ top (2 ^ (w - 1) - 1) ∧
        (∀ b ∈ stat, ∃ q : ℤ, roundsTo .rne ((val b).real / (2 : ℝ) ^ (e - 127)) q ∧
          codes.getD b.pos 0 = (BitVec.ofInt w q).toNat) ∧
        ∀ b ∈ els, b.active = true → (val b).isInf = true →
          codes.getD b.pos 0 = if (val b).neg then 2 ^ (w - 1) else 2 ^ (w - 1) - 1) ∧
      (sel = 1 → param % 2 ^ 6 = 0 ∧ eb = max (e - (if w = 4 then 2 else 6)) 0 ∧ top (2 ^ (w - 2) - 1) ∧
        (∀ b ∈ stat, ∃ q : ℕ,
          let low := |(val b).real| ≤ ((2 : ℝ) ^ (w - 2) - 1) * (2 : ℝ) ^ (eb - 127)
          (low → roundsTo .rne (|(val b).real| / (2 : ℝ) ^ (eb - 127)) q ∧ codes.getD b.pos 0 = 2 ^ (w - 1) + sign b + q) ∧
          (¬ low → roundsTo .rne (|(val b).real| / (2 : ℝ) ^ (e - 127)) q ∧ codes.getD b.pos 0 = sign b + q)) ∧
        ∀ b ∈ els, b.active = true → (val b).isInf = true → codes.getD b.pos 0 = sign b + (2 ^ (w - 2) - 1)) ∧
      (sel = 2 → param = 0 ∧ top (if w = 4 then 6 else 448) ∧
        (∀ b ∈ stat, ∃ y : FVal, y.finite ∧ y.neg = (val b).neg ∧ y.real = (val b).real / (2 : ℝ) ^ (e - 127) ∧
          codes.getD b.pos 0 = (roundF (if w = 4 then fmtE2m1 else fmtE4m3) .rne false y).1) ∧
        ∀ b ∈ els, b.active = true → (val b).isInf = true →
          codes.getD b.pos 0 = (if (val b).neg then 2 ^ (w - 1) else 0) + (if w = 4 then 7 else 0x7E)) ∧
      (sel = 3 → param ∈ tabs.map (fun q => q.1) ∧
        (∀ b ∈ stat, ∃ l, ls[codes.getD b.pos 0]? = some l ∧ ∀ j k, ls[j]? = some k →
          let y := (val b).real / (2 : ℝ) ^ (e - 127)
          let mine := |y - (decodeF fmtBf16 l).real|
          let its := |y - (decodeF fmtBf16 k).real|
          mine ≤ its ∧ (mine = its → codes.getD b.pos 0 ≤ j)) ∧
        ∀ b ∈ els, b.active = true → (val b).isInf = true → ∃ l, ls[codes.getD b.pos 0]? = some l ∧ ∀ k ∈ ls,
          if (val b).neg then (decodeF fmtBf16 l).real ≤ (decodeF fmtBf16 k).real
          else (decodeF fmtBf16 k).real ≤ (decodeF fmtBf16 l).real) ∧
      err = stat.foldl (fun a b => addF64 a
        (sqErr (val b) (chanterVal w h (codes.getD b.pos 0) (ls.getD (codes.getD b.pos 0) 0)))) 0 ∧
      (∀ q ∈ candidates w selmask tabs (maxMag (stat.map val)),
        err ≤ stat.foldl (fun a b => addF64 a (sqErr (val b) (q.value w (q.code w false b.word (val b))))) 0)) ∧
  (∀ (w selmask : Nat) (f : Fmt) (sr : Bool) (tabs : List (Nat × List Nat)) (els : List BlockElem),
      (w = 4 ∨ w = 8) → f ∈ [fmtF16, fmtBf16, fmtF32] → 0 < selmask → selmask < 16 → (selmask = 8 → tabs ≠ []) →
      (els.map BlockElem.pos).Nodup → (∀ b ∈ els, b.pos < 32 ∧ b.word < 2 ^ 32) →
      (∀ q ∈ tabs, q.1 < 2 ^ 14 ∧ q.2.length = 2 ^ w ∧ ∀ l ∈ q.2, (decodeF fmtBf16 l).finite) → (tabs.map fun q => q.1).Nodup →
      let z := quantBlock w f sr selmask tabs els
      let val (b : BlockElem) := decodeF f b.code
      let stat := (els.filter fun b => b.active && (val b).isFinite).map fun b => (val b, b.word)
      let cs := candidates w selmask tabs (maxMag (stat.map Prod.fst))
      let fits (c : Cand) (e : Nat) : Prop := Cand.fits w (stat.map Prod.fst) c.sel c.levels e
      let some_ (q : Nat × List Nat) : Prop := ∃ e < 255, Cand.fits w (stat.map Prod.fst) 3 q.2 e
      (∃ (i : Nat) (c : Cand), cs[i]? = some c ∧ z.2.1 / 2 ^ 30 = c.sel ∧ z.2.1 / 2 ^ 22 % 2 ^ 8 = c.e ∧ z.2.1 / 2 ^ 8 % 2 ^ 14 = c.param ∧
        z.2.1 % 2 ^ 8 = headerCrc z.2.1 ∧ z.2.2 = c.errorOf w sr stat ∧
        (∀ (j : Nat) d, cs[j]? = some d → c.errorOf w sr stat ≤ d.errorOf w sr stat ∧ (j < i → c.errorOf w sr stat < d.errorOf w sr stat)) ∧
        ∀ b ∈ els, z.1.getD b.pos 0 = if b.active = true ∧ (val b).isNan = false then c.code w sr b.word (val b) else 0) ∧
      (∀ (i j : Nat) c d, i < j → cs[i]? = some c → cs[j]? = some d → c.sel < d.sel ∨ (c.sel = 3 ∧ d.sel = 3 ∧
        ∃ a b : Nat, a < b ∧ tabs[a]? = some (c.param, c.levels) ∧ tabs[b]? = some (d.param, d.levels))) ∧
      (∀ c ∈ cs, c.sel < 4 ∧ selmask / 2 ^ c.sel % 2 = 1 ∧ c.e < 255 ∧
        (c.sel = 0 ∨ c.sel = 2 → c.param = 0) ∧ (c.sel = 1 → c.param = (c.e - if w = 4 then 2 else 6) * 2 ^ 6) ∧
        (c.sel = 3 → (c.param, c.levels) ∈ tabs) ∧
        ((fits c c.e ∧ ∀ e < c.e, ¬ fits c e) ∨ (selmask = 8 ∧ cs = [c] ∧ c.e = 254 ∧ (∀ q ∈ tabs, ¬ some_ q) ∧
          ∃ (a : Nat) (l : Nat), tabs[a]? = some (c.param, c.levels) ∧ l ∈ c.levels ∧
            ∀ (b : Nat) q, tabs[b]? = some q → ∀ k ∈ q.2,
              |(decodeF fmtBf16 k).real| ≤ |(decodeF fmtBf16 l).real| ∧ (b < a → |(decodeF fmtBf16 k).real| < |(decodeF fmtBf16 l).real|)))) ∧
      (∀ sel < 3, selmask / 2 ^ sel % 2 = 1 → ∃ c ∈ cs, c.sel = sel) ∧
      (8 ≤ selmask → ∀ q ∈ tabs, some_ q → ∃ c ∈ cs, c.sel = 3 ∧ c.param = q.1) ∧
      (∀ c ∈ cs, ∀ q ∈ stat,
        let v := q.1
        let part (e : ℤ) : ℝ := |v.real| / (2 : ℝ) ^ (e - 127)
        let eb : ℤ := (c.param / 2 ^ 6 : Nat)
        let sign : Nat := if v.neg then 2 ^ (w - 2) else 0
        let low := |v.real| ≤ ((2 : ℝ) ^ (w - 2) - 1) * (2 : ℝ) ^ (eb - 127)
        let code := c.code w true q.2 v
        let real (l : Nat) : ℝ := (decodeF fmtBf16 l).real
        let y : ℝ := v.real / (2 : ℝ) ^ ((c.e : ℤ) - 127)
        let holds (x : ℝ) : Prop := (∃ l, c.levels[code]? = some l ∧ real l = x) ∧
          ∀ j < code, ∀ k, c.levels[j]? = some k → real k ≠ x
        (c.sel = 0 → code = (BitVec.ofInt w ((if v.neg then -1 else 1) * drawnUp (part c.e) q.2)).toNat) ∧
        (c.sel = 1 → (low → (code : ℤ) = 2 ^ (w - 1) + sign + drawnUp (part eb) q.2) ∧ (¬ low → (code : ℤ) = sign + drawnUp (part c.e) q.2)) ∧
        (c.sel = 2 → ∃ u : FVal, u.finite ∧ u.neg = v.neg ∧ u.real = y ∧
          code = (stochRound (if w = 4 then fmtE2m1 else fmtE4m3) false q.2 u).1) ∧
        (c.sel = 3 →
          ((∃ l ∈ c.levels, real l = y) → holds y) ∧
          (∀ l ∈ c.levels, (∀ k ∈ c.levels, real l ≤ real k) → y < real l → holds (real l)) ∧
          (∀ l ∈ c.levels, (∀ k ∈ c.levels, real k ≤ real l) → real l < y → holds (real l)) ∧
          (∀ lo ∈ c.levels, ∀ hi ∈ c.levels, real lo < y → y < real hi → (∀ k ∈ c.levels, real k ≤ real lo ∨ real hi ≤ real k) →
            holds (if (q.2 : ℤ) < ⌊(y - real lo) / (real hi - real lo) * 2 ^ 32⌋ then real hi else real lo)))) ∧
      (∀ (c : Cand) (v : FVal) (word : Nat), v.isInf = true → c.code w true word v = c.code w false 0 v)) ∧
  (∀ (x : Strip) (k : Sink) (e tid row b : Nat) (els : List BlockElem) (v : Ev) (s : State),
      let d := x.p.desc tid
      let w := x.who e
      let f := (tyFmt (x.p.wpTy (k.data.headD 0))).getD fmtF32
      let fails (c i : Nat) (y : Word) (v' : Ev) : Prop := v.best = none → v'.best = some ⟨e, k.id, c, i, y, k.pc, 0⟩
      let out := writeBlock x k e tid row b els v s
      (d.selmask / 8 % 2 = 0 → candTables (deskWho x.t x.p) d tid s = (.ok [], s)) ∧
      (d.selmask / 8 % 2 = 1 → candTables (deskWho x.t x.p) d tid s = ((d.cts.take d.ctn).mapM fun i => do
        let ls ← readTable (deskWho x.t x.p) d tid i
        pure (i, ls) : M _) s) ∧
      (∀ c i y u, candTables (deskWho x.t x.p) d tid s = (.error (.trap c i y), u) → ∃ v', out = (.ok ([], v'), u) ∧ fails c i y v') ∧
      (∀ tabs u, candTables (deskWho x.t x.p) d tid s = (.ok tabs, u) → (d.bits = 4 ∨ d.bits = 8) →
        let z := quantBlock d.bits f (decide (k.vpol.toNat / 4 % 2 = 1)) d.selmask tabs els
        let codes := translate w .store (BitVec.ofNat 64 (d.elembase + row * d.pitch + b * (4 * d.bits))) 1
        let header := translate w .store (BitVec.ofNat 64 (d.hdrbase + row * d.hpitch + 4 * b)) 4
        (∀ l h u1 u2, codes u = (.ok l, u1) → header u1 = (.ok h, u2) →
          ∃ v', out = (.ok ([.bytes w l (packCodes d.bits z.1), .bytes w h (leBytes 4 z.2.1)], v'), u2) ∧ v'.best = v.best ∧ v'.fl = v.fl ∧
            partOf v'.parts k.id = { partOf v.parts k.id with
              accs := (partOf v.parts k.id).accs ++ [((partOf v.parts k.id).accs.length, z.2.2)] } ∧
            ∀ j, j ≠ k.id → partOf v'.parts j = partOf v.parts j) ∧
        (∀ l c i y u1 u2, codes u = (.ok l, u1) → header u1 = (.error (.trap c i y), u2) → ∃ v', out = (.ok ([], v'), u2) ∧ fails c i y v') ∧
        (∀ h c i y u1 u2, codes u = (.error (.trap c i y), u1) → header u1 = (.ok h, u2) → ∃ v', out = (.ok ([], v'), u2) ∧ fails c i y v'))) ∧
  (∀ (x : Strip) (k : Sink) (r : Res) (row0 col0 : ℤ) (tid e i src : Nat) (v : Ev) (s : State), k.data = [src] → 0 ≤ col0 →
      let d := x.p.desc tid
      let tr := row0 + (e / x.p.vl : Nat)
      let tc := col0 + (e % x.p.vl : Nat)
      let b := tc.toNat / 32
      let f := (tyFmt (x.p.wpTy src)).getD fmtF32
      let c := (r.at src i).val
      let outside : Prop := tr < 0 ∨ d.rows ≤ tr ∨ d.cols ≤ 32 * b
      (outside → quantElem x k r row0 col0 tid e i v s = (.ok ([], v), s)) ∧
      (¬ outside → ∀ act : Bool,
        (act = true ↔ (r.at src i).pad = false ∧ (∀ y ∈ k.idx.toList, (r.at y i).pad = false) ∧
          (∀ m, k.mask = some m → (r.at m i).pad = false ∧ (r.at m i).val = 1) ∧ tc < d.cols ∧ ∀ y ∈ k.operands, (r.at y i).bad = false) →
        let word := if k.vpol.toNat / 4 % 2 = 1 then draw k.rngkey x.t.sr.strandkey (k.draw.toNat + e) else 0
        let held (p : Partial) (q : Nat × Nat) : List BlockElem := ((p.blocks.find? fun z => z.1 = q).map fun z => z.2).getD []
        let mine := (tr.toNat, b)
        let els := held (partOf v.parts k.id) mine ++ [⟨tc.toNat % 32, c, act, word⟩]
        let last := min (32 * (b : ℤ) + 31) (col0 + (if x.p.vrows = 1 then x.n else x.p.vl : Nat) - 1)
        let nv : Prop := act = true ∧ (decodeF f c).isNan = true
        let joins (v' : Ev) (now : List BlockElem) : Prop :=
          held (partOf v'.parts k.id) mine = now ∧ (∀ q, q ≠ mine → held (partOf v'.parts k.id) q = held (partOf v.parts k.id) q) ∧
          (partOf v'.parts k.id).accs = (partOf v.parts k.id).accs ∧ (∀ j, j ≠ k.id → partOf v'.parts j = partOf v.parts j) ∧
          (nv → v'.fl = (e, k.id, flNV) :: v.fl) ∧ (¬ nv → v'.fl = v.fl) ∧
          (¬ nv ∨ k.fpctl.toNat / 2 ^ 8 % 2 = 0 → v'.best = v.best) ∧
          (nv → k.fpctl.toNat / 2 ^ 8 % 2 = 1 → v.best = none → v'.best = some ⟨e, k.id, 0x0D, flNV.toNat, 0, k.pc, 0⟩)
        (tc ≠ last → ∃ v', quantElem x k r row0 col0 tid e i v s = (.ok ([], v'), s) ∧ joins v' els) ∧
        (tc = last → ∃ v', joins v' [] ∧ quantElem x k r row0 col0 tid e i v s = writeBlock x k e tid tr.toNat b els v' s))) ∧
  (∀ (x : Strip) (k : Sink) (r : Res) (row0 col0 : ℤ) (tid : Nat) (v v' : Ev) (s s' : State) (a : Array (List Wr)),
      k.op = .vstc row0 col0 tid → evalStore x k r v s = (.ok (a, v'), s') →
      a.size = x.hi - x.lo ∧ ∃ st : Nat → Ev × State, st 0 = (v, s) ∧ st a.size = (v', s') ∧ ∀ i < a.size, ∃ ws, a[i]? = some ws ∧
        quantElem x k r row0 col0 tid (x.lo + i) i (st i).1 (st i).2 = (.ok (ws, (st (i + 1)).1), (st (i + 1)).2)) ∧
  (∀ (x : Strip) (k : Sink) (r : Res) (row0 col0 : ℤ) (tid : Nat) (v v1 v2 : Ev) (s s1 s2 : State) (a : Array (List Wr)) (ws : List Wr),
      k.op = .vstc row0 col0 tid → x.p.late = true → evalStore x k r v s = (.ok (a, v1), s1) →
      let kept := (partOf v1.parts k.id).blocks
      (kept = [] → ∃ v', evalSink x k r v s = (.ok ((a, []), v'), s1) ∧ v'.best = v1.best) ∧
      (∀ row b els, kept = [((row, b), els)] →
        writeBlock x k (x.lo - 1) tid row b els { v1 with parts := setPart v1.parts { partOf v1.parts k.id with blocks := [] } } s1 =
          (.ok (ws, v2), s2) → evalSink x k r v s = (.ok ((a, ws), v2), s2))) ∧
  (∀ p : Pass, qerrOf p = wd ((((p.sinks.filter Sink.isVstc).flatMap fun k => (partOf p.parts k.id).accs).map Prod.snd).foldl addF64 0)) ∧
  (∀ (w : Nat) (cs : List Nat), (w = 4 ∨ w = 8) → cs.length = 32 → (∀ c ∈ cs, c < 2 ^ w) →
      (packCodes w cs).length = 4 * w ∧ ∀ i < 32,
        cs.getD i 0 = ((packCodes w cs).getD (i * w / 8) 0).toNat / 2 ^ (if w = 4 then 4 * (i % 2) else 0) % 2 ^ w)

namespace Sys2Proof.Machine

/-- The scalar register that takes the result of a sink (R212, R256). -/
def Sink.resultReg (k : Sink) : Option Reg := match k.op with | .red _ d => some d | .vstcmp _ d => some d | _ => none

/-- The table Empty results (R213), placed in a register: member `m` of VRED over a stream of type `t`. -/
def emptyWord (m : Nat) (t : Ty) : Word :=
  let w := tyBits t
  if m = 11 then BitVec.allOnes 64
  else
    match tyFmt t with
    | some f => if m = 2 then wd (f.signBit true + f.infCode) else if m = 3 then wd f.infCode else 0
    | none =>
      if m = 2 then BitVec.ofInt 64 (-(2 ^ (w - 1))) else if m = 3 then wd (2 ^ (w - 1) - 1)
      else if m = 5 ∨ m = 6 then wd (2 ^ w - 1) else 0

end Sys2Proof.Machine

/-- R61, R144, R151, R152, R159, R169, R212, R213: FORCE turns the queued sinks, with the waypoints they reach, into a pass of the next serial
that runs or waits behind an older one, while fewer than two are in flight, and else waits; it waits too, the strand as it was, while an access
that the force itself makes must wait (a descriptor, an address that may trim it, a record of a pass of no element). A pass of no element leaves
at once: the passes in flight are those from before, its reductions' registers take their empty results, VSTCMP's 0, and every other register
is as it was. With an empty queue FORCE only advances. CONVOY raises the mark count; VSYNC waits for the passes in flight; VDROP unbinds a
name. -/
def Obligations.ForceConvoyVsyncVdrop : Prop :=
  ∀ (s : State) (vd : Reg), s.st.span ≠ .ctrl → s.suspended = false →
    let waits : Prop := ∃ u, force s = (.error .wait, u)
    (s.st.queue = [] → exec .force s = .next s.stepped) ∧
    (∀ u, force s = (.error .wait, u) → exec .force s = .next u ∧ u.st = s.st) ∧
    ((s.st.passes.filter Pass.inFlight).length < 2 → s.st.newPass.elems ≠ 0 → ffLoads s.st.newPass = [] →
      (∃ r s1, readDescs s.st s.st.newPass s = (.ok r, s1)) → ¬ waits) ∧
    ((s.st.passes.filter Pass.inFlight).length < 2 → s.st.newPass.elems = 0 → s.st.sr.wmsize.toNat % 2 ^ 32 = 0 → ¬ waits) ∧
    (s.st.queue ≠ [] → 2 ≤ (s.st.passes.filter Pass.inFlight).length → exec .force s = .next s) ∧
    (s.st.queue ≠ [] → (s.st.passes.filter Pass.inFlight).length < 2 → s.st.newPass.elems ≠ 0 →
      ∀ p df s1, readDescs s.st s.st.newPass s = (.ok (p, df), s1) → ¬ waits →
        ∃ t q, exec .force s = .next t ∧ t.st.passes = s.st.passes ++ [q] ∧ t.st.queue = [] ∧ t.st.serial = s.st.serial + 1 ∧
          t.st.pc = s.st.pc + 4 ∧ q.sinks.length = s.st.queue.length ∧ q.serial = s.st.serial ∧ q.forcePc = s.st.pc ∧ q.next = 0 ∧
          q.asked = s.st.newPass.vl ∧ q.context = s.st.sr.context ∧ q.ptbase = s.st.sr.ptbase ∧
          (q.st = .running ∨ q.st = .waiting) ∧ (s.st.passes = [] → q.st = .running) ∧ t.st.vnames = s.st.vnames ∧
          t.st.regs = s.st.regs ∧ (q.trimmed = false → q.sinks = s.st.queue ∧ t.st.sr = s.st.sr) ∧
          (q.trimmed = true → q.vrows = 1 ∧ q.vl < s.st.newPass.elems ∧ t.st.sr = { s.st.sr with vl := q.vl }) ∧
          (ffLoads s.st.newPass = [] → q.trimmed = false)) ∧
    (s.st.queue ≠ [] → (s.st.passes.filter Pass.inFlight).length < 2 → s.st.newPass.elems = 0 → ¬ waits →
      ∃ t, exec .force s = .next t ∧ t.st.queue = [] ∧ t.st.serial = s.st.serial + 1 ∧ t.st.pc = s.st.pc + 4 ∧
        t.st.vnames = s.st.vnames ∧ t.st.pnames = s.st.pnames ∧
        ((∀ k ∈ s.st.queue, k.isVstc = false) → t.st.sr = s.st.sr) ∧
        ((∀ p ∈ s.st.passes, p.serial ≠ s.st.serial) → t.st.passes = s.st.passes) ∧
        (∀ r : Reg, (∀ k ∈ s.st.queue, k.resultReg ≠ some r) → t.reg r = s.reg r) ∧
        (∀ k ∈ s.st.queue, ∀ d : Reg, k.resultReg = some d → d ≠ 0 → (∀ y ∈ s.st.queue, y.resultReg = some d → y = k) →
          (∀ b, k.op = .vstcmp b d → t.reg d = 0) ∧
          ∀ m, k.op = .red m d → ∀ src ty, k.data = [src] → s.st.newPass.wpTy src = ty →
            (m ∈ [11, 12] ∨ ty ∈ intTypes ++ floatTypes) → t.reg d = emptyWord m ty)) ∧
    exec .convoy s = .next ({ s with st := { s.st with mark := (s.st.mark + 1) % 2 ^ 32 } } : State).stepped ∧
    (s.passesInFlight = false → exec .vsync s = .next s.stepped) ∧ (s.passesInFlight = true → exec .vsync s = .next s) ∧
    (∃ t, exec (.vdrop vd) s = .next t ∧ t.st.pc = s.st.pc + 4 ∧ afind t.st.vnames vd.val = none ∧
      (∀ k, k ≠ vd.val → afind t.st.vnames k = afind s.st.vnames k) ∧ t.st.pnames = s.st.pnames ∧ t.st.queue = s.st.queue ∧
      t.st.passes = s.st.passes ∧ t.st.regs = s.st.regs ∧ t.st.sr = s.st.sr ∧ t.st.serial = s.st.serial ∧ t.mem = s.mem ∧ t.fab = s.fab ∧
      t.sys = s.sys ∧ t.bench = s.bench)

/-! ### Barriers, fences, the end of a strand -/

namespace Sys2Proof.Machine

/-- The group-table entry of a slot of the strand, open in its context (R116, R273). -/
def State.slotGroup (s : State) (g : Fin 4) (idx : Nat) (e : Group) : Prop :=
  s.st.groupIdx g.val = some idx ∧ ∃ c, s.ctx? s.st.ctx = some c ∧ afind c.groups idx = some e

/-- Counters of the strand's own arrivals in a slot, and where they started (R276). -/
def State.arrivals (s : State) (g : Fin 4) : Nat := s.st.arrive.getD g.val 0
def State.arrivalsFrom (s : State) (g : Fin 4) : Nat := s.st.start.getD g.val 0

end Sys2Proof.Machine

/-- R274, R276, R280: BAR.ARRIVE, at most one phase ahead, forces nothing when nothing is queued, leaves a marker behind the passes
and matrix operations issued before it, and counts one more arrival; BAR.WAIT waits until the phase has completed and then acquires;
BAR.TEST writes 1 with an acquire, or 0, to s31; a slot with no group, a wait or test before any arrival, and an arrival that would make the
count 2^32, is barrier misuse, cause 0x1A with EVA the word. With sinks queued BAR.ARRIVE forces them first, as EXIT does.
R60, R266, R267, R270, R279, R310: a fence with nothing queued and no pass in flight releases and then acquires at its scope and changes no
register but PC; at system scope it waits for what its agent's writes are owed; EXIT takes the strand from its front end, with its names,
waypoints, sinks and suspended passes, returns its save area to the pool and counts one more exit for its launch. While a pass is in flight
both wait, and so does an acquire or release while a write-back of its cluster is held. EXIT makes a pass of what is queued and waits for it,
also where another is suspended. In the group of each slot an exit withdraws the arrivals counted and adds one to EXITED, which closes the
entry when all have exited; where a marker of the slot is still to fire, the count waits for it.
When EXIT waits is the model's reading: log entry 22; when it is counted is log entry 114. Which other agents' writes a fence waits for is log entry 72. -/
def Obligations.BarriersFencesAndExit : Prop :=
  (∀ (s : State) (g : Fin 4), s.suspended = false →
    (∀ i w, i ∈ ([.barArrive g, .barWait g, .barTest g] : List Instr) → encode i = some w →
      s.ready [31] → s.st.groupIdx g.val = none → exec i s = .next (s.trapped 0x1A 0 (w.setWidth 64))) ∧
    ∀ idx e, s.slotGroup g idx e →
      let a := s.arrivals g
      let scope := Scope.ofCode e.scope
      let held : Prop := outer scope ∧ s.holdsDirty s.st.cluster = true
      (a < e.c + 2 → a + 1 < 2 ^ 32 → s.st.queue = [] →
        exec (.barArrive g) s = .next ({ s with st := { s.st with
          markers := s.st.markers ++ [⟨g.val, a, s.st.serial, s.mopsOf s.st⟩]
          arrive := s.st.arrive.set g.val (a + 1) } } : State).stepped) ∧
      (a < e.c + 2 → a + 1 < 2 ^ 32 → s.st.queue ≠ [] →
        (2 ≤ (s.st.passes.filter Pass.inFlight).length → exec (.barArrive g) s = .next s) ∧
        ((s.st.passes.filter Pass.inFlight).length < 2 →
          (∀ t, forceQueue s = (.ok (), t) → exec (.barArrive g) s = .next ({ t with st := { t.st with
            markers := t.st.markers ++ [⟨g.val, a, t.st.serial, t.mopsOf t.st⟩]
            arrive := t.st.arrive.set g.val (a + 1) } } : State).stepped) ∧
          (∀ t, forceQueue s = (.error .wait, t) → exec (.barArrive g) s = .next { t with st := s.st }))) ∧
      (a < e.c + 2 → a + 1 = 2 ^ 32 → ∀ w, encode (.barArrive g) = some w →
        exec (.barArrive g) s = .next (s.trapped 0x1A 0 (w.setWidth 64))) ∧
      (e.c + 2 ≤ a → exec (.barArrive g) s = .next s) ∧
      (a ≠ s.arrivalsFrom g → a ≤ e.c →
        (held → exec (.barWait g) s = .next s) ∧
        (¬ held → exec (.barWait g) s = .next (s.acquire s.st.cluster scope).stepped)) ∧
      (a ≠ s.arrivalsFrom g → e.c < a → exec (.barWait g) s = .next s) ∧
      (s.ready [31] → a ≠ s.arrivalsFrom g →
        (e.c < a → exec (.barTest g) s = .next (s.wrote 31 0)) ∧
        (a ≤ e.c → held → exec (.barTest g) s = .next s) ∧
        (a ≤ e.c → ¬ held → exec (.barTest g) s = .next ((s.acquire s.st.cluster scope).wrote 31 1))) ∧
      (a = s.arrivalsFrom g → ∀ i w, i ∈ ([.barWait g, .barTest g] : List Instr) → s.ready [31] → encode i = some w →
        exec i s = .next (s.trapped 0x1A 0 (w.setWidth 64)))) ∧
  (∀ (s : State), s.suspended = false → s.st.queue = [] →
      let cl := s.st.cluster
      ∀ q ∈ ([(.fenceC, .core), (.fenceK, .clu), (.fenceD, .dev), (.fenceS, .sys)] : List (Instr × Scope)),
        (s.passesInFlight = true → exec q.1 s = .next s) ∧
        (s.passesInFlight = false →
          (outer q.2 → s.holdsDirty cl = true → exec q.1 s = .next s) ∧
          ((outer q.2 → s.holdsDirty cl = false) →
            ((q.2 = .sys → s.owedTo s.who.owner = []) →
              exec q.1 s = .next (((s.release cl q.2).share s.who.owner).acquire cl q.2).stepped) ∧
            (q.2 = .sys → s.owedTo s.who.owner ≠ [] → ∀ t, releaseAt cl s.who.owner .sys s = (.error .wait, t) →
              exec q.1 s = .next t)))) ∧
  (∀ (s t : State), s.st.queue ≠ [] → (s.st.passes.filter Pass.inFlight).length < 2 → forceQueue s = (.ok (), t) →
      (t.passesInFlight = true → exec .exit s = .next t) ∧
      (0 < s.st.newPass.elems → t.passesInFlight = true ∧
        ∃ p, p ∈ t.st.passes ∧ p.serial = s.st.serial ∧ p.sinks.map Sink.id = s.st.queue.map Sink.id ∧ p.inFlight = true)) ∧
  (∀ (s : State), s.st.queue = [] →
      (s.passesInFlight = true → exec .exit s = .next s) ∧
      (s.passesInFlight = false →
        ∃ t, exec .exit s = .next t ∧ t.st.stand = .none ∧ t.st.queue = [] ∧ t.st.passes = [] ∧ t.st.wps = [] ∧
          t.st.vnames = [] ∧ t.st.pnames = [] ∧ t.st.sid = s.st.sid ∧
          (∀ c ∈ t.sys.ctxs, c.num = s.st.ctx → s.st.saveIdx ∉ c.areas) ∧
          (∀ o ∈ t.sys.owed, o.owner = s.who.owner → o.shared = true) ∧
          (∀ (g : Fin 4) idx e, s.slotGroup g idx e → (∀ h : Fin 4, h ≠ g → s.st.groupIdx h.val ≠ some idx) →
            let a := s.arrivals g
            let x : Group := { e with
              arrc := e.arrc - (if e.c < a then 1 else 0)
              arrn := e.arrn - (if e.c + 1 < a then 1 else 0)
              exited := e.exited + 1 }
            (s.st.markers = [] →
              (x.n ≤ x.exited → t.groupAt s.st.ctx idx = none) ∧
              (x.arrc + x.exited < x.n → t.groupAt s.st.ctx idx = some x) ∧
              (x.exited < x.n → x.n ≤ x.arrc + x.exited → x.arrn + x.exited < x.n →
                t.groupAt s.st.ctx idx = some { x with c := x.c + 1, arrc := x.arrn, arrn := 0 })) ∧
            (∀ m, s.st.markers = [m] → m.slot = g.val → s.markerReady s.st m = false →
              ((∀ p ∈ s.st.passes, m.serial ≤ p.serial) → t.st.markers = [m] ∧ t.groupAt s.st.ctx idx = some e) ∧
              ((∃ p ∈ s.st.passes, p.serial < m.serial) → t.st.markers = []))) ∧
          t.sys.launches = s.sys.launches.map (fun l => if l.id = s.st.launch then { l with exits := l.exits + 1 } else l)))

/-! ### The matrix engine at issue -/

/-- R29, R227, R243, R246: MTARGET, MSHAPE, MSLOT and MSYNC on an MCC; on a core each is illegal. A target mask with a bit beyond the
live cores is a matrix fault of detail 2, a shape outside 1 to 256 of detail 1, a slot entry that is out of range or would give the
table more than 8 ASIDs of detail 9. MSYNC waits for the strand's own operations, then reads and clears the overflow bits of its
tensor id. -/
def Obligations.MatrixSetup : Prop :=
  ∀ (s : State) (d a b : Reg),
    let x := (s.reg a).toNat
    let y := (s.reg b).toNat
    let cl := s.st.cluster
    let fault (k : Nat) (i : Instr) : Prop := ∀ w, encode i = some w → exec i s = .next (s.trapped 0x12 k (w.setWidth 64))
    (s.st.span ≠ .ctrl → ∀ i w, i ∈ ([.mtarget a, .mshape a b, .mslot d a b, .msync d a, .mma d a b, .mzero d b] : List Instr) →
      encode i = some w → exec i s = .next (s.trapped 1 0 (w.setWidth 64))) ∧
    (s.st.span = .ctrl →
      (x < 2 ^ min 24 (s.cluster cl).logical.length →
        exec (.mtarget a) s = .next ({ s with st := { s.st with mtarget := BitVec.ofNat 24 x } } : State).stepped) ∧
      (2 ^ min 24 (s.cluster cl).logical.length ≤ x → fault 2 (.mtarget a)) ∧
      (1 ≤ x → x ≤ 256 → 1 ≤ y → y ≤ 256 →
        exec (.mshape a b) s = .next ({ s with st := { s.st with mm := x, mn := y } } : State).stepped) ∧
      (¬ (1 ≤ x ∧ x ≤ 256 ∧ 1 ≤ y ∧ y ≤ 256) → fault 1 (.mshape a b)) ∧
      (s.st.mode = .s →
        (x ≤ 15 → y < 2 ^ 17 → (slotAsids (aset (s.cluster cl).slots x y)).length ≤ 8 →
          exec (.mslot d a b) s = .next (((s.latchSlot cl).modCluster cl fun c => { c with slots := aset c.slots x y }).wrote d
            (wd (aget 0 (s.cluster cl).slots x)))) ∧
        (15 < x ∨ 2 ^ 17 ≤ y → fault 9 (.mslot d a b)) ∧
        (8 < (slotAsids (aset (s.cluster cl).slots x y)).length → fault 9 (.mslot d a b))) ∧
      (2 ^ 12 ≤ x → exec (.msync d a) s = .next (s.trapped 0x0F 0 (s.reg a))) ∧
      (x < 2 ^ 12 → s.mopsOf s.st ≠ [] → exec (.msync d a) s = .next s) ∧
      (x < 2 ^ 12 → s.mopsOf s.st = [] →
        ∃ t v, exec (.msync d a) s = .next t ∧ t.st = (s.wrote d v).st ∧ t.mem = s.mem ∧ t.sys = s.sys ∧ t.bench = s.bench ∧
          (∀ k < 24, v.getLsbD k = decide ((s.st.ctx, k, x) ∈ (s.cluster cl).overflow)) ∧
          (∀ k, (s.st.ctx, k, x) ∉ (t.cluster cl).overflow) ∧
          (∀ o, o ∈ (t.cluster cl).overflow ↔ o ∈ (s.cluster cl).overflow ∧ ¬ (o.1 = s.st.ctx ∧ o.2.2 = x))))

namespace Sys2Proof.Machine

/-- The types of A and B, and the code of C's, that stand in one row of the table Matrix type pairings (R229). -/
def pairedTypes (a b c : Nat) : Prop :=
  ∃ x y, Ty.ofCode a = some x ∧ Ty.ofCode b = some y ∧
    ((x = .f64 ∧ y = .f64 ∧ c = 7) ∨ (x = .f32 ∧ y = .f32 ∧ c = 6) ∨ (x ∈ [.f16, .bf16] ∧ y ∈ [.f16, .bf16] ∧ c = 6) ∨
     (x ∈ [.e4m3, .e5m2, .ch8, .e2m1, .ch4] ∧ y ∈ [.e4m3, .e5m2, .ch8, .e2m1, .ch4] ∧ c = 6) ∨ (x = .i8 ∧ y = .i8 ∧ c = 2))

/-- An address of the cluster window, and an ordinary one: canonical and outside it (R16, R62). -/
def inClusterWindow (a : Nat) : Prop := a / 2 ^ 29 = 0x7FFF0000000000 / 2 ^ 29
def ordinaryAddress (a : Nat) : Prop := ¬ inClusterWindow a ∧ ∀ i, 54 < i → i < 64 → a.testBit i = a.testBit 54

/-- R230 for A, and for a local B: each array lies in a scratchpad, of a live logical core or, for a local B, of the self alias, wholly below
offset 0x40_0000; the level tables have an ordinary address. -/
def operandPlaced (live : Nat) (isLocal : Bool) (d : Desc) : Prop :=
  let array (base len : Nat) : Prop := inClusterWindow base ∧
    (if isLocal then base / 2 ^ 24 % 32 = 31 else base / 2 ^ 24 % 32 < live) ∧ base % 2 ^ 24 + len ≤ 0x400000
  array d.elembase ((d.rows - 1) * d.pitch + d.rowBytes) ∧
  (d.ty ∈ [11, 12] → array d.hdrbase ((d.rows - 1) * d.hpitch + 4 * d.blocks)) ∧ ordinaryAddress d.poolbase

/-- R230 for C: under the self alias, in the accumulator stores, at multiples of 64. -/
def resultPlaced (d : Desc) : Prop :=
  inClusterWindow d.elembase ∧ d.elembase / 2 ^ 24 % 32 = 31 ∧ 0x800000 ≤ d.elembase % 2 ^ 24 ∧ d.elembase % 64 = 0 ∧ d.pitch % 64 = 0 ∧
  d.elembase % 2 ^ 24 + ((d.rows - 1) * d.pitch + d.rowBytes) ≤ 0x1000000

end Sys2Proof.Machine

/-- R227 to R231, R237, R240, R243, R245, R246: an MMA or MZERO whose descriptors are valid, of a legal pairing, placed as R230 asks and
cover its tile joins the MCC's queue with everything it captured when fewer than 32 operations stand there, and waits while 32 do. In this
order: reserved bits that are set are a matrix fault of detail 4, no target core one of detail 3, a descriptor that is refused the fault
of its read, types that no row of the table pairs (for MZERO, a C that is not i32, f32 or f64) one of detail 5, a misplaced operand (a level
table in the window too) one of detail 6, a tile that leaves C one of detail 7. -/
def Obligations.MatrixOperations : Prop :=
  ∀ (s : State) (d a b : Reg), s.st.span = .ctrl →
    let x := (s.reg d).toNat
    let y := (s.reg a).toNat
    let z := (s.reg b).toNat
    let cl := s.st.cluster
    let tid (k : Nat) : Nat := x / 2 ^ (12 * k) % 2 ^ 12
    let faultIn (u : State) (k : Nat) (i : Instr) : Prop :=
      ∀ w, encode i = some w → exec i s = .next ((u.at s.st.pc).trapped 0x12 k (w.setWidth 64))
    let took (i : Instr) (u : State) (o : MOp) : Prop :=
      ∃ t, exec i s = .next t ∧ (t.cluster cl).mops = (u.cluster cl).mops ++ [{ o with id := u.sys.nextMop }] ∧
        t.st = s.stepped.st ∧ t.mem = u.mem ∧ t.sys = { u.sys with nextMop := u.sys.nextMop + 1 } ∧ t.bench = u.bench
    let op (zero : Bool) (tids : Nat × Nat × Nat) (ds : List Byte × List Byte × List Byte) (y : Nat) (acc bloc : Bool) : MOp :=
      { id := 0, sid := s.st.sid, ctx := s.st.ctx, launch := s.st.launch, pc := s.st.pc, zero := zero,
        asid := s.st.sr.context.toNat % 2 ^ 16, context := s.st.sr.context, ptbase := s.st.sr.ptbase,
        user := decide (s.st.mode = .u), tids := tids, descs := ds, acc := acc, bloc := bloc, row0 := y % 2 ^ 16,
        k0 := y / 2 ^ 16 % 2 ^ 16, col0 := y / 2 ^ 32 % 2 ^ 16, crow0 := z / 2 ^ 16 % 2 ^ 16, ccol0 := z / 2 ^ 32 % 2 ^ 16,
        kcnt := z % 2 ^ 16, m := s.st.mm, n := s.st.mn, mask := s.st.mtarget, started := false, kdone := 0, heads := [], accs := [],
        failed := 0, done := false }
    let enters (i : Instr) (u : State) (o : MOp) (paired placed : Prop) : Prop :=
      let c := parseDesc o.descs.2.2
      let fits := o.crow0 + o.m ≤ c.rows ∧ o.ccol0 + o.n ≤ c.cols
      (¬ paired → faultIn u 5 i) ∧ (paired → ¬ placed → faultIn u 6 i) ∧ (paired → placed → ¬ fits → faultIn u 7 i) ∧
      (paired → placed → fits →
        (32 ≤ (u.cluster cl).mops.length → exec i s = .next u) ∧ ((u.cluster cl).mops.length < 32 → took i u o))
    let refused (i : Instr) (k : Nat) (u : State) : Prop :=
      ∀ c e v t, mxDesc k u = (.error (.trap c e v), t) → exec i s = .next ((t.at s.st.pc).trapped c e v)
    let mma := Instr.mma d a b
    let mzero := Instr.mzero d b
    (2 ^ 38 ≤ x ∨ 2 ^ 48 ≤ y ∨ 2 ^ 48 ≤ z → faultIn s 4 mma) ∧
    (x < 2 ^ 38 → y < 2 ^ 48 → z < 2 ^ 48 →
      (s.st.mtarget = 0 → faultIn s 3 mma) ∧
      (s.st.mtarget ≠ 0 → refused mma (tid 0) s ∧
        ∀ ba s1, mxDesc (tid 0) s = (.ok ba, s1) → refused mma (tid 1) s1 ∧
        ∀ bb s2, mxDesc (tid 1) s1 = (.ok bb, s2) → refused mma (tid 2) s2 ∧
        ∀ bc s3, mxDesc (tid 2) s2 = (.ok bc, s3) →
          let bloc := decide (x / 2 ^ 36 % 2 = 1)
          let live := (s.cluster cl).logical.length
          enters mma s3 (op false (tid 0, tid 1, tid 2) (ba, bb, bc) y (decide (x / 2 ^ 37 % 2 = 1)) bloc)
            (pairedTypes (parseDesc ba).ty (parseDesc bb).ty (parseDesc bc).ty)
            (operandPlaced live false (parseDesc ba) ∧ operandPlaced live bloc (parseDesc bb) ∧ resultPlaced (parseDesc bc)))) ∧
    (x % 2 ^ 24 ≠ 0 ∨ 2 ^ 36 ≤ x ∨ z % 2 ^ 16 ≠ 0 ∨ 2 ^ 48 ≤ z → faultIn s 4 mzero) ∧
    (x % 2 ^ 24 = 0 → x < 2 ^ 36 → z % 2 ^ 16 = 0 → z < 2 ^ 48 →
      (s.st.mtarget = 0 → faultIn s 3 mzero) ∧
      (s.st.mtarget ≠ 0 → refused mzero (tid 2) s ∧
        ∀ bc s1, mxDesc (tid 2) s = (.ok bc, s1) →
          enters mzero s1 (op true (0, 0, tid 2) ([], [], bc) 0 false false) ((parseDesc bc).ty ∈ [2, 6, 7])
            (resultPlaced (parseDesc bc))))

/-! ### Copy jobs, descriptors, shoot-downs and launches -/

namespace Sys2Proof.Machine

/-- The strand with an XCOPY in progress, or none. -/
def State.copyingAs (s : State) (c : Option Copying) : State := { s with st := { s.st with copying := c } }

end Sys2Proof.Machine

/-- R76, R77, R80, R81, R91: XCOPY reads and checks its card, marks the completion word PENDING, and is accepted with a handle while its
cluster has fewer than 128 jobs that have not completed; while it has 128 it waits, and goes on from what it has done: the card is not read, nor
the word written, again. A card that is not legal raises cause 0x19 with EVA the card, and a completion word that cannot be written the trap of
that write. XPOLL reads a
completion word as it stands, XWAIT once it is no longer PENDING, with cause 0x19 for a FAULT. XCANCEL ends a job of its context where it
has come to, with status 4; of a handle that names no job it only advances.
The shape of a handle, and that a job whose data has ended is cancelled too, are the model's choices: log entries 13 and 104. What an XCOPY that
waits keeps is its reading: log entry 76. -/
def Obligations.CopyInstructions : Prop :=
  ∀ (s : State) (d a : Reg), s.ready [d, a] →
    let va := s.reg a
    let card (ws : List Word) := parseCard ws
    let onward (u : State) (ws : List Word) (ds : List Byte) : Prop :=
      let jobs := (u.cluster s.st.cluster).jobs
      (128 ≤ (jobs.filter fun j => j.st ≠ .settled).length → exec (.xcopy d a) s = .next u) ∧
      ((jobs.filter fun j => j.st ≠ .settled).length < 128 →
        ∃ t j, exec (.xcopy d a) s = .next t ∧ (t.cluster s.st.cluster).jobs = jobs ++ [j] ∧ j.st = .queued ∧ j.ctx = s.st.ctx ∧
          j.card = ws ∧ j.cardVa = va ∧ j.desc = ds ∧ j.context = s.st.sr.context ∧ j.ptbase = s.st.sr.ptbase ∧ j.done = 0 ∧
          j.handle.toNat % 2 ^ 33 = u.sys.nextJob % 2 ^ 32 + 1 ∧ t.st = ((u.copyingAs none).wrote d j.handle).st ∧ t.mem = u.mem)
    let posts (u : State) (c : Copying) : Prop :=
      ∀ t,
        (∀ k e v, storeAt s.who (wd (card c.card).cwa) 8 0 u = (.error (.trap k e v), t) →
          exec (.xcopy d a) s = .next ((t.at s.st.pc).trapped k e v)) ∧
        (storeAt s.who (wd (card c.card).cwa) 8 0 u = (.error .wait, t) → exec (.xcopy d a) s = .next t) ∧
        (storeAt s.who (wd (card c.card).cwa) 8 0 u = (.ok (), t) →
          onward (t.copyingAs (some { c with posted := true })) c.card c.desc)
    let fresh : Prop := ∀ c, s.st.copying = some c → c.pc ≠ s.st.pc
    (fresh → va.toNat % 64 ≠ 0 → exec (.xcopy d a) s = .next (s.trapped 4 0 va)) ∧
    (fresh → va.toNat % 64 = 0 → ∀ ws s1 ds s2, loadDwords s.who va 8 s = (.ok ws, s1) →
      (if (card ws).kind = 3 then readDesc s.who s.st.sr.tdtbase (card ws).tid else pure [] : M (List Byte)) s1 = (.ok ds, s2) →
      let legal := (card ws).ok (parseDesc ds) = true ∧ ((card ws).kind = 3 → descValid (parseDesc ds) .chunked none = true)
      (¬ legal → exec (.xcopy d a) s = .next (s2.trapped 0x19 0 va)) ∧
      (legal →
        let c : Copying := ⟨s.st.pc, ws, ds, true, false⟩
        posts ((s2.share s.who.owner).copyingAs (some c)) c)) ∧
    (∀ c, s.st.copying = some c → c.pc = s.st.pc → c.released = true →
      (c.posted = false → posts s c) ∧ (c.posted = true → onward s c.card c.desc)) ∧
    (∀ v s1, readCompletion va s = (.ok v, s1) →
      exec (.xpoll d a) s = .next (s1.wrote d (wd v)) ∧
      (v % 256 ≠ 0 → v % 256 ≠ 3 → exec (.xwait d a) s = .next (s1.wrote d (wd v))) ∧
      (v % 256 = 0 → exec (.xwait d a) s = .next s1) ∧
      (v % 256 = 3 → ∀ e s2, loadAt s.who (va + 8) 8 s1 = (.ok e, s2) → exec (.xwait d a) s = .next (s2.trapped 0x19 0 (wd e)))) ∧
    ((∀ c ∈ s.fab.clusters, ∀ j ∈ c.2.jobs, j.handle ≠ va ∨ j.ctx ≠ s.st.ctx) → exec (.xcancel a) s = .next s.stepped) ∧
    (∀ c, (s.fab.clusters.find? fun c => (c.2.job? va).any fun j => j.ctx = s.st.ctx) = some c →
      ∀ j, c.2.job? va = some j → j.cancelled.done = j.done ∧ j.cancelled.status = 4 ∧
        ∀ t, completeJob c.1 j.cancelled (j.who c.1) s = (.ok none, t) → exec (.xcancel a) s = .next t.stepped)

/-- R31, R48, R60, R74, R75, R188, R312: TDINV and TDINVALL release at device scope and drop exactly the cached descriptors and tables they name, and wait
while their release must; TLBI in mode S completes, and removes from every translation cache exactly the entries it names: with S[B] = 0
those of the ASID that are not global, with 2^64 - 1 all, else those of the ASID, or global, that meet the range; of a walk cache's pointers
those of the ASID, all, or those that meet the range. CACHEWB waits for the passes in flight, then writes its range back
page by page, waits for the peers that it asked, and goes on with nothing more asked; a page that does not translate raises its trap. Of a
local page every line of the range that is dirty in the issuing cluster or in the memory-side cache stands in the array, and is clean in both; a
peer is asked, a host page and the cluster window are passed over.
That TLBI is done at once, and not while a write-back is held, and how CACHEWB goes page by page and asks a peer are the model's readings:
log entries 23 and 24. -/
def Obligations.InvalidationsAndWriteBack : Prop :=
  (∀ (s : State) (a : Reg),
      let r := (s.release s.st.cluster .dev).share s.who.owner
      let asid := s.st.sr.context.toNat % 2 ^ 16
      let drops (i : Instr) (p : DescEntry → Prop) : Prop :=
        (s.holdsDirty s.st.cluster = true → exec i s = .next s) ∧
        (s.holdsDirty s.st.cluster = false →
          ∃ t, exec i s = .next t ∧ t.st = s.stepped.st ∧ t.fab = s.fab ∧ t.sys = r.sys ∧ t.bench = s.bench ∧
            t.mem.hbm = r.mem.hbm ∧ t.mem.caches = r.mem.caches ∧
            ∀ k e, (∃ l, (k, l) ∈ t.mem.descs ∧ e ∈ l) ↔ (∃ l, (k, l) ∈ s.mem.descs ∧ e ∈ l) ∧ ¬ p e)
      (s.ready [a] → 2 ^ 12 ≤ (s.reg a).toNat → exec (.tdinv a) s = .next (s.trapped 0x0F 0 (s.reg a))) ∧
      (s.ready [a] → (s.reg a).toNat < 2 ^ 12 → drops (.tdinv a) fun e => e.asid = asid ∧ e.tid = (s.reg a).toNat) ∧
      drops .tdinvall fun e => e.asid = asid) ∧
  (∀ (s : State) (a b : Reg), s.st.mode = .s → s.ready [a, b] →
      let asid := s.st.sr.context.toNat % 2 ^ 16
      let x := (s.reg a).toNat
      let y := (s.reg b).toNat
      let held : Prop := ∃ c ∈ s.mem.caches, s.holdsDirty c.1 = true
      let meets (page bits : Nat) : Prop :=
        ∃ v, page * 2 ^ bits ≤ v ∧ v < (page + 1) * 2 ^ bits ∧ x ≤ v ∧ v < x + y ∧ v < 2 ^ 64
      let hit (e : TlbEntry) : Prop :=
        if y = 0 then e.glob = false ∧ e.asid = asid
        else if y = 2 ^ 64 - 1 then True
        else (e.glob = true ∨ e.asid = asid) ∧ meets e.page e.bits
      let pointerHit (e : WalkEntry) : Prop :=
        if y = 0 then e.asid = asid else if y = 2 ^ 64 - 1 then True else meets e.page e.bits
      (held → exec (.tlbi a b) s = .next s) ∧
      (¬ held → ∃ t, exec (.tlbi a b) s = .next t ∧ t.st = s.stepped.st ∧ t.bench = s.bench ∧ t.fab = s.fab ∧ t.sys = s.sys ∧
        t.mem.win = s.mem.win ∧ (∀ p, p ∈ t.mem.past → ¬ hit p.2) ∧
        (∀ p ∈ s.mem.past, hit p.2 → lfMt p.2.leaf.toNat = 0 → ∀ l ∈ t.cache p.1,
          lfFrame p.2.leaf.toNat * 2 ^ 16 ≤ l.tag * 64 → l.tag * 64 < lfFrame p.2.leaf.toNat * 2 ^ 16 + 2 ^ p.2.bits → l.dirty = 0) ∧
        (∀ k e, (∃ l, (k, l) ∈ t.mem.walks ∧ e ∈ l) ↔ (∃ l, (k, l) ∈ s.mem.walks ∧ e ∈ l) ∧ ¬ pointerHit e) ∧
        ∀ k e, (∃ l, (k, l) ∈ t.mem.tlbs ∧ e ∈ l) ↔ (∃ l, (k, l) ∈ s.mem.tlbs ∧ e ∈ l) ∧ ¬ hit e)) ∧
  (∀ (s : State) (c pa n : Nat), s.mem.sound → 0 < n →
      let t := s.writeToArray c pa n
      t.st = s.st ∧ t.fab = s.fab ∧ t.sys = s.sys ∧ t.bench = s.bench ∧ t.mem.win = s.mem.win ∧
      ∀ x,
        (pa / 64 ≤ x / 64 → x / 64 ≤ (pa + n - 1) / 64 →
          cellRead t.mem.array x = cellRead t.mem.hbm x ∧ x / 64 ∉ t.mem.msc ∧ (∀ l ∈ t.cache c, l.tag = x / 64 → l.dirty = 0) ∧
          ∀ l ∈ s.cache c, l.tag = x / 64 → l.dirtyAt (x % 64) ≠ 0 → standsIn t s l (x % 64)) ∧
        ((x / 64 < pa / 64 ∨ (pa + n - 1) / 64 < x / 64) → ∀ k, t.devByte k x = s.devByte k x)) ∧
  (∀ (s : State) (w : Who) (lo hi k : Nat), lo < hi → hi ≤ 2 ^ 64 →
      let va := wd lo
      let stop := min hi ((lo / 2 ^ 16 + 1) * 2 ^ 16)
      let rest := writeBackPages w stop hi k
      (inClusterWindow lo → writeBackPages w lo hi (k + 1) s = writeBackPages w ((lo / 2 ^ 29 + 1) * 2 ^ 29) hi k s) ∧
      (¬ inClusterWindow lo → canonical va = false → writeBackPages w lo hi (k + 1) s = (.error (.trap 0x1D 0 va), s)) ∧
      (¬ inClusterWindow lo → canonical va = true → ∀ r t, leafOf w .load va s = (r, t) →
        (∀ e, r = .error e → writeBackPages w lo hi (k + 1) s = (.error e, t)) ∧
        ∀ bits leaf, r = .ok (bits, leaf) →
          let pa := leafPa bits leaf va
          (lfMt leaf = 0 → t.isStalled pa = false →
            writeBackPages w lo hi (k + 1) s = rest (t.writeToArray w.cluster pa (stop - lo))) ∧
          (lfMt leaf = 0 → t.isStalled pa = true → writeBackPages w lo hi (k + 1) s = (.error .wait, t)) ∧
          (lfMt leaf = 2 → ∀ u, askPeer w (lfPeer leaf) pa (stop - lo) t = (.ok (), u) →
            writeBackPages w lo hi (k + 1) s = rest u) ∧
          (lfMt leaf = 1 → writeBackPages w lo hi (k + 1) s = rest t))) ∧
  (∀ (s : State) (a b : Reg), s.ready [a, b] →
      let lo := (s.reg a).toNat
      let hi := min (lo + (s.reg b).toNat) (2 ^ 64)
      (s.passesInFlight = true → exec (.cachewb a b) s = .next s) ∧
      (s.passesInFlight = false →
        (s.reg b = 0 → s.st.asks = [] → exec (.cachewb a b) s = .next s.stepped) ∧
        ∀ t, (writeBackPages s.who lo hi (hi / 2 ^ 16 - lo / 2 ^ 16 + 2) s = (.ok (), t) →
            exec (.cachewb a b) s = .next (if ∃ k ∈ t.st.asks, k.acked = false then t
              else ({ t with st := { t.st with asks := [] } } : State).stepped)) ∧
          (writeBackPages s.who lo hi (hi / 2 ^ 16 - lo / 2 ^ 16 + 2) s = (.error .wait, t) → exec (.cachewb a b) s = .next t) ∧
          (∀ d pa n, (∃ k ∈ s.st.asks, k.peer = d ∧ k.pa = pa ∧ k.len = n) → askPeer s.who d pa n s = (.ok (), s)) ∧
          (∀ d pa n, (∀ k ∈ s.st.asks, ¬ (k.peer = d ∧ k.pa = pa ∧ k.len = n)) → peerFails d s = (.ok false, s) →
            askPeer s.who d pa n s = (.ok (), { s with
              st := { s.st with asks := s.st.asks ++ [⟨d, pa, n, false⟩] }
              sys := { s.sys with outbox := s.sys.outbox ++ [.peerWriteBack d pa n] } })) ∧
          (∀ c e v, writeBackPages s.who lo hi (hi / 2 ^ 16 - lo / 2 ^ 16 + 2) s = (.error (.trap c e v), t) →
            exec (.cachewb a b) s = .next ((t.at s.st.pc).trapped c e v))))

namespace Sys2Proof.Machine

/-- The strand with a LAUNCH in progress, or none. -/
def State.launchingAs (s : State) (l : Option Launching) : State := { s with st := { s.st with launching := l } }

end Sys2Proof.Machine

/-- R60, R194, R283, R289, R295: LAUNCH reads its record once, draws the base identity of the child from what DRAW then is, moves DRAW on
by 4, and releases at device scope. While the release must wait, and then while the intake is full, it waits; executed again it goes on
from what it has read and drawn, and reads, draws and releases nothing twice. Then a record that R283 rejects leaves S[D] = 0 once its
completion record is written, and one that is accepted stands last in the intake with a new handle, which S[D] takes.
The shape of a handle is the model's choice, and what a LAUNCH that waits keeps its reading: log entries 13 and 76. -/
def Obligations.LaunchInstruction : Prop :=
  ∀ (s : State) (d a : Reg), s.ready [d, a] →
    let va := s.reg a
    let cl := s.st.cluster
    let goes (u : State) (l : Launching) : Prop :=
      let r := parseRec l.rcd
      (u.intakeFull = true → exec (.launch d a) s = .next u) ∧
      (u.intakeFull = false → ∀ c, u.ctx? s.st.ctx = some c →
        (u.rejects c r = true → ∀ t,
          (rejectRec c r u = (.ok (), t) → exec (.launch d a) s = .next ((t.launchingAs none).wrote d 0)) ∧
          (rejectRec c r u = (.error .wait, t) → exec (.launch d a) s = .next t)) ∧
        (u.rejects c r = false →
          ∃ t x, exec (.launch d a) s = .next t ∧ t.sys.launches = u.sys.launches ++ [x] ∧ x.id = u.sys.nextLaunch ∧
            t.sys.nextLaunch = u.sys.nextLaunch + 1 ∧ x.ctx = c.num ∧ x.entry = r.entry ∧ x.param = r.param ∧ x.bounds = r.bounds ∧
            x.placed = 0 ∧ x.exits = 0 ∧ x.cra = r.cra ∧ x.waitaddr = r.waitaddr ∧ x.handle.toNat % 2 ^ 33 = x.id % 2 ^ 32 + 1 ∧
            x.base = l.base ∧ x.clNum = [] ∧ t.st = ((u.launchingAs none).wrote d x.handle).st ∧ t.mem = u.mem))
    let onward (u : State) (l : Launching) : Prop :=
      (u.holdsDirty cl = true → exec (.launch d a) s = .next u) ∧
      (u.holdsDirty cl = false →
        goes ((((u.release cl .dev).share s.who.owner)).launchingAs (some { l with released := true })) l)
    ((∀ l, s.st.launching = some l → l.pc ≠ s.st.pc) →
      (va.toNat % 128 ≠ 0 → exec (.launch d a) s = .next (s.trapped 4 0 va)) ∧
      (va.toNat % 128 = 0 → ∀ s1,
        (∀ c e v, loadDwords s.who va 16 s = (.error (.trap c e v), s1) →
          exec (.launch d a) s = .next ((s1.at s.st.pc).trapped c e v)) ∧
        ∀ ws, loadDwords s.who va 16 s = (.ok ws, s1) →
          let l : Launching := ⟨s.st.pc, ws, childBase s.st.sr, false⟩
          let s2 : State := { s1 with st := { s1.st with sr := { s1.st.sr with draw := s1.st.sr.draw + 4 } } }
          onward (s2.launchingAs (some l)) l)) ∧
    (∀ l, s.st.launching = some l → l.pc = s.st.pc → (l.released = true → goes s l) ∧ (l.released = false → onward s l))

/-! ### Passes, deferred traps and interrupts -/

/-- R71, R113, R144, R152, R161, R162, R164, R167, R168, R212, R214, R219, R261: the oldest pass, if it waited, starts with its checks; a running pass
without a fault takes its turn, its checks or, once they are made, a strip, which either goes through or must wait, and then only what it sent
stays. Its checks trim it to fewer elements, and VL with it, or leave its shape, and find the fault of R144, R159 or R162. A strip commits all of its elements, a multiple of
the live lanes, or has a fault and commits none, and then no window, host or peer byte is written. It evaluates the pass's nodes, then its sinks, then the chunks that it
drew on; with no fault it performs exactly their writes, and keeps their partial state and flags; else the pass has the fault that wins. A pass that is done, with its Waymark
records written, leaves its results in the registers its sinks name, its errors in QERR and its flags, with those of Canon (R214), in FPFLAGS,
and is gone, and its row sinks' values stand in their slots; one with an enabled trap that shows itself only then has its fault.
That one event is one strip, how a trim is found, what an event does when it cannot happen, and a trap found at the end, are the model's
choices: log entries 1, 7, 18, 49 and 112. -/
def Obligations.PassEvents : Prop :=
  ∀ (s : State), s.runs s.st = true →
    (∀ p rest, s.st.passes = p :: rest → p.st = .waiting →
      let unread : Prop := p.fault = none ∧ p.descs = [] ∧ ∃ x ∈ p.nodes, (x.tensor p.asked).isSome = true
      let p0 : Pass := { p with st := .running, fault := none }
      (unread → exec .passStart s = .next { s with st := { s.st with passes := { p with st := .running, checked := false } :: rest } }) ∧
      (¬ unread →
        (∀ u, checkPass 0 p0 p.fault s = (.ok (), u) → exec .passStart s = .next u) ∧
        (ffLoads p = [] → wholeFault s.st { p0 with base := p.next } p.fault = none →
          exec .passStart s = .next { s with st := { s.st with passes := { p0 with base := p.next, checked := true } :: rest } }))) ∧
    (∀ k p, s.st.passes[k]? = some p → p.st = .running → p.fault = none → (p.checked = false ∨ p.remains = true) →
      let turn : M Unit :=
        if p.checked then runStrip k p else do
          let (q, df) ← readDescs s.st p
          checkPass k q df
      ∀ u, (turn s = (.ok (), u) → exec (.stripCommit k) s = .next u) ∧
        (∀ e, turn s = (.error e, u) → exec (.stripCommit k) s = .next
          { s with sys := { s.sys with pri := u.sys.pri, owed := u.sys.owed, outbox := u.sys.outbox } })) ∧
    (∀ k p, s.st.passes[k]? = some p → p.st = .running → p.fault = none → p.checked = false →
      ∀ q df u, readDescs s.st p s = (.ok (q, df), u) →
        (∀ f, ffLoads q = [] → wholeFault s.st { q with base := q.next } df = some f →
          exec (.stripCommit k) s = .next { u with st := { u.st with
            passes := u.st.passes.set k { q with base := q.next, fault := some f, faulted := true, checked := false } } })) ∧
    (∀ k p df u, s.st.passes[k]? = some p → checkPass k p df s = (.ok (), u) →
      ∃ q, u.st.passes = s.st.passes.set k q ∧ q.base = p.next ∧ q.next = p.next ∧ q.parts = p.parts ∧ q.flags = p.flags ∧
        (q.checked = true ↔ q.fault = none) ∧ u.st.regs = s.st.regs ∧
        ((q.vl = p.vl ∧ q.vrows = p.vrows ∧ u.st.sr = s.st.sr) ∨
          (0 < q.vl ∧ q.vrows = 1 ∧ q.trimmed = true ∧ u.st.sr = { s.st.sr with vl := q.vl } ∧ ∀ w ∈ q.wps, w.vl = q.vl ∧ w.vrows = 1))) ∧
    (∀ k p u, s.st.passes[k]? = some p → p.fault = none → runStrip k p s = (.ok (), u) →
      ∃ q, u.st.passes = s.st.passes.set k q ∧ u.st.regs = s.st.regs ∧ u.st.sr = s.st.sr ∧ q.strips = p.strips + 1 ∧
        (q.fault = none → q.next = min p.elems (p.next + max 1 (s.liveLanes s.st) * p.stripLen) ∧ q.late = false) ∧
        (q.fault ≠ none → q.next = p.next ∧ q.parts = p.parts ∧ q.flags = p.flags ∧ u.mem.win = s.mem.win ∧
          u.mem.hostMem = s.mem.hostMem ∧ u.mem.peerMem = s.mem.peerMem) ∧
        let lanes := laneArray (s.laneTable s.st)
        let hi := min p.elems (p.next + max 1 lanes.size * p.stripLen)
        let x : Strip := ⟨s.st, p, p.next, hi, p.elems, lanes⟩
        ∃ r v1 s1 cols v2 s2 left v3 s3, evalNodes x (fun _ => true) p.nodes (Ev.start p.parts) s = (.ok (r, v1), s1) ∧
          (p.sinks.mapM fun k => evalSink x k r) v1 s1 = (.ok (cols, v2), s2) ∧ chunkChecks x v2 s2 = (.ok (left, v3), s3) ∧
          (v3.best = none → q.fault = none ∧ q.parts = v3.parts ∧ q.unsound = left ∧ q.flags = v3.fl.foldl (fun a y => a ||| y.2.2) p.flags ∧
            ∃ s4 ws s5, (cols.flatMap Prod.snd).forM Wr.perform s3 = (.ok (), s4) ∧
              performAll (hi - p.next) (cols.map Prod.fst) s4 = (.ok ws, s5) ∧
              u.mem.win = s5.mem.win ∧ u.mem.hostMem = s5.mem.hostMem ∧ u.mem.peerMem = s5.mem.peerMem ∧ u.sys = s5.sys ∧
              (s5.badGranules s.st.cluster = [] → u.mem = s5.mem)) ∧
          (∀ f, v3.best = some f → u.mem = s3.mem ∧ u.sys = s3.sys ∧
            let raised (of_ : Nat → Prop) (z : FFlags) : Prop :=
              ∀ i : Nat, z.getLsbD i = true ↔ ∃ y ∈ v3.fl, y.1 = f.elem ∧ of_ y.2.1 ∧ y.2.2.getLsbD i = true
            (f.cause ≠ 0x0D → q.fault = some f) ∧
            (f.cause = 0x0D → ∃ z z' : FFlags, q.fault = some { f with detail := z.toNat, flags := z' } ∧
              raised (fun n => n = f.node) z ∧ raised (fun n => n ≤ f.node) z'))) ∧
    (∀ p rest, s.st.passes = p :: rest → p.st = .running → p.fault = none → p.checked = true → p.remains = false →
      let sum (k : Sink) (row : Nat) : FFlags :=
        match accOf (partOf p.parts k.id) row with
        | none => 0
        | some v => match tyFmt (p.wpTy (k.data.headD 0)) with
          | none => 0
          | some f => if (decodeF f v).isSnan then flNV else 0
      let last (k : Sink) : FFlags :=
        match k.op with
        | .red m _ => if m ≤ 1 then sum k 0 else 0
        | .rowred false _ _ => (List.range p.vrows).foldl (fun a r => a ||| sum k r) 0
        | _ => 0
      let traps (k : Sink) : Prop := k.fpctl.toNat / 16 % 32 &&& (last k).toNat ≠ 0
      (s.st.sr.wmsize.toNat % 2 ^ 32 = 0 → writeWaymarks p s = (.ok (), s)) ∧
      (∀ a k b, p.sinks = a ++ k :: b → (∀ j ∈ a, ¬ traps j) → traps k → (∀ q ∈ rest, q.serial ≠ p.serial) →
        exec .passComplete s = .next { s with st := { s.st with
          passes := { p with fault := some ⟨p.next, k.id, 0x0D, (last k).toNat, 0, k.pc, last k⟩, faulted := true } :: rest } }) ∧
      ((∀ k ∈ p.sinks, ¬ traps k) → ∀ u, writeWaymarks p s = (.ok (), u) →
        ∃ t, exec .passComplete s = .next t ∧ t.st.passes = u.st.passes.filter (fun q => q.serial ≠ p.serial) ∧ t.st.pc = u.st.pc ∧
          t.st.vnames = u.st.vnames ∧ t.st.queue = u.st.queue ∧
          t.st.sr.fpflags = u.st.sr.fpflags ||| (p.sinks.foldl (fun a k => a ||| last k) p.flags).setWidth 64 ∧
          (∀ r, (∀ k ∈ p.sinks, ∀ v, sinkResult p k ≠ some (r, v)) → t.reg r = u.reg r) ∧
          (∀ k ∈ p.sinks, ∀ d v, sinkResult p k = some (d, v) → d ≠ 0 →
            (∀ j ∈ p.sinks, ∀ w, sinkResult p j = some (d, w) → j = k) → t.reg d = v) ∧
          (∀ k ∈ p.sinks, ∀ slot vs, rowValues p k = some (slot, vs) →
            (∀ j ∈ p.sinks, ∀ ws, rowValues p j = some (slot, ws) → j = k) → afind t.st.rows slot = some vs) ∧
          (∀ slot, (∀ k ∈ p.sinks, ∀ vs, rowValues p k ≠ some (slot, vs)) → afind t.st.rows slot = afind u.st.rows slot) ∧
          ((∀ k ∈ p.sinks, k.isVstc = false) → t.st.sr.qerr = u.st.sr.qerr) ∧
          ((∃ k ∈ p.sinks, k.isVstc = true) → u.st.qerrSerial = some p.serial → t.st.sr.qerr = qerrOf p) ∧
          t.mem = u.mem ∧ t.fab = u.fab ∧ t.sys = u.sys))

namespace Sys2Proof.Machine

/-- What a trap of a strand leaves (R296): mode S at the handler, the old mode and enable in ESTATUS, IE cleared, the other
registers, names, waypoints and queued sinks as before. -/
def State.entered (s t : State) (cause : Nat) (eva epc blame force : Word) (spass : Bool) : Prop :=
  t.st.mode = .s ∧ t.st.pc = s.st.sr.tvec ∧ t.st.sr.epc = epc ∧ t.st.sr.ecause = wd cause ∧ t.st.sr.eva = eva ∧
  t.st.sr.eblame = blame ∧ t.st.sr.eforce = force ∧
  t.st.sr.estatus = wd ((if s.st.mode = .s then 1 else 0) + (if spass then 2 else 0) + 4 * (s.st.sr.istatus.toNat % 2)) ∧
  t.st.sr.istatus.toNat = s.st.sr.istatus.toNat / 2 * 2 ∧ t.st.sr.tvec = s.st.sr.tvec ∧ t.st.sr.vl = s.st.sr.vl ∧
  t.st.sr.context = s.st.sr.context ∧ t.st.regs = s.st.regs ∧ t.st.vnames = s.st.vnames ∧ t.st.pnames = s.st.pnames ∧
  t.st.wps = s.st.wps ∧ t.st.queue = s.st.queue ∧ t.st.waiting = false ∧ t.st.asks = [] ∧ t.mem = s.mem ∧ t.bench = s.bench ∧ t.sys = s.sys

end Sys2Proof.Machine

/-- R161, R164, R166, R167, R241, R296, R298, R300 to R302, R310: a pass's fault is delivered at the boundary: every pass in flight
stops, their flags reach FPFLAGS, VPROG holds the first element that has not committed, SPASS is 1. A matrix trap, an interrupt of each
source and a lane-retirement notice: the registers of R302, and the event leaves its queue.
The order at the boundary and the queues of events are the model's readings: log entries 20, 21 and 28. -/
def Obligations.DeferredTrapsAndInterrupts : Prop :=
  ∀ (s : State), s.runs s.st = true →
    let epc := if s.st.waiting then s.st.pc + 4 else s.st.pc
    (∀ p rest f, s.st.passes = p :: rest → p.st = .running → p.fault = some f →
      ∃ t, exec .deferredTrap s = .next t ∧ s.entered t (256 * f.detail + f.cause) f.eva s.st.pc f.blame p.forcePc true ∧
        t.st.sr.vprog = p.next ∧ (∀ q ∈ t.st.passes, q.inFlight = false) ∧ t.st.passes.length = s.st.passes.length ∧
        t.st.sr.fpflags = s.st.sr.fpflags |||
          (s.st.passFlags ||| (if f.cause = 0x0D then f.flags else 0)).setWidth 64 ∧ t.fab = s.fab) ∧
    (∀ x rest, s.st.faulted = none → s.st.mtraps = x :: rest →
      ∃ t, exec .deferredTrap s = .next t ∧ s.entered t (256 * x.detail + x.cause) x.eva s.st.pc x.pc x.pc false ∧
        t.st.mtraps = rest ∧ t.st.passes = s.st.passes ∧ t.fab = s.fab) ∧
    (s.st.deferred = false →
      (∀ c f r, s.queueFor .bgf = some c → (s.cluster c).bg = f :: r →
        ∃ t, exec .interrupt s = .next t ∧ s.entered t 0x118 f.va epc f.context f.card false ∧
          t.fab = (s.modCluster c fun k => { k with bg := r }).fab) ∧
      (∀ c n r, s.queueFor .bgf = none → s.queueFor .ras = some c → (s.cluster c).ras = n :: r →
        ∃ t, exec .interrupt s = .next t ∧ s.entered t 0x218 (wd n) epc 0 0 false ∧
          t.fab = (s.modCluster c fun k => { k with ras := r }).fab) ∧
      (∀ c, s.queueFor .bgf = none → s.queueFor .ras = none → s.queueFor .mbx = some c →
        ∃ t, exec .interrupt s = .next t ∧ s.entered t 0x318 0 epc 0 0 false ∧
          t.fab = (s.modCluster c fun k => { k with bells := k.bells - 1 }).fab) ∧
      (∀ c n r, s.queueFor .note = some c → (s.cluster c).notes = n :: r →
        ∃ t, exec .laneRetirementNotice s = .next t ∧ s.entered t 0x14 n.eva epc (wd n.seq) 0 false ∧
          t.fab = (s.modCluster c fun k => { k with notes := r }).fab))

/-! ### Arrival markers and the matrix engine -/

/-- R104, R185, R231 to R236: a block sum in floating point is the exact sum of the accumulator and the products, rounded once to the accumulator's
type, ties to even, and the sticky bit is raised exactly when finite terms give an infinity; a zero sum is -0 only when every term is -0. A
NaN, a product of zero and infinity, or infinities of both signs give the canonical NaN, and one sign of infinity that infinity, without
the bit. In i32 it is the exact sum, saturated, and the bit is raised exactly when it saturates. No product leaves the accumulator as it was. One k-block of an operation gives each
element of its tile on each target one such sum, of the products of its row and column over the block that are not padding, and stores it at the
element's place in the window, marked where it is poisoned; every other byte and mark of the windows is as before. The accumulators begin with
what stands in C, or with zeros. An operand is its element times 2^SCALE, or what its block's header makes of its code.
The mark that a poisoned product leaves, and its sum's sticky bit, are the model's choice: log entries 48 and 100; that k-blocks are counted from the first is log entry 67. -/
def Obligations.BlockSums : Prop :=
  (∀ (tc : Nat) (a : Accum) (xs : List (FVal × Bool)), (∀ x ∈ xs, x.1.finite) →
    let real : ℝ := (xs.map fun x => x.1.real).sum
    blockSum tc a [] = a ∧
    (xs ≠ [] → (blockSum tc a xs).poison = (a.poison || xs.any fun x => x.2)) ∧
    (xs ≠ [] → (tc = 6 ∨ tc = 7) →
      let f := if tc = 7 then fmtF64 else fmtF32
      (decodeF f a.code).finite →
        (∃ v : FVal, v.near ((decodeF f a.code).real + real) ∧ (blockSum tc a xs).code = (roundF f .rne false v).1) ∧
        (real + (decodeF f a.code).real = 0 → (decodeF f (blockSum tc a xs).code).real = 0 ∧
          ((decodeF f (blockSum tc a xs).code).neg = true ↔
            ∀ v ∈ decodeF f a.code :: xs.map Prod.fst, v.real = 0 ∧ v.neg = true)) ∧
        ((blockSum tc a xs).excess = true ↔ (decodeF f (blockSum tc a xs).code).isInf = true)) ∧
    (xs ≠ [] → tc = 2 → (∀ x ∈ xs, ∃ n m, x.1 = .num n m 0 false) → ∀ z : ℤ, real = z →
      let total : ℤ := (BitVec.ofNat 32 a.code).toInt + z
      (blockSum tc a xs).code = (BitVec.ofInt 32 (max (-(2 ^ 31)) (min (2 ^ 31 - 1) total))).toNat ∧
      ((blockSum tc a xs).excess = true ↔ total < -(2 ^ 31) ∨ 2 ^ 31 ≤ total))) ∧
  (∀ (tc : Nat) (a : Accum) (xs : List (FVal × Bool)), xs ≠ [] → (tc = 6 ∨ tc = 7) →
    let f := if tc = 7 then fmtF64 else fmtF32
    let terms := decodeF f a.code :: xs.map Prod.fst
    let nan := FVal.isNan
    let has (n : Bool) : Prop := ∃ v ∈ terms, v.isInf = true ∧ v.neg = n
    ((∃ v ∈ terms, nan v = true) ∨ (has true ∧ has false) →
      (blockSum tc a xs).code = f.cnan ∧ (blockSum tc a xs).excess = false) ∧
    (∀ n, (∀ v ∈ terms, nan v = false) → has n → ¬ has (!n) →
      (blockSum tc a xs).code = f.signBit n + f.infCode ∧ (blockSum tc a xs).excess = false)) ∧
  (∀ x y : FVal,
    (x.finite → y.finite → (mulF x y).1.finite ∧ (mulF x y).1.real = x.real * y.real ∧ (mulF x y).1.neg = (x.neg != y.neg)) ∧
    (x.finite → x.real = 0 → y.isInf = true → (mulF x y).1.isNan = true ∧ (mulF y x).1.isNan = true) ∧
    (x.isInf = true → y.isInf = true ∨ (y.finite ∧ y.real ≠ 0) →
      (mulF x y).1 = .inf (x.neg != y.neg) ∧ (mulF y x).1 = .inf (x.neg != y.neg)) ∧
    (x.isNan = true → (mulF x y).1.isNan = true ∧ (mulF y x).1.isNan = true)) ∧
  (∀ (s : State) (c : Nat) (o : MOp), o.failed = 0 → o.accs.length = o.places.length →
    let r := runBlock c o 0 s
    let lo := o.kdone * o.kb
    let many := min (lo + o.kb) o.ksIn - lo
    r.2.kdone = o.kdone + 1 ∧ r.2.accs.length = o.places.length ∧ r.1.st = s.st ∧ r.1.sys = s.sys ∧ r.1.mem.hbm = s.mem.hbm ∧
    ∀ (x t i j : Nat) (a : Accum), o.places[x]? = some (t, i, j) → o.accs[x]? = some a →
      ∃ b : Accum, r.2.accs[x]? = some b ∧ b.excess = false ∧ ∃ xs,
        xs = (if i < o.rowsIn ∧ j < o.colsIn then (List.range many).map fun k =>
            let p := operandAt s c o.a 0 0 o.heads (o.row0 + i) (o.k0 + lo + k)
            let z := o.bPos (lo + k) j
            let q := operandAt s c o.b 1 (if o.bloc then t else 0) o.heads z.1 z.2
            ((mulF p.1 q.1).1, p.2 || q.2) else []) ∧
        b.code = (blockSum o.c.ty a xs).code ∧ b.poison = (blockSum o.c.ty a xs).poison ∧
        ((blockSum o.c.ty a xs).excess = true → (o.ctx, t, o.tids.2.2) ∈ (r.1.cluster c).overflow)) ∧
  (∀ (s : State) (c : Nat) (o : MOp), o.failed = 0 → o.accs.length = o.places.length → s.mem.wf = true →
    let n := o.c.bits / 8
    let key (p : Nat × Nat × Nat) : Nat := c * 2 ^ 29 + ((s.cluster c).logical[p.1]?).getD 0 * 2 ^ 24 +
      (o.c.elembase % 2 ^ 24 + (o.crow0 + p.2.1) * o.c.pitch + (o.ccol0 + p.2.2) * n)
    (o.firstAccs s c).length = o.places.length ∧
    (∀ (x : Nat) p, o.places[x]? = some p → (o.firstAccs s c)[x]? = some
      (if o.acc then (⟨leNat (s.winRead (key p) n), s.winPoisoned (key p) n, false⟩ : Accum) else ⟨0, false, false⟩)) ∧
    ((n = 4 ∨ n = 8) → (∀ p ∈ o.places, key p % 4 = 0) →
      (∀ (x y : Nat) p q, o.places[x]? = some p → o.places[y]? = some q → x ≠ y → key p + n ≤ key q ∨ key q + n ≤ key p) →
      let r := runBlock c o 0 s
      (∀ (x : Nat) p b, o.places[x]? = some p → r.2.accs[x]? = some b →
        (b.poison = false → r.1.winRead (key p) n = leBytes n b.code ∧ r.1.winPoisoned (key p) n = false) ∧
        (b.poison = true → r.1.winPoisoned (key p) n = true)) ∧
      (∀ y, (∀ p ∈ o.places, y < key p ∨ key p + n ≤ y) → cellRead r.1.mem.win y = cellRead s.mem.win y ∧
        (y / 4 ∈ r.1.mem.winPoison ↔ y / 4 ∈ s.mem.winPoison)))) ∧
  (∀ (s : State) (c : Nat) (d : Desc) (which t row col : Nat) (hs : List MHdr) (ty : Ty), Ty.ofCode d.ty = some ty → d.bits = tyBits ty →
    let p := operandAt s c d which t hs row col
    let core := d.elembase / 2 ^ 24 % 32
    let place := placeOf ty 0 (d.elembase + row * d.pitch : Nat) col
    let key := c * 2 ^ 29 + ((s.cluster c).logical[if core = 31 then t else core]?).getD 0 * 2 ^ 24 + place.1.toNat % 2 ^ 24
    let n := max 1 (tyBits ty / 8)
    let raw := leNat (s.winRead key n)
    let code := if tyBits ty = 4 then raw / 16 ^ place.2 % 16 else raw
    (ty = .i8 → p.1.finite ∧ p.1.real = (BitVec.ofNat 8 code).toInt ∧ p.2 = s.winPoisoned key n) ∧
    (ty ∈ floatTypes ++ [.e4m3, .e5m2, .e2m1] → ∀ f, tyFmt ty = some f →
      let z := decodeF f code
      (z.finite → p.1.finite ∧ p.1.real = z.real * (2 : ℝ) ^ d.scale ∧ p.1.neg = z.neg) ∧ (¬ z.finite → p.1 = z) ∧
      p.2 = s.winPoisoned key n) ∧
    (ty = .ch8 ∨ ty = .ch4 → ∀ h, hs.find? (fun h => h.key = (which, t, row, col / 32)) = some h →
      p.1 = chanterVal (tyBits ty) h.h code (h.levels.getD code 0) ∧ p.2 = (s.winPoisoned key n || h.poison)))

/-- R60, R97, R235, R239, R241, R242, R244 to R246, R263, R270, R274, R275, R289: an arrival marker that is due fires once its release can be
made: that, and its arrival counted; a phase completes when every member has arrived or exited. An MZERO writes zeros to every byte of its
tiles and to no other, and clears their overflow bits; an MMA whose headers are read or have been goes on for its k-blocks; one whose headers
fail their check writes nothing and leaves with every later operation of its strand, which has its trap, or else its launch; a target that
fails gives the strand its trap and its core is fenced; the oldest operation that has run leaves the queue; each period's slot becomes
active.
How far one event takes a matrix operation is the model's choice: log entry 67; when an exit behind a marker is counted is the model's reading: log
entry 114. -/
def Obligations.MarkersAndMatrixEvents : Prop :=
  ∀ (s : State) (c : Nat) (n : Option Nat),
    (∀ m rest, s.st.markers = m :: rest → s.st.stand = .saved → exec .arrivalMarkerFire s = .next s) ∧
    (∀ m rest idx e, s.st.markers = m :: rest → s.st.stand ≠ .saved →
      s.st.groupIdx m.slot = some idx → s.groupAt s.st.ctx idx = some e →
      let scope := Scope.ofCode e.scope
      let x : Group := if m.phase = e.c then { e with arrc := e.arrc + 1 }
        else if m.phase = e.c + 1 then { e with arrn := e.arrn + 1 } else e
      let g : Group := if s.st.stand = .none ∧ (∀ r ∈ rest, r.slot ≠ m.slot) then { x with
          arrc := x.arrc - (if x.c ≤ m.phase then 1 else 0)
          arrn := x.arrn - (if x.c + 1 ≤ m.phase then 1 else 0)
          exited := x.exited + 1 }
        else x
      (s.markerReady s.st m = true ↔ s.markerDue s.st m = true ∧ (outer scope → s.holdsDirty s.st.cluster = false) ∧
        (scope = .sys → s.owedTo s.who.owner = [])) ∧
      (s.markerDue s.st m = false → exec .arrivalMarkerFire s = .next s) ∧
      (s.markerDue s.st m = true → ∀ u, releaseAt s.st.cluster s.who.owner scope s = (.error .wait, u) →
        exec .arrivalMarkerFire s = .next
          { s with sys := { s.sys with pri := u.sys.pri, owed := u.sys.owed, outbox := u.sys.outbox } }) ∧
      (s.markerReady s.st m = true →
        ∃ t, exec .arrivalMarkerFire s = .next t ∧ t.st.markers = rest ∧ t.st.regs = s.st.regs ∧ t.st.pc = s.st.pc ∧ t.fab = s.fab ∧
          t.mem = (s.release s.st.cluster scope).mem ∧ (∀ x ∈ t.sys.owed, x.owner = s.who.owner → x.shared = true) ∧
          (g.n ≤ g.exited → t.groupAt s.st.ctx idx = none) ∧
          (g.arrc + g.exited < g.n → t.groupAt s.st.ctx idx = some g) ∧
          (g.n ≤ g.arrc + g.exited → g.exited < g.n → g.arrn + g.exited < g.n →
            t.groupAt s.st.ctx idx = some { g with c := g.c + 1, arrc := g.arrn, arrn := 0 }))) ∧
    (let s1 := s.latchSlot c
     ∀ o, (s1.cluster c).nextMop = some o →
      let now (q : MOp) (t : State) : Prop :=
        (t.cluster c).mops = (s.cluster c).mops.map fun x => if x.id = o.id then { q with done := decide (q.kblocks ≤ q.kdone) } else x
      let inTile (x : Nat) : Prop := ∃ t ∈ o.targets, ∃ i < o.m, ∃ j < o.n,
        (tileKey s c o t i j).1 ≤ x ∧ x < (tileKey s c o t i j).1 + (tileKey s c o t i j).2
      (o.zero = true → s.mem.wf = true → ∀ bad,
        ∃ t, exec (.mmaExecute c ⟨bad, n⟩) s = .next t ∧
          (t.cluster c).mops = (s.cluster c).mops.map (fun x => if x.id = o.id then { o with started := true, done := true } else x) ∧
          (∀ x, inTile x → cellRead t.mem.win x = 0) ∧ (∀ x, ¬ inTile x → cellRead t.mem.win x = cellRead s.mem.win x) ∧
          (∀ q, q ∈ (t.cluster c).overflow ↔
            q ∈ (s.cluster c).overflow ∧ ¬ (q.1 = o.ctx ∧ q.2.2 = o.tids.2.2 ∧ q.2.1 ∈ o.targets)) ∧
          t.st = s.st ∧ t.sys = s.sys ∧ t.mem.hbm = s.mem.hbm ∧ t.mem.caches = s.mem.caches) ∧
      (o.zero = false → o.started = false → ∀ hs u, (o.hdrs.mapM (readHdr c o)) s1 = (.ok hs, u) →
        let r := runBlocks c { o with started := true, heads := hs, accs := o.firstAccs u c } 0 (n.getD o.kblocks) u
        ∃ t, exec (.mmaExecute c ⟨0, n⟩) s = .next t ∧ now r.2 t ∧ t.mem = r.1.mem ∧ t.st = r.1.st) ∧
      (o.zero = false → o.started = false → ∀ k d v u bad, (o.hdrs.mapM (readHdr c o)) s1 = (.error (.trap k d v), u) →
        ∃ t, exec (.mmaExecute c ⟨bad, n⟩) s = .next t ∧ t.mem.win = s.mem.win ∧
          (t.cluster c).mops = (s.cluster c).mops.filter (fun q => !(q.sid == o.sid && decide (o.id ≤ q.id))) ∧
          (o.sid = s.st.sid → s.st.stand ≠ .none → t.st = { s.st with mtraps := s.st.mtraps ++ [⟨k, d, v, o.pc⟩] }) ∧
          ((∀ x ∈ s.strands, x.sid = o.sid → x.stand = .none) →
            t.st = s.st ∧ ∀ l ∈ t.sys.launches, l.id = o.launch → l.mtrap ≠ none)) ∧
      (o.zero = false → o.started = true →
        let r := runBlocks c o 0 (n.getD o.kblocks) s1
        ∃ t, exec (.mmaExecute c ⟨0, n⟩) s = .next t ∧ now r.2 t ∧ t.mem = r.1.mem ∧ t.st = r.1.st) ∧
      (o.zero = false → o.started = true → o.failed = 0 → o.kdone < o.kblocks → o.sid = s.st.sid → s.st.stand ≠ .none → ∀ bad,
        ∃ t, exec (.mmaExecute c ⟨bad, (some 1)⟩) s = .next t ∧ ∀ k ∈ o.targets, bad.getLsbD k = true →
          (o.hasSum = true → ⟨0x12, 8, tileBase o k, o.pc⟩ ∈ t.st.mtraps ∧ (t.fab.core c (s.physCore c k)).fenced = true) ∧
          (o.hasSum = false → t.st = s.st ∧ (t.fab.core c (s.physCore c k)).fenced = (s.fab.core c (s.physCore c k)).fenced))) ∧
    (∀ o, (s.cluster c).mops.find? (fun o => o.done) = some o →
      ∃ t, exec (.mmaComplete c) s = .next t ∧ (t.cluster c).mops = (s.cluster c).mops.filter (fun q => q.id ≠ o.id) ∧
        (∀ k, k ≠ c → t.cluster k = s.cluster k) ∧ t.st = s.st ∧ t.mem = s.mem ∧ t.sys = s.sys) ∧
    (∃ t, exec .slotPeriod s = .next t ∧ t.st = s.st ∧ t.mem = s.mem ∧ t.sys = s.sys ∧
      ∀ k, t.cluster k = if (∃ x ∈ s.fab.clusters, x.1 = k) ∧ (s.cluster k).period ≠ s.timer / 80000 then
          { s.cluster k with period := s.timer / 80000, active := aget 0 (s.cluster k).slots (s.timer / 80000 % 16) }
        else s.cluster k)

/-! ### Copy jobs and the intake -/

/-- R79 to R84, R180: a job that may start moves its data, from where it has come to, and goes on later or ends with the bytes it wrote and OK,
SHORT for a translation fault under FOF, or FAULT with cause and address; an ended job writes, after the release at its card's scope, for a
FAULT the two dwords and then its completion word, done * 2^32 + scope * 2^24 + detail * 2^16 + cause * 2^8 + status, and leaves the queue,
or its context ends with status 0x15 when the completion area cannot be written. While the four engines of a cluster hold a job each, no
other starts, nor one that an earlier one of its context stands before that conflicts with it (R76, R81).
The data: 64 bytes of the destination, or a chunk, at a time, byte after byte, each from its source (the byte at SRC + o, the o mod 8th byte of
the pattern, the gathered element's, the chunk's) and translated as a store; nothing of a unit is written when a byte of it fails, and the first
that fails gives cause and address. A copy from window to window leaves in the bytes from where it stood to where it came the source's, and
every other byte as it was.
How far one event moves a job's data is the model's choice: log entry 66; which causes have a detail is log entry 82; that a source's failure
comes before its destination's is log entry 105. -/
def Obligations.CopyJobEvents : Prop :=
  (∀ (s : State) (c h : Nat) (n : Option Nat) (j : Job), (s.cluster c).job? (wd h) = some j →
    (j.st = .queued → (s.cluster c).mayStart j = true → ∀ u, settleFor c j s = (.ok (), u) → ∀ e t, moveJob c j n u = (.ok e, t) →
      exec (.jobStart c ⟨h, n⟩) s = .next (t.modJob c j.handle fun k => k.after e)) ∧
    (j.st = .running → ∀ e t, moveJob c j n s = (.ok e, t) →
      exec (.jobStart c ⟨h, n⟩) s = .next (t.modJob c j.handle fun k => k.after e)) ∧
    (∀ e : JobEnd, let k := j.after e
      k.handle = j.handle ∧ k.ctx = j.ctx ∧ k.done = e.done ∧ k.card = j.card ∧
      (e.fail = none → e.done < j.c.len → k.st = .running ∧ k.status = j.status) ∧
      (e.fail = none → j.c.len ≤ e.done → k.st = .ended ∧ k.status = 1) ∧
      (∀ a d v, e.fail = some (a, d, v) → k.st = .ended ∧ k.cause = a ∧ k.eva = v ∧
        k.detail = (if a = 0x11 ∨ a = 0x0E then d else 0) ∧
        k.status = if j.c.fof = true ∧ (a = 5 ∨ a = 6) then 2 else 3)) ∧
    (j.st = .queued → (4 ≤ ((s.cluster c).jobs.filter fun k => k.st = .running).length ∨
        ∃ k ∈ (s.cluster c).jobs, k.ctx = j.ctx ∧ k.order < j.order ∧ k.st ≠ .settled ∧ conflicts k.c j.c = true) →
      exec (.jobStart c ⟨h, n⟩) s = .next s) ∧
    (let w := j.who c
     let scope : Scope := if j.c.scope = 2 then .dev else if j.c.scope = 3 then .sys else .clu
     let word := j.done * 2 ^ 32 + j.c.scope * 2 ^ 24 + j.detail * 2 ^ 16 + j.cause * 2 ^ 8 + j.status
     let put (va v : Nat) (x y : State) : Prop :=
       ∃ l m, translate w .store (wd va) 8 x = (.ok l, m) ∧ pointWrite w scope l 8 v m = (.ok (), y)
     ∀ t, writeCompletion c j w s = (.ok (), t) ↔ ∃ u, releaseAt c w.owner scope s = (.ok (), u) ∧
       (j.status ≠ 3 → put j.c.cwa word u t) ∧
       (j.status = 3 → ∃ x y, put (j.c.cwa + 8) j.eva.toNat u x ∧ put (j.c.cwa + 16) j.cardVa.toNat x y ∧ put j.c.cwa word y t)) ∧
    (j.st = .ended → ∀ t, writeCompletion c j (j.who c) s = (.ok (), t) →
      ∃ u, exec (.jobComplete c h) s = .next u ∧ u.mem = t.mem ∧ (∀ k ∈ (u.cluster c).jobs, k.handle = j.handle → k.st = .settled) ∧
        (∀ k, k.handle ≠ j.handle → (k ∈ (u.cluster c).jobs ↔ k ∈ (t.cluster c).jobs)) ∧ u.sys = t.sys ∧
        (j.status = 2 → (t.cluster c).bg.length < 64 →
          (u.cluster c).bg = (t.cluster c).bg ++ [⟨j.eva, j.context, j.cardVa⟩])) ∧
    (j.st = .ended → ∀ a d v t, writeCompletion c j (j.who c) s = (.error (.trap a d v), t) → ∀ u,
      endContext j.ctx 0x15 v (t.dropJob c j) = (.ok (), u) → exec (.jobComplete c h) s = .next u)) ∧
  (∀ (c : Nat) (j : Job) (n : Option Nat), let k := j.c; let d := parseDesc j.desc
    (k.kind = 3 → moveJob c j n =
      let full := max 1 d.fullChunk
      moveChunks (j.who c) k d (k.src + (j.done + full - 1) / full) j.done (n.getD (k.len + 1))) ∧
    (k.kind ≠ 3 → moveJob c j n = moveBytes (j.who c) k j.done (n.getD (k.len / 64 + 2)))) ∧
  (∀ (w : Who) (k : Card) (o fuel : Nat) (x u v : State) (rs : List JobRun), o < k.len →
    let got := gatherRuns w k (jobSource w k) o (min 64 (k.len - o)) x
    (got = (.ok (.ok rs), u) → rs.reverse.forM (performRun w) u = (.ok (), v) →
      moveBytes w k o (fuel + 1) x = moveBytes w k (o + min 64 (k.len - o)) fuel v) ∧
    (∀ a b e, got = (.ok (.error (.trap a b e)), u) → moveBytes w k o (fuel + 1) x = (.ok ⟨o, some (a, b, e)⟩, u)) ∧
    (got = (.ok (.error .wait), u) → moveBytes w k o (fuel + 1) x = (.ok ⟨o, none⟩, u))) ∧
  (∀ (w : Who) (k : Card) (d : Desc) (i o fuel : Nat) (x u v y : State) (bs : List Byte) (rs : List JobRun), o < k.len →
    (jobChunk w k d i (k.len - o) x = (.ok bs, u) →
      let m := min bs.length (k.len - o)
      gatherRuns w k (fun a => pure (bs.getD (a - o) 0, false)) o m u = (.ok (.ok rs), v) →
      rs.reverse.forM (performRun w) v = (.ok (), y) → moveChunks w k d i o (fuel + 1) x = moveChunks w k d (i + 1) (o + m) fuel y) ∧
    (∀ a b e, jobChunk w k d i (k.len - o) x = (.error (.trap a b e), u) →
      moveChunks w k d i o (fuel + 1) x = (.ok ⟨o, some (a, b, e)⟩, u))) ∧
  (∀ (w : Who) (k : Card) (src : Nat → M (Byte × Bool)) (o n : Nat) (x u v y : State) (rs : List JobRun) (b : Byte) (p : Bool) (l : Loc)
      (e : Stop),
    let va := k.dst + o + n
    gatherRuns w k src o 0 x = (.ok (.ok []), x) ∧
    (gatherRuns w k src o n x = (.ok (.error e), u) → gatherRuns w k src o (n + 1) x = (.ok (.error e), u)) ∧
    (gatherRuns w k src o n x = (.ok (.ok rs), u) →
      (src (o + n) u = (.error e, v) → gatherRuns w k src o (n + 1) x = (.ok (.error e), v)) ∧
      (src (o + n) u = (.ok (b, p), v) →
        (translate w .store (wd va) (rangeSize k.dst k.len) v = (.error e, y) → gatherRuns w k src o (n + 1) x = (.ok (.error e), y)) ∧
        (translate w .store (wd va) (rangeSize k.dst k.len) v = (.ok l, y) →
          gatherRuns w k src o (n + 1) x = (.ok (.ok (joinRun rs va l b p)), y)))) ∧
    (joinRun rs va l b p).reverse.flatMap JobRun.bytes = rs.reverse.flatMap JobRun.bytes ++ [b] ∧
    (rs = [] ∨ va % 64 = 0 → joinRun rs va l b p = ⟨l, [b], p⟩ :: rs)) ∧
  (∀ (w : Who) (r : JobRun) (x t : State), performRun w r x = (.ok (), t) →
    ∃ u, writeLoc w r.loc r.bytes x = (.ok (), u) ∧ t.mem.win = u.mem.win ∧ t.mem.hostMem = u.mem.hostMem ∧ t.mem.peerMem = u.mem.peerMem ∧
      (r.poison = true → ∀ a, r.loc = .win a → r.bytes ≠ [] → t.winPoisoned a r.bytes.length = true)) ∧
  (∀ (w : Who) (k : Card) (o : Nat) (x u : State),
    (k.kind = 0 → jobSource w k o = jobByte w (wd (k.src + o)) (rangeSize k.src k.len) false) ∧
    (k.kind = 1 → jobSource w k o x = (.ok (BitVec.ofNat 8 (k.src / 256 ^ (o % 8)), false), x)) ∧
    (k.kind = 2 → ∀ i : Int, jobIndex w k (o / k.size) x = (.ok i, u) →
      let a : Word := wd k.src + BitVec.ofInt 64 (k.size * i)
      (within (a.toNat, a.toNat + k.size) k.readFoot = false → jobSource w k o x = (.error (.trap 0x19 0 a), u)) ∧
      (within (a.toNat, a.toNat + k.size) k.readFoot = true →
        jobSource w k o x = jobByte w (a + wd (o % k.size)) (rangeSize a.toNat k.size) true u)) ∧
    (∀ va n g a pa ten,
      (translate w .load va n x = (.ok (.win a), u) → jobByte w va n g x = (.ok ((u.winRead a 1).headD 0, u.winPoisoned a 1), u)) ∧
      (translate w .load va n x = (.ok (.host a), u) → jobByte w va n g x = (.ok (u.hostByte a, false), u)) ∧
      (translate w .load va n x = (.ok (.hbm pa ten), u) → g = false →
        jobByte w va n g x = ((.ok (((u.cluRead w.cluster ten pa 1).2.1).headD 0, (u.cluRead w.cluster ten pa 1).2.2),
          (u.cluRead w.cluster ten pa 1).1))))) ∧
  (∀ (w : Who) (k : Card) (o fuel a b : Nat) (x : State), k.kind = 0 → o ≤ k.len → x.mem.wf = true →
    (∀ i < k.len, isWindow (wd (k.src + i)) = true ∧ isWindow (wd (k.dst + i)) = true ∧
      windowKey w .load (wd (k.src + i)) (rangeSize k.src k.len) x = (.ok (a + i), x) ∧
      windowKey w .store (wd (k.dst + i)) (rangeSize k.dst k.len) x = (.ok (b + i), x)) →
    (a + k.len ≤ b ∨ b + k.len ≤ a) →
    let z := min k.len (o + 64 * fuel)
    ∃ y, moveBytes w k o fuel x = (.ok ⟨z, none⟩, y) ∧ y.mem.hostMem = x.mem.hostMem ∧ y.mem.peerMem = x.mem.peerMem ∧
      ∀ i, y.winRead i 1 = if b + o ≤ i ∧ i < b + z then x.winRead (a + (i - b)) 1 else x.winRead i 1)

/-- R59, R283 to R286, R292, R318, R323: a write to the launch port queues a record's address, or is counted when no record can stand there;
in recovery it is ignored, and behind a held access of its function it is held. The oldest is taken while the intake has room, and starts a
launch or is rejected or logged; a launch becomes eligible when the dword at WAITADDR is at least WAITVAL; one that is done writes its
record and leaves; aging raises a kept launch by one when it has waited 2 ms, 2,500,000 cycles.
What an event does when it cannot happen is the model's choice: log entry 7; a launch-port write in recovery is log entry 39; rejected records
follow log entries 46 and 65, from when a wait is counted is log entry 83, and that a completion record which cannot be written is counted is
log entry 111. -/
def Obligations.LaunchEvents : Prop :=
  ∀ (s : State) (fn : Bool) (pa : Word) (n : Nat),
    (let port := exec (.launchPortWrite ⟨fn, pa⟩) s
     (fn ∈ s.host.insecure → port = .next s) ∧
     (fn ∉ s.host.insecure →
       ((∃ a ∈ s.sys.held, a.source = some fn) → port = .next { s with sys := { s.sys with held := s.sys.held ++ [.port fn pa] } }) ∧
       ((∀ a ∈ s.sys.held, a.source ≠ some fn) →
         (s.toll.recovery = true → port = .next s) ∧
         (s.toll.recovery = false → (pa.toNat % 128 ≠ 0 ∨ s.capacity < pa.toNat + 128) →
           port = .next { s with sys := { s.sys with rejects := s.sys.rejects + 1 } }) ∧
         (s.toll.recovery = false → pa.toNat % 128 = 0 → pa.toNat + 128 ≤ s.capacity →
           port = .next { s with sys := { s.sys with port := s.sys.port ++ [pa.toNat] } })))) ∧
    (∀ a rest, s.sys.port = a :: rest →
      (s.intakeFull = true ∨ s.isStalled a = true → exec .launchAccept s = .next s) ∧
      (s.intakeFull = false → s.isStalled a = false →
        let s1 : State := { s with sys := { s.sys with port := rest } }
        let r := parseRec ((List.range 16).map fun i => wd (leNat (((s.devRead 0 a 128).drop (8 * i)).take 8)))
        let log : State := { s1 with sys := { s1.sys with rejectLog := s.sys.rejectLog + 1 } }
        (s.linePoison (a / 64) = true ∨ s.linePoison (a / 64 + 1) = true → exec .launchAccept s = .next log) ∧
        (s.linePoison (a / 64) = false → s.linePoison (a / 64 + 1) = false →
          (s.ctx? r.ctxid = none → exec .launchAccept s = .next log) ∧
          ∀ c, s.ctx? r.ctxid = some c →
            (s1.rejects c r = true → ∀ t, rejectRec c r s1 = (.ok (), t) → exec .launchAccept s = .next t) ∧
            (s1.rejects c r = false →
              ∃ t l, exec .launchAccept s = .next t ∧ t.sys.launches = s.sys.launches ++ [l] ∧ t.sys.port = rest ∧
                l.id = s.sys.nextLaunch ∧ l.ctx = c.num ∧ l.base = r.base ∧ l.entry = r.entry ∧ l.param = r.param ∧ l.bounds = r.bounds ∧
                l.order = r.order ∧ l.prio = r.prio ∧ l.cra = r.cra ∧ l.placed = 0 ∧ l.exits = 0 ∧ l.clNum = [] ∧
                (∀ k ∈ l.clmask, (s.cluster k).retired = false) ∧
                (l.eligible = true ↔ r.waitaddr = 0) ∧ t.st = s.st ∧ t.mem = s.mem ∧ t.fab = s.fab)))) ∧
    (∀ x, s.launch? n = some x →
      (∀ c, s.ctx? x.ctx = some c → x.eligible = false → ∀ loc t, translate c.who .load x.waitaddr 8 s = (.ok loc, t) →
        ∀ v t1, pointRead c.who .sys x.waitaddr loc 8 t = (.ok v, t1) →
        exec (.waitConditionPoll n) s = .next
          (if x.waitval.toNat ≤ v then t1.modLaunch n fun y => { y with eligible := true, since := s.timer } else t1)) ∧
      (∀ c, s.ctx? x.ctx = some c → x.eligible = false → ∀ a d v t u, a ≠ 0x13 →
        translate c.who .load x.waitaddr 8 s = (.error (.trap a d v), t) → endContext x.ctx 0x15 x.waitaddr t = (.ok (), u) →
        exec (.waitConditionPoll n) s = .next u) ∧
      (s.launchDone x = true → x.mtrap = none → ∀ c, s.ctx? x.ctx = some c → ∀ ok t, writeRecord c x.cra x.handle 0 0 s = (.ok ok, t) →
        ∃ u, exec (.launchComplete n) s = .next u ∧ u.sys.launches = t.sys.launches.filter (fun y => y.id ≠ x.id) ∧ u.mem = t.mem ∧
          u.fab = t.fab ∧ u.sys.rejectLog = t.sys.rejectLog + (if ok then 0 else 1)) ∧
      (s.launchDone x = false → exec (.launchComplete n) s = .next s) ∧
      (s.kept x = true → exec (.priorityAging n) s = .next (if x.since + 2500000 ≤ s.timer then
          s.modLaunch n fun y => { y with aged := y.aged + 1, since := y.since + 2500000 } else s)) ∧
      (s.kept x = false → exec (.priorityAging n) s = .next s))

/-! ### Strands: placement, pre-emption and restore -/

/-- R12, R107, R110, R116, R282, R287, R288, R291, R305: a placement completes: a new strand starts in mode U at the entry, with the four
indices of its iteration in s2 to s5, the parameter in s6, the iteration in s7 and zero elsewhere, nothing named, queued or in flight, and
every state register as R110, R288 and R305 give it: its identity and groups from the launch, its context, tables, trap vector, Waymark ring and
save area from the context's entry, VLMAX from its lanes, VROWS 1, and the rest zero. The indices are
the mixed-radix digits of the iteration in the launch's order; GROUPS holds the entry of each valid slot and its bit. A place is taken with an acquire, which waits while a write-back is held (R60).
The first strand that a launch places in a cluster fixes the number by which its strands there know the cluster. With COR = 1 and SPILL = 0
the members that are placed together are placed all at once or not at all.
Which places are free for a launch, and when a launch is admitted, are the model's readings: log entries 31 and 26. -/
def Obligations.StrandPlacement : Prop :=
  ∀ (s : State) (n : Nat) (x : Spot) (l : Launch) (c : Ctx), s.launch? n = some l → s.ctx? l.ctx = some c →
    let k := l.placed
    (∀ xs, (xs.length ≠ l.gang → exec (.strandPlacement n xs) s = .next s) ∧
      ∀ t, exec (.strandPlacement n xs) s = .next t → t = s ∨
        ∃ y, t.launch? n = some y ∧ y.placed = k + l.gang ∧ ∀ u ∈ xs, s.holdsDirty u.cluster = false) ∧
    (s.holdsDirty x.cluster = true → exec (.strandPlacement n [x]) s = .next s) ∧
    (l.gang = 1 → (∃ f, s.firstUser l.span x = some f ∧ f.id = l.id) → (∀ t ∈ s.savedOf l, s.spotBack l t x = false) → s.mayBegin l = true →
     s.spotNew l x = true → s.holdsDirty x.cluster = false →
     ∃ t, exec (.strandPlacement n [x]) s = .next t ∧ t.st.stand = .resident ∧ t.st.sid = s.sys.nextSid ∧
      t.sys.nextSid = s.sys.nextSid + 1 ∧ t.st.cluster = x.cluster ∧ t.st.slot = x.slot ∧ t.st.span = l.span ∧ t.st.launch = l.id ∧
      t.st.ctx = l.ctx ∧ t.st.mode = .u ∧ t.st.pc = l.entry ∧
      (∀ d < 4, t.reg (Fin.ofNat 32 (2 + d)) = wd (l.index k d)) ∧ t.reg 6 = l.param ∧ t.reg 7 = wd k ∧
      (∀ r : Reg, r.val < 2 ∨ 7 < r.val → t.reg r = 0) ∧
      (∃ a, a ∉ c.areas ∧ t.st.sr =
        { vl := 0, vrows := 1, vlmax := 4096 * s.liveLanes t.st, vpol := 0, vprog := 0, fpctl := 0, fpflags := 0, determ := 0,
          rngkey := 0, draw := 0, strandkey := l.base + wd k, iter := wd k, groups := l.groupsWord k, tdtbase := c.tdtbase, qerr := 0,
          tvec := wd (c.tvec.toNat / 4 * 4), epc := 0, ecause := 0, eva := 0, eblame := 0, eforce := 0, estatus := 0, escratch := 0,
          context := wd (c.tenant * 2 ^ 16 + c.asid), ptbase := wd (c.ptbase.toNat / 2 ^ 24 % 2 ^ 28 * 2 ^ 24), wmbase := c.wmbase,
          wmsize := c.wmsize, istatus := 0, savearea := c.savePool + wd (8192 * a) }) ∧
      t.st.vnames = [] ∧ t.st.pnames = [] ∧ t.st.wps = [] ∧ t.st.queue = [] ∧ t.st.passes = [] ∧ t.st.markers = [] ∧
      t.cache x.cluster = [] ∧
      (∀ m, m ≠ n → t.launch? m = s.launch? m) ∧
      (let now := logicalOf s.fab.logical x.cluster
       let seen := if n ∈ (s.cluster x.cluster).admitted then l.clNum else aset l.clNum x.cluster now
       t.launch? n = some { l with placed := k + 1, aged := 0, since := s.timer, clNum := seen } ∧
       t.clusterNum t.st = aget now seen x.cluster)) ∧
    (∀ j < 4,
      let field := (l.groupsWord k).toNat / 2 ^ (8 * j) % 2 ^ 8
      let valid := (l.groupsWord k).toNat / 2 ^ (32 + j) % 2
      (l.rules.getD j none = none → field = 0 ∧ valid = 0) ∧
      ∀ g, l.rules.getD j none = some g → field = (g.gidx + k / 2 ^ g.shift) % 2 ^ 8 ∧ valid = 1) ∧
    (∀ a b d e, l.order = [a, b, d, e] → [a, b, d, e].Perm [0, 1, 2, 3] → l.bounds.length = 4 → k < l.product →
      let w (i : Nat) := l.bounds.getD i 1
      (∀ i < 4, l.index k i < w i) ∧
      k = l.index k a + w a * (l.index k b + w b * (l.index k d + w d * l.index k e)))

/-- R60, R161, R168, R293, R303, R308: a strand to be pre-empted stops at a strip boundary, writes its save area at device scope, and is
saved; the bytes it writes hold the registers, PC, the mode, the state registers and the rest where the table puts them, with their
checksum. A saved strand that its place takes goes on
with the registers, PC and mode of its area, when that passes its checks; else its context ends with status 0xFE.
Who may be pre-empted and what the reserved dwords hold are the model's choices: log entries 32 and 33. -/
def Obligations.PreemptionAndRestore : Prop :=
  ∀ (s : State),
    (s.st.stand = .resident → (s.onFenced s.st = true ∨ ∃ t ∈ s.victims, t.sid = s.st.sid) →
      let s1 := (({ s with st := s.st.halt } : State).release s.st.cluster .dev).share s.who.owner
      let va := s.st.sr.savearea
      (s.holdsDirty s.st.cluster = true → exec .preemption s = .next s) ∧
      (s.holdsDirty s.st.cluster = false → va.toNat % 8192 = 0 → ∀ t,
        devStore { s1.who with user := false } va (s1.saveBytes s1.free) 130 { s1 with free := s1.free + 1 } = (.ok (), t) →
        ∃ u, exec .preemption s = .next u ∧ u.st = { t.st with stand := .saved, saveAddr := va, spilled := none } ∧ u.mem = t.mem ∧
          u.fab = t.fab)) ∧
    (let r := s.st.sr
     let x := s.st
     let holds (lo : Nat) (l : List Nat) : Prop := ∀ n i v, l[i]? = some v → dwordAt (s.saveBytes n) (lo + 8 * i) = v % 2 ^ 64
     (∀ n, (s.saveBytes n).length = 8192 ∧ dwordAt (s.saveBytes n) 0x340 = crc64 ((s.saveBytes n).drop 0x348) % 2 ^ 64 ∧
       dwordAt (s.saveBytes n) 0x348 = 1) ∧
     holds 0 ((List.range 32).map fun i => (s.reg (Fin.ofNat 32 i)).toNat) ∧
     holds 0x100 [r.vl, r.vrows, r.vpol.toNat, r.vprog, r.fpctl.toNat, r.fpflags.toNat, r.determ.toNat, r.rngkey.toNat, r.draw.toNat,
       r.strandkey.toNat, r.iter.toNat, r.groups.toNat, r.tdtbase.toNat, r.qerr.toNat, x.pc.toNat,
       (if x.mode = .s then 1 else 0) + x.mark % 2 ^ 32 * 2 ^ 32] ∧
     holds 0x180 ([r.tvec, r.epc, r.ecause, r.eva, r.eblame, r.eforce, r.estatus, r.escratch, r.context, r.ptbase, r.wmbase, r.wmsize,
       s.wmhead, r.istatus, r.savearea, 0].map BitVec.toNat) ∧
     holds 0x200 ((List.range 4).map fun g => x.arrive.getD g 0 % 2 ^ 32 + x.start.getD g 0 % 2 ^ 32 * 2 ^ 32) ∧
     (x.span = .ctrl → holds 0x220 [x.mm, x.mn, x.mtarget.toNat, (s.mopsOf x).length]) ∧ (x.span ≠ .ctrl → holds 0x220 [0, 0, 0, 0]) ∧
     (∀ i < 8, (∀ m, x.markers[i]? = some m → holds (0x240 + 32 * i) [2 ^ 63 + m.slot, m.phase, m.serial - 1]) ∧
       (x.markers[i]? = none → holds (0x240 + 32 * i) [0, 0, 0, 0]))) ∧
    (∀ x l c, s.launch? s.st.launch = some l → s.ctx? s.st.ctx = some c → s.st.stand = .saved →
      (∃ f, s.firstUser s.st.span x = some f ∧ f.id = l.id) → s.spotBack l s.st x = true →
      let s1 := ((((s.takeSpot x s.st.ctx s.st.span).admitTo l.id x.cluster).modLaunch l.id fun y =>
        { y with aged := 0, since := s.timer }).seat x).acquire x.cluster .dev
      (s.holdsDirty x.cluster = true → exec (.strandRestore x) s = .next s) ∧
      (s.holdsDirty x.cluster = false → ∀ bs t, readArea { s1.who with user := false } s1.st.saveAddr 128 s1 = (.ok bs, t) →
        (s1.areaOk bs = true →
          ∃ u, exec (.strandRestore x) s = .next u ∧ (∀ r : Reg, r ≠ 0 → u.reg r = wd (dwordAt bs (8 * r.val))) ∧
            u.st.pc = wd (dwordAt bs 0x170 / 4 * 4) ∧ u.st.mode = (if dwordAt bs 0x178 % 2 = 1 then .s else .u) ∧
            u.st.stand = t.st.stand ∧ u.st.sr.vl = t.st.sr.vl ∧ u.mem = t.mem ∧ u.fab = t.fab) ∧
        (s1.areaOk bs = false → ∀ u, endContext c.num 0xFE 0 t = (.ok (), u) → exec (.strandRestore x) s = .next u)))

/-! ### Failing parts and the memory's channels -/

namespace Sys2Proof.Machine

/-- One record more stands in the Milepost table: its kind, its states and object, its count, and the next sequence number (R328). A full
table takes no more, and then the device is RETIRED (R325; log entry 64). -/
def State.recorded (s t : State) (kind new old object count : Nat) : Prop :=
  (s.toll.milepost.length < 65536 →
    ∃ r : Milepost, t.toll.milepost = s.toll.milepost ++ [r] ∧ r.kind = kind ∧ r.new = new ∧ r.old = old ∧ r.object = object ∧
      r.count = count ∧ r.seq = s.toll.milepost.length + 1) ∧
  (65536 ≤ s.toll.milepost.length → t.toll.milepost = s.toll.milepost) ∧
  (65535 ≤ s.toll.milepost.length → t.toll.life = .retired)

/-- A message to the outside, and nothing else. -/
def State.sent (s : State) (m : Msg) : State := { s with sys := { s.sys with outbox := s.sys.outbox ++ [m] } }

/-- The memory, the strands and the contexts are as before. -/
def State.untouched (s t : State) : Prop := t.st = s.st ∧ t.bench = s.bench ∧ t.mem = s.mem ∧ t.sys.ctxs = s.sys.ctxs

/-- An access that stands held, and nothing else (R59). -/
def State.holding (s : State) (a : Ingress) : State := { s with sys := { s.sys with held := s.sys.held ++ [a] } }

/-- Accesses of a function are performed as they arrive: its link is secure, and none of its accesses is held. -/
def State.linkFree (s : State) (fn : Bool) : Prop := fn ∉ s.host.insecure ∧ ∀ a ∈ s.sys.held, a.source ≠ some fn

/-- The state of a command that is answered: it waits no longer. -/
def State.served (s : State) : State := { s with toll := { s.toll with queue := s.toll.queue.drop 1 } }

end Sys2Proof.Machine

/-- R49, R75, R96, R98, R161, R306 to R309, R321, R325, R326: a lane error makes its strip run again, with VPROG at its first element; a lane that
fails twice in a strip, or 64 times in all, is replaced by the spare, then costs its group a lane, with a notice, and then its core, which
is fenced. A drained cluster is renumbered without its fenced cores and its stores are zeroed; a retired one leaves the device once drained;
a failed MCC retires its cluster. A lane group's failed load path, and too many failing banks, fence the core; an error in a cluster cache
drops a clean line and poisons a dirty one, one in a window poisons its word. A debugger halts lane groups only while the debug port is
open; an empty core is gated; a port goes from 8 lanes to 6, to 4, and is then retired.
The numbers of parts, the counting of lane errors, the debugger and the gate are the model's choices: log entries 25, 26, 29, 30, 34, 37
and 64. -/
def Obligations.FailingParts : Prop :=
  (∀ (s : State) (p c core lg lane : Nat) (q : Pass),
      (s.st.passes[p]? = some q → s.runs s.st = true → q.st = .running → q.fault = none → q.checked = true → q.next < q.elems →
        c = s.st.cluster → (core, lg) ∈ s.st.laneGroups → lg < (s.fab.core c core).groups.length →
        let g := (s.fab.core c core).group lg
        let count := aget 0 g.fails lane + 1
        let again := (s.st.sid, q.serial, q.next, lg * 8 + lane) ∈ (s.fab.core c core).failed ∨ 64 ≤ count
        lane < 8 → lane ∉ g.lost →
        ∃ t, exec (.laneError p core lg lane) s = .next t ∧
          t.st = { s.st with
            passes := s.st.passes.set p { q with base := q.next, strips := q.strips + 1, replayed := true, flags := 0 }
            sr := { s.st.sr with vprog := q.next, fpflags := s.st.sr.fpflags ||| q.flags.setWidth 64 } } ∧ t.mem = s.mem ∧
          (let g' := (t.fab.core c core).group lg
           (¬ again → g'.lost = g.lost ∧ g'.spareUsed = g.spareUsed ∧ aget 0 g'.fails lane = count ∧ t.toll = s.toll ∧
             (s.st.sid, q.serial, q.next, lg * 8 + lane) ∈ (t.fab.core c core).failed) ∧
           (again → g.lost = [] → g.spareUsed = false → g'.lost = [] ∧ g'.spareUsed = true ∧ aget 0 g'.fails lane = 0 ∧
             s.recorded t 1 0 0 (objCore c core lg lane) count) ∧
           (again → g.lost = [] → g.spareUsed = true → g'.lost = [lane] ∧ g'.live = 7 ∧
             (t.cluster c).notes.length = (s.cluster c).notes.length + 1 ∧ s.recorded t 2 7 8 (objCore c core lg lane) count) ∧
           (again → g.lost ≠ [] → (t.fab.core c core).fenced = true ∧ g'.lost = g.lost))) ∧
      ((s.cluster c).draining = true → (s.cluster c).retired = false → s.drained c = true → s.mem.wf = true →
        (∃ k ∈ (s.cluster c).logical, (s.fab.core c k).fenced = true) →
        ∃ t, exec (.clusterRenumber c) s = .next t ∧
          (t.cluster c).logical = (s.cluster c).logical.filter (fun k => !(s.fab.core c k).fenced) ∧ (t.cluster c).draining = false ∧
          (∀ k ∈ (s.cluster c).logical, (s.fab.core c k).fenced = true → (t.fab.core c k).retired = true) ∧
          (∀ a, cellRead t.mem.win a = if a / 2 ^ 29 = c then 0 else cellRead s.mem.win a) ∧ t.mem.hbm = s.mem.hbm ∧
          t.mem.caches = s.mem.caches ∧ t.st = s.st ∧ s.recorded t 9 0 0 (objCore c 0 0 0) 0) ∧
      ((s.cluster c).retired = true → c ∈ s.fab.logical → s.drained c = true →
        (s.holdsDirty c = true → exec (.clusterRetirement c) s = .next s) ∧
        (s.holdsDirty c = false →
          ∃ t, exec (.clusterRetirement c) s = .next t ∧ t.fab.logical = s.fab.logical.filter (fun k => k ≠ c) ∧ t.cache c = [] ∧
            (t.fab.logical = [] → t.toll.life = .retired) ∧ t.st = s.st ∧ t.sys = s.sys)) ∧
      (c ∈ s.fab.logical → (s.cluster c).mccFailed = false →
        ∃ t, exec (.mccFailure c) s = .next t ∧ (t.cluster c).mccFailed = true ∧ (t.cluster c).retired = true ∧
          ((s.cluster c).retired = false → (t.cluster c).draining = true ∧ s.recorded t 4 0 0 (objCore c 0 0 0) 0) ∧ s.untouched t)) ∧
  (∀ (s : State) (c core g x port : Nat) (lgs : BitVec 4),
      (core ∈ (s.cluster c).logical → g < 4 → ((s.hwError (.group c core g)).fab.core c core).fenced = true) ∧
      (core ∈ (s.cluster c).logical → x < 48 → x ∉ (s.fab.core c core).banks →
        (let l := x :: (s.fab.core c core).banks
         4 < (l.filter fun b => b < 32).length ∨ 4 < (l.filter fun b => 32 ≤ b).length) →
        ((s.hwError (.bank c core x)).fab.core c core).fenced = true) ∧
      ((s.hwError (.window x)).winPoisoned (4 * x) 4 = true) ∧
      (∀ l ∈ (s.hwError (.cacheLine c x)).cache c, l.tag = x → l.dirty ≠ 0 ∧ l.poison = true) ∧
      (s.toll.debugOpen = true →
        ∃ t, exec (.debuggerHalt c core lgs) s = .next t ∧
          (t.fab.core c core).halted = (s.fab.core c core).halted ||| lgs ∧ (t.fab.core c core).groups = (s.fab.core c core).groups ∧
          s.untouched t ∧ t.sys = s.sys ∧ t.toll = s.toll) ∧
      (s.toll.debugOpen = false → exec (.debuggerHalt c core lgs) s = .next s) ∧
      (s.onCore c core = [] →
        ∃ t, exec (.powerGating c core) s = .next t ∧ (t.fab.core c core).gated = true ∧
          aget [] t.mem.icaches (tlbScalar c core) = [] ∧ aget [] t.mem.tlbs (tlbScalar c core) = [] ∧
          (∀ g < 4, aget [] t.mem.tlbs (tlbGroup c core g) = []) ∧ t.mem.win = s.mem.win ∧ t.mem.hbm = s.mem.hbm ∧
          t.mem.caches = s.mem.caches ∧ t.st = s.st ∧ t.sys = s.sys) ∧
      (s.onCore c core ≠ [] → exec (.powerGating c core) s = .next s) ∧
      (∀ old new, (old, new) ∈ [(8, 6), (6, 4), (4, 0)] → port < 18 → aget 8 s.fab.ports port = old →
        ∃ t n, exec (.portWidthChange port) s = .next t ∧ aget 8 t.fab.ports port = new ∧
          (∀ k, k ≠ port → aget 8 t.fab.ports k = aget 8 s.fab.ports k) ∧ s.recorded t 7 new old (port * 2 ^ 19) n ∧ s.untouched t) ∧
      (aget 8 s.fab.ports port = 0 ∨ 18 ≤ port → exec (.portWidthChange port) s = .next s))

/-- R46, R51, R52, R56 to R59: a row that has reached 4,096 activations makes its bank back off, which is counted, and its count starts again
at 0; an activation of a bank in back-off, behind another of its channel, or past the allowance of the power mode, waits, and is issued
when that is over; a new mode counts for the windows that begin after it. A channel of the live table becomes PREDICTED or FAILED and the
event is recorded and queued; the channels that leave with a failed one on an empty device are RETIRED and memory is zero; a window stalls,
and then moves, its held accesses going on, and after the last one the channels leave.
What an event does when it cannot happen, the numbers of the modes and of the states, which channels leave and which queue takes a notice, and
that the activation which fills a count is still issued, are the model's choices: log entries 7, 12, 27, 28, 37, 91 and 97. -/
def Obligations.ChannelEvents : Prop :=
  ∀ (s : State) (stack ch bank row w : Nat),
    let k := ch * 16 + stack
    let f := s.fab
    let r : RowAct := ⟨stack, ch, bank, row⟩
    let now := s.timer
    let gone (t : State) : Prop :=
      (∀ j, aget .live t.fab.channels j = if j ∈ f.leaving k then .retired else aget .live f.channels j) ∧
      t.fab.live = f.live - (f.leaving k).length ∧ t.fab.gen = (f.gen + 1) % 2 ^ 16
    let asks (t : State) (q : RowAct) : State := t.askActivation q
    (k ∈ f.liveTable → (stack, ch, bank) ∉ f.alerted → 4096 ≤ f.rowCount r →
      exec (.rowActivationAlert stack ⟨ch, bank, row⟩) s = .next { s with fab := { f.setRow r 0 with
        alerted := (stack, ch, bank) :: f.alerted, backoff := aset f.backoff k (aget 0 f.backoff k + 1) } }) ∧
    (f.rowCount r < 4096 → exec (.rowActivationAlert stack ⟨ch, bank, row⟩) s = .next s) ∧ (f.setRow r 0).rowCount r = 0 ∧
    exec (.backoffEnd stack ⟨ch, bank⟩) s = .next (f.waiting.foldl asks
      { s with fab := { f with alerted := f.alerted.filter (fun x => x ≠ (stack, ch, bank)), waiting := [] } }) ∧
    (f.bankHeld r = true ∨ (∃ q ∈ f.waiting, q.stack = stack ∧ q.ch = ch) ∨ f.mayActivate stack now = false →
      asks s r = { s with fab := { f with waiting := f.waiting ++ [r] } }) ∧
    (f.bankHeld r = false → (∀ q ∈ f.waiting, ¬ (q.stack = stack ∧ q.ch = ch)) → f.mayActivate stack now = true →
      asks s r = { s with fab := f.activate r now }) ∧
    ((f.bankHeld r = true ↔ (stack, ch, bank) ∈ f.alerted ∨
      ∃ x ∈ f.rows, x.1.stack = stack ∧ x.1.ch = ch ∧ x.1.bank = bank ∧ 4096 ≤ x.2) ∧
     (stack, now) ∈ (f.activate r now).activations ∧ r ∈ (f.activate r now).opened ∧
     ∀ o, (f.opened.filter fun o => o.stack = stack ∧ o.ch = ch ∧ o.bank = bank) = [o] →
       (f.activate r now).rowCount o = f.rowCount o + 1) ∧
    (∀ now : Nat,
     let since (lo : Nat) : Nat := (f.activations.filter fun a => a.1 = stack ∧ lo ≤ a.2).length
     let most (m : Nat) : Nat := [6144, 3072, 8192].getD m 4096
     let lo := now + 1 - 1250
     (∀ m, f.modes = [(0, m)] → (f.mayActivate stack now = true ↔ since lo < most m)) ∧
     (∀ m m' t, f.modes = [(t, m), (0, m')] →
       (f.mayActivate stack now = true ↔ since (max t lo) < most m ∧ (lo < t → since lo < most m')))) ∧
    (∀ pre q post, f.waiting = pre ++ q :: post → (∀ o ∈ pre, o.stack ≠ stack) → q.stack = stack → f.bankHeld q = false →
      (f.mayActivate stack now = true →
        exec (.activationWindowRelease stack) s = .next { s with fab := { f with waiting := pre ++ post }.activate q now }) ∧
      (f.mayActivate stack now = false → exec (.activationWindowRelease stack) s = .next s)) ∧
    ((∀ q ∈ f.waiting, q.stack = stack → f.bankHeld q = true) → exec (.activationWindowRelease stack) s = .next s) ∧
    (k ∈ f.liveTable → aget .live f.channels k = .live →
      ∃ t n, exec (.channelPredicted stack ch) s = .next t ∧ aget .live t.fab.channels k = .predicted ∧
        (∀ j, j ≠ k → aget .live t.fab.channels j = aget .live f.channels j) ∧ s.recorded t 5 1 0 (objChannel k) n ∧
        (t.cluster Config.deviceQueue).ras = (s.cluster Config.deviceQueue).ras ++ [t.toll.milepost.length] ∧ s.untouched t) ∧
    (k ∈ f.liveTable → (aget .live f.channels k = .live ∨ aget .live f.channels k = .predicted) →
      ∃ t n, exec (.channelFailed stack ch) s = .next t ∧ aget .live t.fab.channels k = .failed ∧
        (∀ j, j ≠ k → aget .live t.fab.channels j = aget .live f.channels j) ∧
        s.recorded t 5 2 (if aget .live f.channels k = .live then 0 else 1) (objChannel k) n ∧
        (t.cluster Config.deviceQueue).ras = (s.cluster Config.deviceQueue).ras ++ [t.toll.milepost.length] ∧ s.untouched t) ∧
    (s.isEmpty = true → f.retiring = none → k ∈ f.liveTable → aget .live f.channels k = .failed →
      ∃ t, exec (.failedChannelRetirement stack ch) s = .next t ∧ gone t ∧ t.mem.hbm = [] ∧ t.mem.poison = [] ∧ t.mem.caches = [] ∧
        t.mem.win = s.mem.win ∧ t.st = s.st ∧ t.sys = s.sys) ∧
    (∀ r, f.retiring = some r → f.stalled = none → w < (f.live - f.shed) * 8 → w ∉ f.moved →
      exec (.migrationWindowStall w) s = .next { s with fab := { f with stalled := some w } }) ∧
    (f.retiring = some k → f.stalled = some w →
      ((∀ p ∈ f.channels, p.2 ≠ .failed) → f.moved.length + 1 < (f.live - f.shed) * 8 →
        exec (.migrationWindowSwitch w) s = .next ({ s.toArray (w * 2 ^ 28) ((w + 1) * 2 ^ 28) with
          fab := { f with stalled := none, moved := w :: f.moved } } : State).releaseHeld) ∧
      ((f.live - f.shed) * 8 ≤ f.moved.length + 1 →
        ∃ t, exec (.migrationWindowSwitch w) s = .next t.releaseHeld ∧ gone t ∧ t.fab.stalled = none ∧ t.fab.moved = [] ∧
          t.fab.retiring = none ∧ t.fab.shed = 0 ∧ t.mem.hbm = s.mem.hbm ∧ t.mem.caches = s.mem.caches ∧ t.st = s.st ∧ t.sys = s.sys))

/-! ### The host, the peers and Tollhouse -/

/-- R43, R48, R59, R271, R272, R278, R313 to R315, R318, R320 to R324: what arrives from outside: BAR2 reads and writes of local HBM at device scope,
refused whole when a byte lies at or above capacity or past the BAR; the registers of BAR0, 8 bytes and aligned, with what each reads as
(write-only ones and offsets that are not listed as zero); a peer's load, store, atomic and write-back, made at the memory-side cache. An access to a stalled window is held, a later one of its function stands behind it,
and those held go on in the order in which they came; nothing arrives over an insecure link. Link training sets the domain number; a
peer's failure ends what waits for it, and else meets the next access of its kind.
Answers in recovery, accesses by peers, poison under BAR2, the arming of failures, the size of BAR2, and what STATUS and MBXDEV read as before
the boot and when RETIRED, are the model's choices: log entries 14 to 16, 39, 40, 43, 44 and 58. What a ring does is log entry 35. -/
def Obligations.HostAndPeerAccesses : Prop :=
  ∀ (s : State) (fn : Bool) (off len : Nat) (bs : List Byte) (v : Word) (z : Size) (op : AmoOp) (a : BitVec 52) (b : Word)
      (d : BitVec 12),
    let pa := s.host.bar2base.toNat + off
    let bits := aget 30 s.host.bar2bits (if fn then 1 else 0)
    let bad (n : Nat) : Prop := s.toll.recovery = true ∨ 2 ^ bits < off + n ∨ s.capacity < pa + n
    let wrote (t : State) (at_ : Nat) : Prop :=
      (∀ i < bs.length, t.devByte 0 (at_ + i) = bs.getD i 0) ∧
      (∀ k x, x < at_ ∨ at_ + bs.length ≤ x → t.devByte k x = s.devByte k x) ∧ t.st = s.st ∧ t.mem.caches = s.mem.caches ∧
      t.mem.win = s.mem.win ∧ t.fab = s.fab
    (exec (.hostBar2Read ⟨fn, off⟩ len) s = .next (s.arrives (.bar2Read fn off len)) ∧
     exec (.hostBar2Write ⟨fn, off⟩ bs) s = .next (s.arrives (.bar2Write fn off bs)) ∧
     exec (.registerWrite ⟨fn, off⟩ ⟨len, v⟩) s = .next (s.arrives (.regWrite fn off len v)) ∧
     ∀ q, exec (.peerAccess q) s = .next (s.arrives (.peer q))) ∧
    (∀ x, x.source = some fn →
      (fn ∈ s.host.insecure → s.arrives x = s) ∧
      (fn ∉ s.host.insecure → (∃ h ∈ s.sys.held, h.source = some fn) → s.arrives x = s.holding x)) ∧
    s.releaseHeld = s.sys.held.foldl State.arrives { s with sys := { s.sys with held := [] } } ∧
    (s.linkFree fn →
      (bad len → s.arrives (.bar2Read fn off len) = s.sent (.unsupported fn)) ∧
      (¬ bad len → s.heldRange pa len = true → s.arrives (.bar2Read fn off len) = s.holding (.bar2Read fn off len)) ∧
      (¬ bad len → s.heldRange pa len = false → s.arrives (.bar2Read fn off len) = s.sent (.bytes fn (s.devRead 0 pa len))) ∧
      (bad bs.length → s.arrives (.bar2Write fn off bs) = s.sent (.unsupported fn)) ∧
      (¬ bad bs.length → s.heldRange pa bs.length = true → s.arrives (.bar2Write fn off bs) = s.holding (.bar2Write fn off bs)) ∧
      (¬ bad bs.length → s.heldRange pa bs.length = false → s.mem.wf = true →
        wrote (s.arrives (.bar2Write fn off bs)) pa ∧
        (s.arrives (.bar2Write fn off bs)).sys.outbox = s.sys.outbox ++ [.posted fn]) ∧
      (off % 8 ≠ 0 ∨ len ≠ 8 → s.arrives (.regWrite fn off len v) = s.sent (.unsupported fn) ∧
        s.arrives (.regRead fn off len) = s.sent (.unsupported fn)) ∧
      (off % 8 = 0 → s.arrives (.regRead fn off 8) = s.sent (.bytes fn (leBytes 8 (s.bar0Read fn off).toNat))) ∧
      (let reads := s.bar0Read fn
       let life : Nat := match s.toll.life with | .manufacture => 0 | .deployed => 1 | .debug => 2 | .retired => 3
       reads 0 = 0x54560030 ∧
       (reads 8).toNat = (if s.toll.booted = false then 0 else
         (if s.toll.ready = true ∧ s.toll.life ≠ .retired then 1 else 0) + (if s.toll.recovery = true then 2 else 0) + 4 * life +
           16 * (s.fab.gen % 2 ^ 16)) ∧
       reads 0x10 = s.host.ctxtab ∧ reads 0x18 = 0 ∧ reads 0x20 = s.host.bar2base ∧ reads 0x1000 = 0 ∧
       reads 0x28 = (if s.toll.boots = 0 then 0 else wd (s.mbxPa 0)) ∧ (reads 0x28).toNat % 2 ^ 14 = 0 ∧
       (off % 8 = 0 → 0x4000 ≤ off → off < 0x8000 → reads off = wd (leNat (s.mbxRead .host (off - 0x4000) 8))) ∧
       (∀ k < 32, ∀ i < 64, (reads (0x108000 + 8 * k)).getLsbD i = decide (vectorKey fn (64 * k + i) ∈ s.host.pending)) ∧
       (off ∉ [0, 8, 0x10, 0x20, 0x28] → ¬ (0x4000 ≤ off ∧ off < 0x8000) → ¬ (0x100000 ≤ off ∧ off < 0x108100) → reads off = 0)) ∧
      (off % 8 = 0 → 0x100000 ≤ off → off < 0x108000 → s.toll.recovery = false →
        (s.arrives (.regWrite fn off 8 v)).bar0Read fn off = v) ∧
      (off % 8 = 0 → off ∉ [0x10, 0x18, 0x20, 0x1000] → ¬ (0x4000 ≤ off ∧ off < 0x8000) → ¬ (0x100000 ≤ off ∧ off < 0x108000) →
        s.arrives (.regWrite fn off 8 v) = s) ∧
      (s.toll.recovery = false →
        s.arrives (.regWrite fn 0x10 8 v) = { s with host := { s.host with ctxtab := wd (v.toNat / 2 ^ 14 * 2 ^ 14) } } ∧
        s.arrives (.regWrite fn 0x20 8 v) = { s with host := { s.host with bar2base := wd (v.toNat / 2 ^ bits * 2 ^ bits) } }) ∧
      (s.toll.recovery = true → off % 8 = 0 → off < 0x4000 ∨ 0x8000 ≤ off → s.arrives (.regWrite fn off 8 v) = s) ∧
      (off % 8 = 0 → 0x4000 ≤ off → off < 0x7FF8 →
        let t := s.arrives (.regWrite fn off 8 v)
        t.bar0Read fn off = v ∧ t.mem = s.mem ∧ t.toll = s.toll) ∧
      s.arrives (.regWrite fn 0x7FF8 8 v) = (s.mbxWrite .host 0x3FF8 (leBytes 8 v.toNat)).ring .host (v.toNat % 2 ^ 32)) ∧
    (let peer (q : PeerOp) : State := s.arrives (.peer q)
     (∀ q, s.fab.domain = none ∨ s.fab.portless = true → peer q = s) ∧
     (s.fab.domain ≠ none → s.fab.portless = false → s.toll.recovery = false →
      (s.heldRange a.toNat len = true → peer (.load a len) = s.holding (.peer (.load a len))) ∧
      (s.heldRange a.toNat len = false → a.toNat + len ≤ s.capacity →
        (∀ ln, a.toNat / 64 ≤ ln → ln ≤ (a.toNat + len - 1) / 64 → s.linePoison ln = false) →
        peer (.load a len) = s.sent (.peerReply (s.devRead 0 a.toNat len))) ∧
      (s.heldRange a.toNat len = false → a.toNat + len ≤ s.capacity → peer (.writeBack a len) =
        (s.toArray (a.toNat / 64 * 64) ((a.toNat + len + 63) / 64 * 64)).sent .peerAck) ∧
      (s.heldRange a.toNat bs.length = false → a.toNat + bs.length ≤ s.capacity → s.mem.wf = true →
        wrote (peer (.store a bs)) a.toNat ∧ (peer (.store a bs)).sys.outbox = s.sys.outbox ++ [.peerAck]) ∧
      (s.heldRange a.toNat bs.length = false → s.capacity < a.toNat + bs.length → peer (.store a bs) = s.sent .peerUnsupported) ∧
      (let n := szBytes z
       let m := leNat (s.devRead 0 a.toNat n)
       s.heldRange a.toNat n = false → a.toNat + n ≤ s.capacity → s.linePoison (a.toNat / 64) = false → a.toNat % n = 0 →
         peer (.atom op a z v b) = (s.devWrite 0 a.toNat
           (leBytes n (newAtomic op (8 * n) m (v.toNat % 2 ^ (8 * n)) (b.toNat % 2 ^ (8 * n))))).sent (.peerReply (leBytes n m))))) ∧
    exec (.linkTraining d) s = .next { s with fab := { s.fab with domain := some d.toNat } } ∧
    (∀ i ∈ ([.peerErrorCompletion d, .peerTimeout d] : List Instr),
      let asked : Prop := (∃ x ∈ s.strands, ∃ k ∈ x.asks, k.peer = d.toNat ∧ k.acked = false) ∨ ∃ o ∈ s.sys.owed, o.link = .peer d.toNat
      (¬ asked → exec i s = .next { s with sys := { s.sys with armed := s.sys.armed ++ [.peerError d.toNat] } }) ∧
      (asked → ∃ t, exec i s = .next t ∧ s.recorded t 10 0 0 d.toNat 0 ∧ (∀ o, o ∈ t.sys.owed ↔ o ∈ s.sys.owed ∧ o.link ≠ .peer d.toNat) ∧
        (∀ x ∈ t.strands, ∀ k ∈ x.asks, k.peer = d.toNat → k.acked = true) ∧ t.mem = s.mem)) ∧
    exec .hostUnsupportedRequest s = .next { s with sys := { s.sys with armed := s.sys.armed ++ [.hostUnsupported] } }

/-- R73, R75, R76, R99, R286, R289, R316, R318, R319: CTXACT activates a context from its entry of the context table, when it is not active and
the entry is valid, and its deactivation ends it with status 0xFE and leaves no core to it; an ended context has no strand, job, matrix
operation or launch left. A page request takes its answer once; an ATS invalidation drops the pages of a PASID, and answers that no access
has taken yet; an insecure stream stops its link, the contexts of its function end, and the event is recorded.
What an ended context leaves, keyed links, page requests as a list and the queue that takes the RAS event of an insecure stream are the model's
choices: log entries 28, 45, 58 and 59. -/
def Obligations.ContextsAndLinks : Prop :=
  ∀ (s : State) (n : BitVec 8) (k : Nat) (g : Option (BitVec 52)) (asid : BitVec 20) (pg : Option (BitVec 48)) (fn : Bool) (st : Fin 5),
    let pa := s.host.ctxtab.toNat + 64 * n.toNat
    let x := leNat (s.devRead 0 pa 64)
    let field (lo w : Nat) : Nat := x / 2 ^ lo % 2 ^ w
    (s.linkFree fn → s.toll.recovery = false → s.heldRange pa 64 = true →
      exec (.ctxactActivate ⟨fn, n⟩) s = .next (s.holding (.activate fn n.toNat))) ∧
    (s.linkFree fn → s.toll.recovery = false → s.heldRange pa 64 = false →
      (s.ctx? n.toNat ≠ none → exec (.ctxactActivate ⟨fn, n⟩) s = .next s) ∧
      (s.ctx? n.toNat = none → pa + 64 ≤ s.capacity → s.linePoison (pa / 64) = false →
        (field 511 1 = 0 ∨ field 429 82 ≠ 0 ∨ field 404 12 ≠ 0 → exec (.ctxactActivate ⟨fn, n⟩) s = .next s) ∧
        (field 511 1 = 1 → field 429 82 = 0 → field 404 12 = 0 →
          ∃ c, exec (.ctxactActivate ⟨fn, n⟩) s = .next { s with sys := { s.sys with ctxs := s.sys.ctxs ++ [c] } } ∧ c.num = n.toNat ∧
            c.ptbase = wd (field 0 64) ∧ c.tdtbase = wd (field 64 64) ∧ c.tvec = wd (field 128 64) ∧ c.savePool = wd (field 256 64) ∧
            c.saveCount = field 352 32 ∧ c.asid = field 384 16 ∧ c.tenant = field 400 4 ∧ c.msivec = field 416 11 ∧
            c.wmbase = wd (field 192 64) ∧ c.wmsize = wd (field 320 32) ∧ (c.hfn = true ↔ field 427 1 = 1) ∧
            (c.ats = true ↔ field 428 1 = 1) ∧ c.wmHead = 0 ∧ c.groups = [] ∧ c.areas = []))) ∧
    (s.linkFree fn → s.toll.recovery = false → s.ctx? n.toNat ≠ none →
      (∀ t, endContext n.toNat 0xFE 0 s = (.ok (), t) →
        ∃ u, exec (.ctxactDeactivate ⟨fn, n⟩) s = .next u ∧ u.ctx? n.toNat = none ∧ (∀ q ∈ u.fab.cores, q.2.ctx ≠ some n.toNat) ∧
          u.sys.launches = t.sys.launches ∧ u.mem = t.mem ∧ u.st = t.st) ∧
      (∀ e t, endContext n.toNat 0xFE 0 s = (.error e, t) →
        exec (.ctxactDeactivate ⟨fn, n⟩) s = .next ((s.afterWait t).holding (.deactivate fn n.toNat)))) ∧
    (s.linkFree fn → s.toll.recovery = false → s.ctx? n.toNat = none → exec (.ctxactDeactivate ⟨fn, n⟩) s = .next s) ∧
    (∀ (m : Nat) (fault : Option Word),
      let status : Nat := if fault = none then 0xFE else 0x15
      let va : Word := fault.getD 0
      (s.ctx? m = none → s.arrives (.endContext m fault) = s) ∧
      (s.ctx? m ≠ none → (∀ t, endContext m status va s = (.ok (), t) → s.arrives (.endContext m fault) = t) ∧
        (∀ e t, endContext m status va s = (.error e, t) →
          s.arrives (.endContext m fault) = (s.afterWait t).holding (.endContext m fault))) ∧
      (∀ t, endContext m status va s = (.ok (), t) → (∀ y ∈ t.strands, y.ctx = m → y.stand = .none) ∧
        (∀ l ∈ t.sys.launches, l.ctx ≠ m) ∧ (∀ c ∈ t.fab.clusters, (∀ j ∈ c.2.jobs, j.ctx ≠ m) ∧ ∀ o ∈ c.2.mops, o.ctx ≠ m) ∧
        (∀ c ∈ t.sys.ctxs, c.num = m → c.groups = []))) ∧
    (∀ (i : Instr) (ans : Option Nat), (i = .priResponse k g ∧ ans = g.map BitVec.toNat) ∨ (i = .priTimeout k ∧ ans = none) →
      ∃ t, exec i s = .next t ∧ t.sys.pri.length = s.sys.pri.length ∧ s.untouched t ∧
        ∀ j p, s.sys.pri[j]? = some p →
          t.sys.pri[j]? = some (if j = k ∧ p.answer = none then { p with answer := some ans } else p)) ∧
    (∃ t, exec (.atsInvalidation asid pg) s = .next t ∧ t.st = s.st ∧ t.mem.tlbs = s.mem.tlbs ∧ t.mem.hbm = s.mem.hbm ∧
      (∀ e, e ∈ t.mem.atc ↔ e ∈ s.mem.atc ∧ ¬ (e.1 = asid.toNat ∧ ∀ p, pg = some p → e.2.1 = p.toNat)) ∧
      ∀ q, q ∈ t.sys.pri ↔ q ∈ s.sys.pri ∧ ¬ (q.answer ≠ none ∧ q.asid = asid.toNat ∧ ∀ p, pg = some p → q.page = p.toNat)) ∧
    (∃ t, exec (.ideKm fn st) s = .next t ∧ (fn, st.val) ∈ t.host.ideKeys ∧ fn ∉ t.host.insecure ∧
      (∀ q, q ≠ (fn, st.val) → (q ∈ t.host.ideKeys ↔ q ∈ s.host.ideKeys)) ∧ s.untouched t) ∧
    ((∀ q ∈ s.host.ideKeys, q.1 ≠ fn) → exec (.ideInsecure fn) s = .next s) ∧
    ((∃ q ∈ s.host.ideKeys, q.1 = fn) →
      ∃ s1 t, exec (.ideInsecure fn) s = .next t ∧ fn ∈ s1.host.insecure ∧ (∀ q ∈ s1.host.ideKeys, q.1 ≠ fn) ∧
        (∀ o, o ∈ s1.sys.owed ↔ o ∈ s.sys.owed ∧ o.link ≠ .host fn) ∧ s.untouched s1 ∧ s1.fab = s.fab ∧ s1.toll = s.toll ∧
        (let s2 := (s.sys.ctxs.filter fun c => c.hfn = fn).foldl (fun u c => u.arrives (.endContext c.num none)) s1
         s2.recorded t 10 0 0 0 0 ∧ s2.untouched t ∧ t.sys.launches = s2.sys.launches ∧ t.sys.held = s2.sys.held ∧
         (t.cluster Config.deviceQueue).ras = (s2.cluster Config.deviceQueue).ras ++ [t.toll.milepost.length]))

/-- R58, R59, R319, R323 to R328, R330: a ring adds a command to the one order in which both sides are served, or is answered BUSY; the oldest
is answered while Tollhouse runs: its status, its length, which counts both dwords, and the body of its response stand from 0x1000 of its
side's area, the command word is cleared, and the doorbell rings; each of the nine commands has its effect, or is refused with status 2, as DEBUGUNLOCK is when no nonce
of an ATTEST has a token that verifies, or has a bad argument with status 3. No other command has an effect.
The numbers of the modes, channel retirement, the queue of doorbells, the places of arguments, the clearing of the command word, the bodies of
responses and what a token signs are the model's choices: log entries 12, 27, 28, 35 to 38 and 42. -/
def Obligations.MailboxCommands : Prop :=
  ∀ (s : State) (side : Side),
    let x := s.arg side 0
    let answers (i : Instr) (t : State) (status : Nat) (body : List Byte) : Prop := exec i s = .next (t.served.respond side status body)
    (∀ q ∈ ([(.attest side, 1), (.milepost side, 2), (.raslog side, 3), (.powermode side, 4), (.tenantkey side, 5), (.chanret side, 6),
        (.debugunlock side, 7), (.mailboxCtxact side, 8), (.extend side, 9)] : List (Instr × Nat)),
      s.called side q.2 = false → exec q.1 s = .next s) ∧
    (∀ code, (s.called side code = true ↔ s.toll.booted = true ∧ s.toll.queue.head? = some (side, code) ∧
      (side = .supervisor → s.heldRange (s.mbxPa 0) 0x4000 = false))) ∧
    (∀ code, (code = 0 ∨ 9 < code → s.ring side code = s) ∧
      (1 ≤ code → code ≤ 9 → (∃ q ∈ s.toll.queue, q.1 = side) → s.ring side code = s.respond side 1 []) ∧
      (1 ≤ code → code ≤ 9 → (∀ q ∈ s.toll.queue, q.1 ≠ side) →
        s.ring side code = { s with toll := { s.toll with queue := s.toll.queue ++ [(side, code)] } })) ∧
    (∀ status body, body.length < 0x2F00 → status < 2 ^ 64 →
      let u := s.respond side status body
      u.mbxRead side 0x1000 8 = leBytes 8 status ∧ u.mbxRead side 0x1008 8 = leBytes 8 (body.length + 16) ∧
      u.mbxRead side 0x1010 body.length = body ∧ u.mbxRead side 0x3FF8 4 = leBytes 4 0 ∧ u.st = s.st ∧ u.toll = s.toll ∧
      (side = .supervisor → (u.cluster Config.deviceQueue).bells = (s.cluster Config.deviceQueue).bells + 1) ∧
      (side = .host → u.mem = s.mem ∧ ∀ fn, fn ∉ s.host.insecure →
        (s.host.masked fn 0 = true → vectorKey fn 0 ∈ u.host.pending) ∧ (s.host.masked fn 0 = false → .msix fn 0 ∈ u.sys.outbox))) ∧
    (s.called side 1 = true →
      let nonce := s.mbxRead side 0 64
      let text := s.toll.mr.flatMap (fun m => leBytes 64 m.toNat) ++ leBytes 8 s.toll.life.code ++ leBytes 8 s.toll.milepost.length ++ nonce
      ∃ sig, sig.length = 4627 ∧
        answers (.attest side) { s with free := s.free + 1, toll := { s.toll with nonces := s.toll.nonces ++ [nonce] } } 0 (text ++ sig)) ∧
    (s.called side 2 = true →
      answers (.milepost side) s 0 (((s.toll.milepost.filter fun r => x ≤ r.seq).take 60).flatMap Milepost.bytes)) ∧
    (s.called side 3 = true →
      ∃ u body, answers (.raslog side) u 0 body ∧ body.length = 6152 ∧ u.st = s.st ∧ u.mem = s.mem ∧ u.sys = s.sys ∧
        (∀ i < 384, leNat ((body.drop (8 * i)).take 8) = aget 0 s.fab.backoff (i / 12 * 16 + i % 12) % 2 ^ 64) ∧
        leNat (body.drop 6144) = s.sys.rejects % 2 ^ 64) ∧
    (s.called side 4 = true →
      (x < 4 → answers (.powermode side) { s with fab := { s.fab with modes := (s.timer, x) :: s.fab.modes } } 0 []) ∧
      (4 ≤ x → answers (.powermode side) s 3 [])) ∧
    (s.called side 5 = true →
      (16 ≤ x → answers (.tenantkey side) s 3 []) ∧
      (x < 16 → (∃ c ∈ s.sys.ctxs, c.tenant = x) → answers (.tenantkey side) s 2 []) ∧
      (x < 16 → (∀ c ∈ s.sys.ctxs, c.tenant ≠ x) →
        ∃ t, answers (.tenantkey side) t 0 [] ∧ t.st = s.st ∧ t.mem = s.mem ∧ t.keyTag x ≠ s.keyTag x ∧
          ∀ k, k ≠ x → t.keyTag k = s.keyTag k)) ∧
    (s.called side 6 = true →
      (s.fab.retiring ≠ none ∨ s.fab.predicted? = none → answers (.chanret side) s 2 []) ∧
      (∀ k, s.fab.retiring = none → s.fab.predicted? = some k →
        answers (.chanret side)
          { s with fab := { s.fab with retiring := some k, shed := (s.fab.leaving k).length, moved := [] } } 0 [])) ∧
    (s.called side 7 = true →
      let token := s.mbxRead side 0 4096
      let signs (n : List Byte) : Prop := n ∈ s.toll.nonces ∧ Config.vendorSigned token (s.tokenDigest n) = true
      (s.isEmpty = false ∨ s.toll.life ≠ .deployed → answers (.debugunlock side) s 2 []) ∧
      (s.isEmpty = true → s.toll.life = .deployed → open Classical in if ¬ ∃ n, signs n then answers (.debugunlock side) s 2 [] else
        ∃ t m, answers (.debugunlock side) t 0 [] ∧ t.toll.debugOpen = true ∧ signs m ∧ t.toll.nonces = s.toll.nonces.erase m ∧ s.recorded t 8 2 1 0 0 ∧
          (s.toll.milepost.length < 65535 → t.toll.life = .debug) ∧
          t.mem.hbm = [] ∧ t.mem.caches = [] ∧ (∀ k < 16, t.keyTag k ≠ s.keyTag k) ∧ t.st = s.st ∧
          ∀ k, k ≠ 3 → t.toll.mr[k]? = s.toll.mr[k]?)) ∧
    (s.called side 8 = true → s.heldRange (s.host.ctxtab.toNat + 64 * (x % 256)) 64 = true → exec (.mailboxCtxact side) s = .next s) ∧
    (s.called side 8 = true → s.heldRange (s.host.ctxtab.toNat + 64 * (x % 256)) 64 = false →
      (x / 2 ^ 63 % 2 = 0 → ∀ t ans, s.activate (x % 256) = (t, ans) →
        answers (.mailboxCtxact side) t (match ans with | .ok => 0 | .refused => 2 | .badArg => 3) []) ∧
      (x / 2 ^ 63 % 2 = 1 → s.ctx? (x % 256) = none → answers (.mailboxCtxact side) s 0 []) ∧
      (x / 2 ^ 63 % 2 = 1 → s.ctx? (x % 256) ≠ none → ∀ t, deactivate (x % 256) s = (.ok (), t) →
        answers (.mailboxCtxact side) t 0 [])) ∧
    (s.called side 9 = true →
      (4 ≤ x → x < 8 → ∃ v, answers (.extend side) { s with toll := { s.toll with mr := s.toll.mr.set x v } } 0 [] ∧
        v = extendMr (s.toll.mr.getD x 0) (BitVec.ofNat 512 (leNat (s.mbxRead side 8 64)))) ∧
      (x < 4 ∨ 8 ≤ x → answers (.extend side) s 3 []))

/-- R309, R323, R325, R331: either reset leaves no strand, no context, no launch and memory of zeros, TIMER 0, every key anew, the measurement
registers zero and Tollhouse not yet booted, and keeps the Milepost table, the map generation and the channel states; a part that is left
with no live cluster or no live stack is RETIRED. The fuses take MANUFACTURE to DEPLOYED and any state to RETIRED.
Keys made anew, what a reset keeps, that no line is poisoned after it, that Tollhouse boots later, and the records of fuses are the model's
choices: log entries 8, 9, 16, 41 and 64. -/
def Obligations.ResetsAndLifecycle : Prop :=
  ∀ (s : State),
    (∀ i ∈ ([.coldReset, .warmReset] : List Instr),
      let left : Prop := (∃ c ∈ s.fab.logical, (s.cluster c).retired = false) ∧ s.fab.liveTable ≠ []
      ∃ t, exec i s = .next t ∧ (∀ x ∈ t.strands, x.stand = .none) ∧ t.sys.ctxs = [] ∧ t.sys.launches = [] ∧ t.sys.port = [] ∧
        t.sys.held = [] ∧ t.sys.owed = [] ∧
        t.mem.hbm = [] ∧ t.mem.win = [] ∧ t.mem.poison = [] ∧ t.mem.caches = [] ∧ t.mem.tlbs = [] ∧ t.timer = 0 ∧
        (∀ k < 16, t.keyTag k ≠ s.keyTag k) ∧ t.toll.mr = List.replicate 8 0 ∧ t.toll.booted = false ∧ t.toll.ready = false ∧
        t.fab.channels = s.fab.channels ∧ t.fab.live = s.fab.live ∧ t.fab.gen = s.fab.gen ∧
        t.fab.logical = s.fab.logical.filter (fun c => !(s.cluster c).retired) ∧
        s.toll.milepost <+: t.toll.milepost ∧ t.host.ctxtab = 0 ∧ t.host.bar2base = 0 ∧
        (left → s.toll.life ≠ .debug → t.toll.life = s.toll.life ∧ t.toll.milepost = s.toll.milepost) ∧
        (left → s.toll.life = .debug → s.recorded t 8 1 2 0 0 ∧ (s.toll.milepost.length < 65535 → t.toll.life = .deployed)) ∧
        (¬ left → t.toll.life = .retired)) ∧
    (s.toll.life = .manufacture →
      ∃ t, exec (.lifecycleFuse false) s = .next t ∧ (s.toll.milepost.length < 65535 → t.toll.life = .deployed) ∧
        s.recorded t 8 1 0 0 0 ∧ s.untouched t) ∧
    (s.toll.life ≠ .manufacture → exec (.lifecycleFuse false) s = .next s) ∧
    (∃ t, exec (.lifecycleFuse true) s = .next t ∧ t.toll.life = .retired ∧ s.untouched t ∧ (s.toll.life = .retired → t = s))

/-! ### The machine -/

namespace Sys2Proof.Machine

/-- The registers of a strand hold only what their fields can (R110, R114, R116, R117). -/
def SRegs.inRange (r : SRegs) : Prop :=
  1 ≤ r.vrows ∧ r.vrows ≤ 65535 ∧ r.vpol.toNat < 8 ∧ r.fpctl &&& 0x1F3 = r.fpctl ∧ r.fpflags.toNat < 32 ∧ r.determ.toNat < 2 ∧
  r.tvec.toNat % 4 = 0 ∧ r.estatus.toNat < 8 ∧ r.istatus.toNat < 16 ∧ r.ptbase &&& 0xFFFFFFF000000 = r.ptbase

/-- What only mode S may change, the registers that a trap writes apart. -/
def SRegs.guarded (a b : SRegs) : Prop :=
  b.tvec = a.tvec ∧ b.escratch = a.escratch ∧ b.context = a.context ∧ b.ptbase = a.ptbase ∧ b.wmbase = a.wmbase ∧
  b.wmsize = a.wmsize ∧ b.savearea = a.savearea

end Sys2Proof.Machine

/-- R22 to R28: every well-formed instruction that has a word is what its word decodes to, with every operand at every value that the
encoding admits. -/
def Obligations.DecodeInvertsEncode : Prop :=
  ∀ (i : Instr) (w : IWord), wellFormed i = true → encode i = some w → decodeWord w = .ok i

/-- R25, R29, R30, R117: words written out from the encodings of the opcode tables, and what they stand for: an ADD of the register form (R25), an
MFS of the state register numbered in its low bits (R25, R117) and a NOP; a member that is not assigned and a reserved field that is not zero (a
NOP with D = 1) are illegal words (R29), and a word of major 0x3F is no instruction either (R30). -/
def Obligations.DecodingSanity : Prop :=
  decodeWord 0x114B6000 = .ok (.add 10 11 12) ∧
  decodeWord 0x09400006 = .ok (.mfs 10 6) ∧
  decodeWord 0x00000001 = .ok .nop ∧
  (∀ i, decodeWord 0x00000000 ≠ .ok i) ∧
  (∀ i, decodeWord 0x00200001 ≠ .ok i) ∧
  ∀ i, decodeWord 0xFC000000 ≠ .ok i

/-- R20, R21, R29, R30, R33, R49, R292, R296: a front end gives its turn to the ready strand whose slot comes first after the one that issued
last; at its boundary with no deferred trap and no interrupt, the word at PC is fetched, and the step is what
its instruction does: of a word that decodes, that instruction; of major 0x3F the emulation trap, of any other word the illegal-instruction
trap; of a fetch that fails its trap. Another word than WAIT ends a WAIT under way (R310). The step count advances by one. A fetch reads the four bytes at PC, the least significant first, through
the translation of a fetch, whose traps it has with EVA the PC (R66); in local HBM from the front end's instruction cache, which data writes
do not reach (R95), and else as the cluster's cache reads, whence the line is kept; a host page's at the host. Poison is cause 0x13.
The agenda is the model's own: log entries 1 and 20; which lines an instruction cache keeps is log entry 61. -/
def Obligations.StepRunsDecoded : Prop :=
  (∀ (s : State),
    let pc := s.st.pc
    let front := tlbScalar s.st.cluster (if s.st.span = .ctrl then Config.mccCore else s.st.core)
    let byte (bs : List Byte) (i : Nat) : Nat := (bs.getD i 0).toNat * 2 ^ (8 * i)
    let got (bad : Bool) (bs : List Byte) (v : State) : Prop :=
      fetch s = (if bad then .error (.trap 0x13 0 pc) else .ok (BitVec.ofNat 32 (byte bs 0 + byte bs 1 + byte bs 2 + byte bs 3)), v)
    (pc.toNat / 2 ^ 29 = 0x7FFF0000000000 / 2 ^ 29 → fetch s = (.error (.trap 0x1C 0 pc), s)) ∧
    ∀ u,
      (∀ e, translate s.who .fetch pc 4 s = (.error e, u) → fetch s = (.error e, u)) ∧
      (∀ pa ten, translate s.who .fetch pc 4 s = (.ok (.hbm pa ten), u) →
        (∀ x, u.fetchedLine front ten (pa / 64) = some x → got x.poison ((x.bytes.drop (pa % 64)).take 4) u) ∧
        (u.fetchedLine front ten (pa / 64) = none →
          let r := u.cluRead s.st.cluster ten pa 4
          ∃ v x, got r.2.2 r.2.1 v ∧ v.mem.caches = r.1.mem.caches ∧ v.fetchedLine front ten (pa / 64) = some x ∧
            (x.bytes.drop (pa % 64)).take 4 = r.2.1)) ∧
      (∀ pa, translate s.who .fetch pc 4 s = (.ok (.host pa), u) → got false ((List.range 4).map fun i => u.hostByte (pa + i)) u)) ∧
  ∀ (s : State) (rest : List Act), s.sys.agenda = ⟨none, .boundary⟩ :: rest →
    let a0 : State := { s with sys := { s.sys with agenda := rest } }
    let s0 := a0.takeTurn
    (a0.runs a0.st = true → (a0.strands.map Strand.sid).Nodup →
      let turn := (a0.fab.core a0.st.cluster a0.st.core).turn
      let far (x : Strand) : Nat := (x.slot + 3 - turn % 4) % 4
      s0.st ∈ a0.strands ∧ s0.st.cluster = a0.st.cluster ∧ s0.st.core = a0.st.core ∧ s0.mem = a0.mem ∧ s0.sys = a0.sys ∧
        (s0.fab.core s0.st.cluster s0.st.core).turn = s0.st.slot ∧
        ∀ x ∈ a0.strands, a0.runs x = true → x.cluster = a0.st.cluster → x.core = a0.st.core → far s0.st ≤ far x) ∧
    (s0.runs s0.st = true → s0.st.deferred = false → s0.interruptFor = none →
      (∀ w s1, fetch s0 = (.ok w, s1) →
        let met (i : Instr) : Strand := if i = .wait then s1.st else { s1.st with waiting := false, woken := false }
        let runs (i : Instr) : Prop := ∀ t, exec i { s1 with st := { met i with fetched := true } } = .next t →
          step s = .next { t with steps := t.steps + 1 }
        (∀ i, decodeWord w = .ok i → runs i) ∧
        (∀ e, decodeWord w = .error e →
          (w.toNat / 2 ^ 26 = 0x3F → runs (.emulationTrap w)) ∧ (w.toNat / 2 ^ 26 ≠ 0x3F → runs (.illegalInstruction w)))) ∧
      (∀ c d v s1, fetch s0 = (.error (.trap c d v), s1) → s1.st.fetched = true →
        step s = .next { (s1.trapped c d v) with steps := s1.steps + 1 }))

/-- R20, R31, R290, R296: a word of mode U that ends in a next state changes no privileged state register, no partition or pin of a core and no
slot entry of a matrix engine, but by entering a trap: then the strand is in mode S at TVEC, with the mode it came from in ESTATUS and IE
cleared, and only the registers that a trap writes have changed. WMHEAD, which the records of a pass advance, is the context's and not named
here. -/
def Obligations.UserModeKeepsPrivilegedRegisters : Prop :=
  ∀ (i : Instr) (w : IWord) (s t : State), encode i = some w → s.st.mode = .u → exec i s = .next t →
    let a := s.st.sr
    let b := t.st.sr
    a.guarded b ∧ (∀ c k, (t.fab.core c k).part = (s.fab.core c k).part ∧ (t.fab.core c k).pin = (s.fab.core c k).pin) ∧
    (∀ c, (t.cluster c).slots = (s.cluster c).slots) ∧
    (t.st.mode = .u → b.epc = a.epc ∧ b.ecause = a.ecause ∧ b.eva = a.eva ∧ b.eblame = a.eblame ∧ b.eforce = a.eforce ∧
      b.estatus = a.estatus ∧ b.istatus = a.istatus) ∧
    (t.st.mode = .s → t.st.pc = a.tvec ∧ b.estatus.toNat % 2 = 0 ∧ b.istatus.toNat = a.istatus.toNat / 2 * 2)

/-- R331: the machine right after reset: no strand stands anywhere, no context, launch or job exists, local HBM and every scratchpad and
accumulator byte is zero, no line is poisoned, TIMER is 0, every channel is live, and the memory is sound.
That no line is poisoned is log entry 9, and that a part has every channel and has not booted is log entries 16 and 17. The fields of the
strand's registers are in their ranges. -/
def Obligations.ResetState : Prop :=
  State.reset.mem.sound ∧ (∀ t ∈ State.reset.strands, t.stand = .none ∧ t.sr.inRange) ∧ State.reset.sys.ctxs = [] ∧
  State.reset.sys.launches = [] ∧
  (∀ a, cellRead State.reset.mem.hbm a = 0 ∧ cellRead State.reset.mem.win a = 0) ∧ (∀ ln, State.reset.linePoison ln = false) ∧
  State.reset.timer = 0 ∧ State.reset.fab.liveTable.length = 384 ∧ (∀ c, (State.reset.cluster c).jobs = [] ∧ (State.reset.cluster c).mops = []) ∧
  State.reset.capacity = 384 * 2 ^ 31 ∧ State.reset.toll.ready = false

/-- An invariant that every step keeps, whatever the machine does: the cells of memory stay in canonical form, no cluster cache holds more
than its 16 MiB or two lines of one address, and every line that a cluster caches holds 64 bytes (R92). -/
def Obligations.StepKeepsMemorySound : Prop :=
  ∀ (s t : State), s.mem.sound → step s = .next t → t.mem.sound

/-- An invariant that every step keeps: the registers of every strand hold only what their fields can, VROWS from 1 to 65,535 among them (R110,
R114, R116, R117). VL is not among them: R107 lets a restored strand keep a VL above its new VLMAX. -/
def Obligations.StepKeepsRegistersInRange : Prop :=
  ∀ (s t : State), (∀ x ∈ s.strands, x.sr.inRange) → step s = .next t → ∀ x ∈ t.strands, x.sr.inRange
end

