-- ==== Sys2Proof/Laws/Encoding.lean ====
section
/-!
SUPPORT. The fields of an encoded word come back: one lemma for each field of each format (spec/02 R22), and of each group of
sub-fields below B.
-/

namespace Sys2Proof

/-- A word that fits is its number. -/
theorem toNat_word (n : Nat) (h : n < 2 ^ 32) : (BitVec.ofNat 32 n).toNat = n := by
  simp only [BitVec.toNat_ofNat]
  exact Nat.mod_eq_of_lt h

theorem reg_val (r : Reg) (n : Nat) (h : n % 32 = r.val) : reg n = r := by
  apply Fin.ext
  simpa [reg, Fin.ofNat] using h

/-! ### Format R and its kin -/

theorem fmtR_lt (op : Nat) (d a b : Reg) (f : Nat) (ho : op < 64) (hf : f < 2 ^ 11) : fmtR op d a b f < 2 ^ 32 := by
  unfold fmtR; omega

theorem fmtR_op (op : Nat) (d a b : Reg) (f : Nat) (hf : f < 2 ^ 11) : fmtR op d a b f / 2 ^ 26 = op := by
  unfold fmtR; omega

theorem fmtR_d (op : Nat) (d a b : Reg) (f : Nat) (hf : f < 2 ^ 11) : reg (fmtR op d a b f / 2 ^ 21) = d :=
  reg_val _ _ (by unfold fmtR; omega)

theorem fmtR_a (op : Nat) (d a b : Reg) (f : Nat) (hf : f < 2 ^ 11) : reg (fmtR op d a b f / 2 ^ 16) = a :=
  reg_val _ _ (by unfold fmtR; omega)

theorem fmtR_b (op : Nat) (d a b : Reg) (f : Nat) (hf : f < 2 ^ 11) : reg (fmtR op d a b f / 2 ^ 11) = b :=
  reg_val _ _ (by unfold fmtR; omega)

theorem fmtR_f (op : Nat) (d a b : Reg) (f : Nat) (hf : f < 2 ^ 11) : fmtR op d a b f % 2 ^ 11 = f := by
  unfold fmtR; omega

/-! ### Formats I, I2, LS and B2 -/

theorem fmtI_lt (op : Nat) (d a : Reg) (x : Nat) (ho : op < 64) (hx : x < 2 ^ 16) : fmtI op d a x < 2 ^ 32 := by
  unfold fmtI; omega

theorem fmtI_op (op : Nat) (d a : Reg) (x : Nat) (hx : x < 2 ^ 16) : fmtI op d a x / 2 ^ 26 = op := by
  unfold fmtI; omega

theorem fmtI_d (op : Nat) (d a : Reg) (x : Nat) (hx : x < 2 ^ 16) : reg (fmtI op d a x / 2 ^ 21) = d :=
  reg_val _ _ (by unfold fmtI; omega)

theorem fmtI_a (op : Nat) (d a : Reg) (x : Nat) (hx : x < 2 ^ 16) : reg (fmtI op d a x / 2 ^ 16) = a :=
  reg_val _ _ (by unfold fmtI; omega)

theorem fmtI_x (op : Nat) (d a : Reg) (x : Nat) (hx : x < 2 ^ 16) : fmtI op d a x % 2 ^ 16 = x := by
  unfold fmtI; omega

/-! ### Formats K, B1, J and VX -/

theorem fmtK_lt (op : Nat) (d : Reg) (k fn x : Nat) (ho : op < 64) (hk : k < 4) (hf : fn < 8) (hx : x < 2 ^ 16) :
    fmtK op d k fn x < 2 ^ 32 := by
  unfold fmtK; omega

theorem fmtB1_lt (op : Nat) (a : Reg) (c off : Nat) (ho : op < 64) (hc : c < 8) (hx : off < 2 ^ 18) : fmtB1 op a c off < 2 ^ 32 := by
  unfold fmtB1; omega

theorem fmtJ_lt (op l off : Nat) (ho : op < 64) (hl : l < 2) (hx : off < 2 ^ 25) : fmtJ op l off < 2 ^ 32 := by
  unfold fmtJ; omega

theorem fmtX_lt (op : Nat) (vd : Reg) (start step : Nat) (ho : op < 64) (hs : start < 2 ^ 11) (ht : step < 2 ^ 10) :
    fmtX op vd start step < 2 ^ 32 := by
  unfold fmtX; omega

/-! ### The fields below B -/

theorem maskBits_lt (m : Mask) : maskBits m < 64 := by
  cases m <;> simp [maskBits]; omega

theorem vFn_lt (m : Mask) (k : Nat) (hk : k < 32) : vFn m k < 2 ^ 11 := by
  have := maskBits_lt m; unfold vFn; omega

theorem v4Fn_lt (vc : Reg) (m : Mask) : v4Fn vc m < 2 ^ 11 := by
  have := maskBits_lt m; unfold v4Fn; omega

theorem Ty.toNat_lt (t : Ty) : t.toNat < 13 := by cases t <;> decide

theorem vmFn_lt (q : Bool) (m : Mask) (t : Ty) : vmFn q m t < 2 ^ 11 := by
  have := maskBits_lt m; have := t.toNat_lt; unfold vmFn; split <;> omega

theorem vredFn_lt (q : Bool) (m : Mask) (k : Nat) (hk : k < 16) : vredFn q m k < 2 ^ 11 := by
  have := maskBits_lt m; unfold vredFn; split <;> omega

theorem Scope.toNat_lt (s : Scope) : s.toNat < 4 := by cases s <;> decide
theorem Order.toNat_lt (o : Order) : o.toNat < 4 := by cases o <;> decide

theorem atomFn_lt (k : Nat) (s : Scope) (o : Order) (z : Size) (hk : k < 16) : atomFn k s o z < 2 ^ 11 := by
  have := s.toNat_lt; have := o.toNat_lt; unfold atomFn; split <;> omega

theorem sfpFn_lt (p : Prec) (u : Bool) (k : Nat) (hk : k < 32) : sfpFn p u k < 2 ^ 11 := by
  unfold sfpFn; split <;> split <;> omega

/-- A mask comes back from ME and M. -/
theorem withMask_maskBits (m : Mask) (k : Mask → Except DecodeError Instr) :
    withMask (maskBits m / 32) (maskBits m % 32) k = k m := by
  cases m with
  | none => rfl
  | some p =>
    have h1 : (32 + p.val) / 32 = 1 := by omega
    have h2 : (32 + p.val) % 32 = p.val := by omega
    have h3 : reg p.val = p := reg_val _ _ (Nat.mod_eq_of_lt p.isLt)
    simp only [maskBits, withMask, h1, h2, h3, if_true]

/-- The fields of format V. -/
theorem vFn_mask (m : Mask) (j : Nat) (hj : j < 32) (k : Mask → Except DecodeError Instr) :
    withMask (vFn m j / 2 ^ 10) (vFn m j / 2 ^ 5 % 32) k = k m := by
  have h := maskBits_lt m
  have h1 : vFn m j / 2 ^ 10 = maskBits m / 32 := by unfold vFn; omega
  have h2 : vFn m j / 2 ^ 5 % 32 = maskBits m % 32 := by unfold vFn; omega
  rw [h1, h2, withMask_maskBits]

theorem vFn_sub (m : Mask) (j : Nat) (hj : j < 32) : vFn m j % 32 = j := by unfold vFn; omega

/-- The fields of format V4. -/
theorem v4Fn_mask (vc : Reg) (m : Mask) (k : Mask → Except DecodeError Instr) :
    withMask (v4Fn vc m / 2 ^ 5 % 2) (v4Fn vc m % 32) k = k m := by
  have h := maskBits_lt m
  have h1 : v4Fn vc m / 2 ^ 5 % 2 = maskBits m / 32 := by unfold v4Fn; omega
  have h2 : v4Fn vc m % 32 = maskBits m % 32 := by unfold v4Fn; omega
  rw [h1, h2, withMask_maskBits]

theorem v4Fn_vc (vc : Reg) (m : Mask) : reg (v4Fn vc m / 2 ^ 6) = vc :=
  reg_val _ _ (by have := maskBits_lt m; unfold v4Fn; omega)

/-- A type code comes back. -/
theorem Ty.ofCode_toNat (t : Ty) : Ty.ofCode t.toNat = some t := by cases t <;> rfl

/-- The fields of format VM. -/
theorem withVm_vmFn (q : Bool) (m : Mask) (t : Ty) (k : Bool → Mask → Ty → Except DecodeError Instr) :
    withVm (vmFn q m t) k = k q m t := by
  have h := maskBits_lt m
  have ht := t.toNat_lt
  have h1 : vmFn q m t / 2 ^ 9 % 2 = maskBits m / 32 := by unfold vmFn; split <;> omega
  have h2 : vmFn q m t / 2 ^ 4 % 32 = maskBits m % 32 := by unfold vmFn; split <;> omega
  have h3 : vmFn q m t % 16 = t.toNat := by unfold vmFn; split <;> omega
  have h4 : (vmFn q m t / 2 ^ 10 == 1) = q := by
    cases q
    · have : vmFn false m t / 2 ^ 10 = 0 := by simp only [vmFn]; simp; omega
      rw [this]; rfl
    · have : vmFn true m t / 2 ^ 10 = 1 := by simp only [vmFn]; simp; omega
      rw [this]; rfl
  unfold withVm
  rw [h1, h2, withMask_maskBits, h3, Ty.ofCode_toNat, h4]

theorem decLoad_vmFn (ok : Ty → Bool) (m : Mask) (t : Ty) (h : ok t = true) (k : Mask → Ty → Except DecodeError Instr) :
    decLoad ok (vmFn false m t) k = k m t := by
  unfold decLoad; rw [withVm_vmFn]; simp [h]

theorem decStore_vmFn (ok : Ty → Bool) (q : Bool) (m : Mask) (t : Ty) (h : ok t = true)
    (k : Bool → Mask → Ty → Except DecodeError Instr) : decStore ok (vmFn q m t) k = k q m t := by
  unfold decStore; rw [withVm_vmFn]; simp [h]

theorem withTy_reg (t : Ty) (k : Ty → Except DecodeError Instr) : withTy t.reg k = k t := by
  cases t <;> rfl

/-- The fields of VRED. -/
theorem vredFn_mask (q : Bool) (m : Mask) (j : Nat) (hj : j < 16) (k : Mask → Except DecodeError Instr) :
    withMask (vredFn q m j / 2 ^ 10) (vredFn q m j / 2 ^ 5 % 32) k = k m := by
  have h := maskBits_lt m
  have h1 : vredFn q m j / 2 ^ 10 = maskBits m / 32 := by unfold vredFn; split <;> omega
  have h2 : vredFn q m j / 2 ^ 5 % 32 = maskBits m % 32 := by unfold vredFn; split <;> omega
  rw [h1, h2, withMask_maskBits]

theorem vredFn_sub (q : Bool) (m : Mask) (j : Nat) (hj : j < 16) : vredFn q m j % 16 = j := by
  unfold vredFn; split <;> omega

theorem vredFn_q (q : Bool) (m : Mask) (j : Nat) (hj : j < 16) : (vredFn q m j / 2 ^ 4 % 2 == 1) = q := by
  cases q
  · have : vredFn false m j / 2 ^ 4 % 2 = 0 := by simp only [vredFn]; simp; omega
    rw [this]; rfl
  · have : vredFn true m j / 2 ^ 4 % 2 = 1 := by simp only [vredFn]; simp; omega
    rw [this]; rfl

/-- The fields of ATOM. -/
theorem Scope.ofCode_toNat (s : Scope) : Scope.ofCode s.toNat = s := by cases s <;> rfl
theorem Order.ofCode_toNat (o : Order) : Order.ofCode o.toNat = o := by cases o <;> rfl

theorem atomFn_k (k : Nat) (s : Scope) (o : Order) (z : Size) : atomFn k s o z / 2 ^ 7 = k := by
  have := s.toNat_lt; have := o.toNat_lt; unfold atomFn; split <;> omega

theorem atomFn_s (k : Nat) (s : Scope) (o : Order) (z : Size) : Scope.ofCode (atomFn k s o z / 2 ^ 5 % 4) = s := by
  have h : atomFn k s o z / 2 ^ 5 % 4 = s.toNat := by
    have := s.toNat_lt; have := o.toNat_lt; unfold atomFn; split <;> omega
  rw [h, Scope.ofCode_toNat]

theorem atomFn_o (k : Nat) (s : Scope) (o : Order) (z : Size) : Order.ofCode (atomFn k s o z / 2 ^ 3 % 4) = o := by
  have h : atomFn k s o z / 2 ^ 3 % 4 = o.toNat := by
    have := s.toNat_lt; have := o.toNat_lt; unfold atomFn; split <;> omega
  rw [h, Order.ofCode_toNat]

theorem atomFn_z (k : Nat) (s : Scope) (o : Order) (z : Size) :
    (if atomFn k s o z / 2 ^ 2 % 2 = 0 then Size.w else Size.d) = z := by
  cases z
  · have : atomFn k s o .w / 2 ^ 2 % 2 = 0 := by simp only [atomFn]; simp; omega
    rw [this]; rfl
  · have : atomFn k s o .d / 2 ^ 2 % 2 = 1 := by simp only [atomFn]; simp; omega
    rw [this]; rfl

theorem atomFn_low (k : Nat) (s : Scope) (o : Order) (z : Size) : atomFn k s o z % 4 = 0 := by
  unfold atomFn; split <;> omega

/-- The fields of SFP and SFMAC. -/
theorem sfpFn_p (p : Prec) (u : Bool) (k : Nat) (hk : k < 32) : (if sfpFn p u k / 2 ^ 10 = 0 then Prec.s else Prec.d) = p := by
  cases p
  · have : sfpFn .s u k / 2 ^ 10 = 0 := by cases u <;> simp [sfpFn] <;> omega
    rw [this]; rfl
  · have : sfpFn .d u k / 2 ^ 10 = 1 := by cases u <;> simp [sfpFn] <;> omega
    rw [this]; rfl

theorem sfpFn_zero (p : Prec) (u : Bool) (k : Nat) (hk : k < 32) : sfpFn p u k / 2 ^ 6 % 16 = 0 := by
  unfold sfpFn; split <;> split <;> omega

theorem sfpFn_u (p : Prec) (u : Bool) (k : Nat) (hk : k < 32) : sfpFn p u k / 2 ^ 5 % 2 = (if u then 1 else 0) := by
  unfold sfpFn; split <;> split <;> omega

theorem sfpFn_k (p : Prec) (u : Bool) (k : Nat) (hk : k < 32) : sfpFn p u k % 32 = k := by
  unfold sfpFn; split <;> split <;> omega

end Sys2Proof
end

