-- ==== Sys2Proof/Laws/State.lean ====
section
/-!
SUPPORT. What each update of the state leaves in each field: no later proof unfolds a record update.
-/

namespace Sys2Proof.Machine

/-! ### A write of a scalar register -/

@[simp] theorem Strand.set_sid (t : Strand) (r : Reg) (v : Word) :
    (t.set r v).sid = t.sid := by unfold Strand.set; split <;> rfl
@[simp] theorem Strand.set_stand (t : Strand) (r : Reg) (v : Word) :
    (t.set r v).stand = t.stand := by unfold Strand.set; split <;> rfl
@[simp] theorem Strand.set_cluster (t : Strand) (r : Reg) (v : Word) :
    (t.set r v).cluster = t.cluster := by unfold Strand.set; split <;> rfl
@[simp] theorem Strand.set_core (t : Strand) (r : Reg) (v : Word) :
    (t.set r v).core = t.core := by unfold Strand.set; split <;> rfl
@[simp] theorem Strand.set_slot (t : Strand) (r : Reg) (v : Word) :
    (t.set r v).slot = t.slot := by unfold Strand.set; split <;> rfl
@[simp] theorem Strand.set_lgs (t : Strand) (r : Reg) (v : Word) :
    (t.set r v).lgs = t.lgs := by unfold Strand.set; split <;> rfl
@[simp] theorem Strand.set_span (t : Strand) (r : Reg) (v : Word) :
    (t.set r v).span = t.span := by unfold Strand.set; split <;> rfl
@[simp] theorem Strand.set_launch (t : Strand) (r : Reg) (v : Word) :
    (t.set r v).launch = t.launch := by unfold Strand.set; split <;> rfl
@[simp] theorem Strand.set_ctx (t : Strand) (r : Reg) (v : Word) :
    (t.set r v).ctx = t.ctx := by unfold Strand.set; split <;> rfl
@[simp] theorem Strand.set_age (t : Strand) (r : Reg) (v : Word) :
    (t.set r v).age = t.age := by unfold Strand.set; split <;> rfl
@[simp] theorem Strand.set_pc (t : Strand) (r : Reg) (v : Word) :
    (t.set r v).pc = t.pc := by unfold Strand.set; split <;> rfl
@[simp] theorem Strand.set_mode (t : Strand) (r : Reg) (v : Word) :
    (t.set r v).mode = t.mode := by unfold Strand.set; split <;> rfl
@[simp] theorem Strand.set_sr (t : Strand) (r : Reg) (v : Word) :
    (t.set r v).sr = t.sr := by unfold Strand.set; split <;> rfl
@[simp] theorem Strand.set_vnames (t : Strand) (r : Reg) (v : Word) :
    (t.set r v).vnames = t.vnames := by unfold Strand.set; split <;> rfl
@[simp] theorem Strand.set_pnames (t : Strand) (r : Reg) (v : Word) :
    (t.set r v).pnames = t.pnames := by unfold Strand.set; split <;> rfl
@[simp] theorem Strand.set_wps (t : Strand) (r : Reg) (v : Word) :
    (t.set r v).wps = t.wps := by unfold Strand.set; split <;> rfl
@[simp] theorem Strand.set_nextWp (t : Strand) (r : Reg) (v : Word) :
    (t.set r v).nextWp = t.nextWp := by unfold Strand.set; split <;> rfl
@[simp] theorem Strand.set_queue (t : Strand) (r : Reg) (v : Word) :
    (t.set r v).queue = t.queue := by unfold Strand.set; split <;> rfl
@[simp] theorem Strand.set_passes (t : Strand) (r : Reg) (v : Word) :
    (t.set r v).passes = t.passes := by unfold Strand.set; split <;> rfl
@[simp] theorem Strand.set_serial (t : Strand) (r : Reg) (v : Word) :
    (t.set r v).serial = t.serial := by unfold Strand.set; split <;> rfl
@[simp] theorem Strand.set_mark (t : Strand) (r : Reg) (v : Word) :
    (t.set r v).mark = t.mark := by unfold Strand.set; split <;> rfl
@[simp] theorem Strand.set_rows (t : Strand) (r : Reg) (v : Word) :
    (t.set r v).rows = t.rows := by unfold Strand.set; split <;> rfl
@[simp] theorem Strand.set_qerrSerial (t : Strand) (r : Reg) (v : Word) :
    (t.set r v).qerrSerial = t.qerrSerial := by unfold Strand.set; split <;> rfl
@[simp] theorem Strand.set_arrive (t : Strand) (r : Reg) (v : Word) :
    (t.set r v).arrive = t.arrive := by unfold Strand.set; split <;> rfl
@[simp] theorem Strand.set_start (t : Strand) (r : Reg) (v : Word) :
    (t.set r v).start = t.start := by unfold Strand.set; split <;> rfl
@[simp] theorem Strand.set_markers (t : Strand) (r : Reg) (v : Word) :
    (t.set r v).markers = t.markers := by unfold Strand.set; split <;> rfl
@[simp] theorem Strand.set_mm (t : Strand) (r : Reg) (v : Word) :
    (t.set r v).mm = t.mm := by unfold Strand.set; split <;> rfl
@[simp] theorem Strand.set_mn (t : Strand) (r : Reg) (v : Word) :
    (t.set r v).mn = t.mn := by unfold Strand.set; split <;> rfl
@[simp] theorem Strand.set_mtarget (t : Strand) (r : Reg) (v : Word) :
    (t.set r v).mtarget = t.mtarget := by unfold Strand.set; split <;> rfl
@[simp] theorem Strand.set_mtraps (t : Strand) (r : Reg) (v : Word) :
    (t.set r v).mtraps = t.mtraps := by unfold Strand.set; split <;> rfl
@[simp] theorem Strand.set_waiting (t : Strand) (r : Reg) (v : Word) :
    (t.set r v).waiting = t.waiting := by unfold Strand.set; split <;> rfl
@[simp] theorem Strand.set_woken (t : Strand) (r : Reg) (v : Word) :
    (t.set r v).woken = t.woken := by unfold Strand.set; split <;> rfl
@[simp] theorem Strand.set_fetched (t : Strand) (r : Reg) (v : Word) :
    (t.set r v).fetched = t.fetched := by unfold Strand.set; split <;> rfl
@[simp] theorem Strand.set_saveIdx (t : Strand) (r : Reg) (v : Word) :
    (t.set r v).saveIdx = t.saveIdx := by unfold Strand.set; split <;> rfl
@[simp] theorem Strand.set_saveAddr (t : Strand) (r : Reg) (v : Word) :
    (t.set r v).saveAddr = t.saveAddr := by unfold Strand.set; split <;> rfl
@[simp] theorem Strand.set_spilled (t : Strand) (r : Reg) (v : Word) :
    (t.set r v).spilled = t.spilled := by unfold Strand.set; split <;> rfl
@[simp] theorem Strand.set_asks (t : Strand) (r : Reg) (v : Word) :
    (t.set r v).asks = t.asks := by unfold Strand.set; split <;> rfl
@[simp] theorem Strand.set_cores (t : Strand) (r : Reg) (v : Word) :
    (t.set r v).cores = t.cores := by unfold Strand.set; split <;> rfl
@[simp] theorem Strand.set_launching (t : Strand) (r : Reg) (v : Word) :
    (t.set r v).launching = t.launching := by unfold Strand.set; split <;> rfl
@[simp] theorem Strand.set_copying (t : Strand) (r : Reg) (v : Word) :
    (t.set r v).copying = t.copying := by unfold Strand.set; split <;> rfl

/-! ### setReg -/

@[simp] theorem State.setReg_st (s : State) (r : Reg) (v : Word) :
    (s.setReg r v).st = s.st.set r v := rfl
@[simp] theorem State.setReg_bench (s : State) (r : Reg) (v : Word) :
    (s.setReg r v).bench = s.bench := rfl
@[simp] theorem State.setReg_mem (s : State) (r : Reg) (v : Word) :
    (s.setReg r v).mem = s.mem := rfl
@[simp] theorem State.setReg_fab (s : State) (r : Reg) (v : Word) :
    (s.setReg r v).fab = s.fab := rfl
@[simp] theorem State.setReg_sys (s : State) (r : Reg) (v : Word) :
    (s.setReg r v).sys = s.sys := rfl
@[simp] theorem State.setReg_host (s : State) (r : Reg) (v : Word) :
    (s.setReg r v).host = s.host := rfl
@[simp] theorem State.setReg_toll (s : State) (r : Reg) (v : Word) :
    (s.setReg r v).toll = s.toll := rfl
@[simp] theorem State.setReg_steps (s : State) (r : Reg) (v : Word) :
    (s.setReg r v).steps = s.steps := rfl
@[simp] theorem State.setReg_born (s : State) (r : Reg) (v : Word) :
    (s.setReg r v).born = s.born := rfl
@[simp] theorem State.setReg_free (s : State) (r : Reg) (v : Word) :
    (s.setReg r v).free = s.free := rfl

/-! ### setPc -/

@[simp] theorem State.setPc_st (s : State) (v : Word) :
    (s.setPc v).st = { s.st with pc := v } := rfl
@[simp] theorem State.setPc_bench (s : State) (v : Word) :
    (s.setPc v).bench = s.bench := rfl
@[simp] theorem State.setPc_mem (s : State) (v : Word) :
    (s.setPc v).mem = s.mem := rfl
@[simp] theorem State.setPc_fab (s : State) (v : Word) :
    (s.setPc v).fab = s.fab := rfl
@[simp] theorem State.setPc_sys (s : State) (v : Word) :
    (s.setPc v).sys = s.sys := rfl
@[simp] theorem State.setPc_host (s : State) (v : Word) :
    (s.setPc v).host = s.host := rfl
@[simp] theorem State.setPc_toll (s : State) (v : Word) :
    (s.setPc v).toll = s.toll := rfl
@[simp] theorem State.setPc_steps (s : State) (v : Word) :
    (s.setPc v).steps = s.steps := rfl
@[simp] theorem State.setPc_born (s : State) (v : Word) :
    (s.setPc v).born = s.born := rfl
@[simp] theorem State.setPc_free (s : State) (v : Word) :
    (s.setPc v).free = s.free := rfl

/-! ### adv -/

@[simp] theorem State.adv_st (s : State) :
    s.adv.st = { s.st with pc := s.st.pc + 4 } := rfl
@[simp] theorem State.adv_bench (s : State) :
    s.adv.bench = s.bench := rfl
@[simp] theorem State.adv_mem (s : State) :
    s.adv.mem = s.mem := rfl
@[simp] theorem State.adv_fab (s : State) :
    s.adv.fab = s.fab := rfl
@[simp] theorem State.adv_sys (s : State) :
    s.adv.sys = s.sys := rfl
@[simp] theorem State.adv_host (s : State) :
    s.adv.host = s.host := rfl
@[simp] theorem State.adv_toll (s : State) :
    s.adv.toll = s.toll := rfl
@[simp] theorem State.adv_steps (s : State) :
    s.adv.steps = s.steps := rfl
@[simp] theorem State.adv_born (s : State) :
    s.adv.born = s.born := rfl
@[simp] theorem State.adv_free (s : State) :
    s.adv.free = s.free := rfl

/-! ### put -/

@[simp] theorem State.put_st (s : State) (d : Reg) (v : Word) :
    (s.put d v).st = { s.st.set d v with pc := (s.st.set d v).pc + 4 } := rfl
@[simp] theorem State.put_bench (s : State) (d : Reg) (v : Word) :
    (s.put d v).bench = s.bench := rfl
@[simp] theorem State.put_mem (s : State) (d : Reg) (v : Word) :
    (s.put d v).mem = s.mem := rfl
@[simp] theorem State.put_fab (s : State) (d : Reg) (v : Word) :
    (s.put d v).fab = s.fab := rfl
@[simp] theorem State.put_sys (s : State) (d : Reg) (v : Word) :
    (s.put d v).sys = s.sys := rfl
@[simp] theorem State.put_host (s : State) (d : Reg) (v : Word) :
    (s.put d v).host = s.host := rfl
@[simp] theorem State.put_toll (s : State) (d : Reg) (v : Word) :
    (s.put d v).toll = s.toll := rfl
@[simp] theorem State.put_steps (s : State) (d : Reg) (v : Word) :
    (s.put d v).steps = s.steps := rfl
@[simp] theorem State.put_born (s : State) (d : Reg) (v : Word) :
    (s.put d v).born = s.born := rfl
@[simp] theorem State.put_free (s : State) (d : Reg) (v : Word) :
    (s.put d v).free = s.free := rfl

/-! ### modSr -/

@[simp] theorem State.modSr_st (s : State) (f : SRegs → SRegs) :
    (s.modSr f).st = { s.st with sr := f s.st.sr } := rfl
@[simp] theorem State.modSr_bench (s : State) (f : SRegs → SRegs) :
    (s.modSr f).bench = s.bench := rfl
@[simp] theorem State.modSr_mem (s : State) (f : SRegs → SRegs) :
    (s.modSr f).mem = s.mem := rfl
@[simp] theorem State.modSr_fab (s : State) (f : SRegs → SRegs) :
    (s.modSr f).fab = s.fab := rfl
@[simp] theorem State.modSr_sys (s : State) (f : SRegs → SRegs) :
    (s.modSr f).sys = s.sys := rfl
@[simp] theorem State.modSr_host (s : State) (f : SRegs → SRegs) :
    (s.modSr f).host = s.host := rfl
@[simp] theorem State.modSr_toll (s : State) (f : SRegs → SRegs) :
    (s.modSr f).toll = s.toll := rfl
@[simp] theorem State.modSr_steps (s : State) (f : SRegs → SRegs) :
    (s.modSr f).steps = s.steps := rfl
@[simp] theorem State.modSr_born (s : State) (f : SRegs → SRegs) :
    (s.modSr f).born = s.born := rfl
@[simp] theorem State.modSr_free (s : State) (f : SRegs → SRegs) :
    (s.modSr f).free = s.free := rfl

/-! ### setLaunching -/

@[simp] theorem State.setLaunching_st (s : State) (l : Option Launching) :
    (s.setLaunching l).st = { s.st with launching := l } := rfl
@[simp] theorem State.setLaunching_bench (s : State) (l : Option Launching) :
    (s.setLaunching l).bench = s.bench := rfl
@[simp] theorem State.setLaunching_mem (s : State) (l : Option Launching) :
    (s.setLaunching l).mem = s.mem := rfl
@[simp] theorem State.setLaunching_fab (s : State) (l : Option Launching) :
    (s.setLaunching l).fab = s.fab := rfl
@[simp] theorem State.setLaunching_sys (s : State) (l : Option Launching) :
    (s.setLaunching l).sys = s.sys := rfl
@[simp] theorem State.setLaunching_host (s : State) (l : Option Launching) :
    (s.setLaunching l).host = s.host := rfl
@[simp] theorem State.setLaunching_toll (s : State) (l : Option Launching) :
    (s.setLaunching l).toll = s.toll := rfl
@[simp] theorem State.setLaunching_steps (s : State) (l : Option Launching) :
    (s.setLaunching l).steps = s.steps := rfl
@[simp] theorem State.setLaunching_born (s : State) (l : Option Launching) :
    (s.setLaunching l).born = s.born := rfl
@[simp] theorem State.setLaunching_free (s : State) (l : Option Launching) :
    (s.setLaunching l).free = s.free := rfl

/-! ### setCopying -/

@[simp] theorem State.setCopying_st (s : State) (c : Option Copying) :
    (s.setCopying c).st = { s.st with copying := c } := rfl
@[simp] theorem State.setCopying_bench (s : State) (c : Option Copying) :
    (s.setCopying c).bench = s.bench := rfl
@[simp] theorem State.setCopying_mem (s : State) (c : Option Copying) :
    (s.setCopying c).mem = s.mem := rfl
@[simp] theorem State.setCopying_fab (s : State) (c : Option Copying) :
    (s.setCopying c).fab = s.fab := rfl
@[simp] theorem State.setCopying_sys (s : State) (c : Option Copying) :
    (s.setCopying c).sys = s.sys := rfl
@[simp] theorem State.setCopying_host (s : State) (c : Option Copying) :
    (s.setCopying c).host = s.host := rfl
@[simp] theorem State.setCopying_toll (s : State) (c : Option Copying) :
    (s.setCopying c).toll = s.toll := rfl
@[simp] theorem State.setCopying_steps (s : State) (c : Option Copying) :
    (s.setCopying c).steps = s.steps := rfl
@[simp] theorem State.setCopying_born (s : State) (c : Option Copying) :
    (s.setCopying c).born = s.born := rfl
@[simp] theorem State.setCopying_free (s : State) (c : Option Copying) :
    (s.setCopying c).free = s.free := rfl

/-! ### modMem -/

@[simp] theorem State.modMem_st (s : State) (f : Mem → Mem) :
    (s.modMem f).st = s.st := rfl
@[simp] theorem State.modMem_bench (s : State) (f : Mem → Mem) :
    (s.modMem f).bench = s.bench := rfl
@[simp] theorem State.modMem_mem (s : State) (f : Mem → Mem) :
    (s.modMem f).mem = f s.mem := rfl
@[simp] theorem State.modMem_fab (s : State) (f : Mem → Mem) :
    (s.modMem f).fab = s.fab := rfl
@[simp] theorem State.modMem_sys (s : State) (f : Mem → Mem) :
    (s.modMem f).sys = s.sys := rfl
@[simp] theorem State.modMem_host (s : State) (f : Mem → Mem) :
    (s.modMem f).host = s.host := rfl
@[simp] theorem State.modMem_toll (s : State) (f : Mem → Mem) :
    (s.modMem f).toll = s.toll := rfl
@[simp] theorem State.modMem_steps (s : State) (f : Mem → Mem) :
    (s.modMem f).steps = s.steps := rfl
@[simp] theorem State.modMem_born (s : State) (f : Mem → Mem) :
    (s.modMem f).born = s.born := rfl
@[simp] theorem State.modMem_free (s : State) (f : Mem → Mem) :
    (s.modMem f).free = s.free := rfl

/-! ### modFab -/

@[simp] theorem State.modFab_st (s : State) (f : Fabric → Fabric) :
    (s.modFab f).st = s.st := rfl
@[simp] theorem State.modFab_bench (s : State) (f : Fabric → Fabric) :
    (s.modFab f).bench = s.bench := rfl
@[simp] theorem State.modFab_mem (s : State) (f : Fabric → Fabric) :
    (s.modFab f).mem = s.mem := rfl
@[simp] theorem State.modFab_fab (s : State) (f : Fabric → Fabric) :
    (s.modFab f).fab = f s.fab := rfl
@[simp] theorem State.modFab_sys (s : State) (f : Fabric → Fabric) :
    (s.modFab f).sys = s.sys := rfl
@[simp] theorem State.modFab_host (s : State) (f : Fabric → Fabric) :
    (s.modFab f).host = s.host := rfl
@[simp] theorem State.modFab_toll (s : State) (f : Fabric → Fabric) :
    (s.modFab f).toll = s.toll := rfl
@[simp] theorem State.modFab_steps (s : State) (f : Fabric → Fabric) :
    (s.modFab f).steps = s.steps := rfl
@[simp] theorem State.modFab_born (s : State) (f : Fabric → Fabric) :
    (s.modFab f).born = s.born := rfl
@[simp] theorem State.modFab_free (s : State) (f : Fabric → Fabric) :
    (s.modFab f).free = s.free := rfl

/-! ### modSys -/

@[simp] theorem State.modSys_st (s : State) (f : Sys → Sys) :
    (s.modSys f).st = s.st := rfl
@[simp] theorem State.modSys_bench (s : State) (f : Sys → Sys) :
    (s.modSys f).bench = s.bench := rfl
@[simp] theorem State.modSys_mem (s : State) (f : Sys → Sys) :
    (s.modSys f).mem = s.mem := rfl
@[simp] theorem State.modSys_fab (s : State) (f : Sys → Sys) :
    (s.modSys f).fab = s.fab := rfl
@[simp] theorem State.modSys_sys (s : State) (f : Sys → Sys) :
    (s.modSys f).sys = f s.sys := rfl
@[simp] theorem State.modSys_host (s : State) (f : Sys → Sys) :
    (s.modSys f).host = s.host := rfl
@[simp] theorem State.modSys_toll (s : State) (f : Sys → Sys) :
    (s.modSys f).toll = s.toll := rfl
@[simp] theorem State.modSys_steps (s : State) (f : Sys → Sys) :
    (s.modSys f).steps = s.steps := rfl
@[simp] theorem State.modSys_born (s : State) (f : Sys → Sys) :
    (s.modSys f).born = s.born := rfl
@[simp] theorem State.modSys_free (s : State) (f : Sys → Sys) :
    (s.modSys f).free = s.free := rfl

/-! ### modCluster -/

@[simp] theorem State.modCluster_st (s : State) (c : Nat) (g : Cluster → Cluster) :
    (s.modCluster c g).st = s.st := rfl
@[simp] theorem State.modCluster_bench (s : State) (c : Nat) (g : Cluster → Cluster) :
    (s.modCluster c g).bench = s.bench := rfl
@[simp] theorem State.modCluster_mem (s : State) (c : Nat) (g : Cluster → Cluster) :
    (s.modCluster c g).mem = s.mem := rfl
@[simp] theorem State.modCluster_fab (s : State) (c : Nat) (g : Cluster → Cluster) :
    (s.modCluster c g).fab = s.fab.setCluster c (g (s.fab.cluster c)) := rfl
@[simp] theorem State.modCluster_sys (s : State) (c : Nat) (g : Cluster → Cluster) :
    (s.modCluster c g).sys = s.sys := rfl
@[simp] theorem State.modCluster_host (s : State) (c : Nat) (g : Cluster → Cluster) :
    (s.modCluster c g).host = s.host := rfl
@[simp] theorem State.modCluster_toll (s : State) (c : Nat) (g : Cluster → Cluster) :
    (s.modCluster c g).toll = s.toll := rfl
@[simp] theorem State.modCluster_steps (s : State) (c : Nat) (g : Cluster → Cluster) :
    (s.modCluster c g).steps = s.steps := rfl
@[simp] theorem State.modCluster_born (s : State) (c : Nat) (g : Cluster → Cluster) :
    (s.modCluster c g).born = s.born := rfl
@[simp] theorem State.modCluster_free (s : State) (c : Nat) (g : Cluster → Cluster) :
    (s.modCluster c g).free = s.free := rfl

/-! ### modCore -/

@[simp] theorem State.modCore_st (s : State) (c k : Nat) (g : Core → Core) :
    (s.modCore c k g).st = s.st := rfl
@[simp] theorem State.modCore_bench (s : State) (c k : Nat) (g : Core → Core) :
    (s.modCore c k g).bench = s.bench := rfl
@[simp] theorem State.modCore_mem (s : State) (c k : Nat) (g : Core → Core) :
    (s.modCore c k g).mem = s.mem := rfl
@[simp] theorem State.modCore_fab (s : State) (c k : Nat) (g : Core → Core) :
    (s.modCore c k g).fab = s.fab.setCore c k (g (s.fab.core c k)) := rfl
@[simp] theorem State.modCore_sys (s : State) (c k : Nat) (g : Core → Core) :
    (s.modCore c k g).sys = s.sys := rfl
@[simp] theorem State.modCore_host (s : State) (c k : Nat) (g : Core → Core) :
    (s.modCore c k g).host = s.host := rfl
@[simp] theorem State.modCore_toll (s : State) (c k : Nat) (g : Core → Core) :
    (s.modCore c k g).toll = s.toll := rfl
@[simp] theorem State.modCore_steps (s : State) (c k : Nat) (g : Core → Core) :
    (s.modCore c k g).steps = s.steps := rfl
@[simp] theorem State.modCore_born (s : State) (c k : Nat) (g : Core → Core) :
    (s.modCore c k g).born = s.born := rfl
@[simp] theorem State.modCore_free (s : State) (c k : Nat) (g : Core → Core) :
    (s.modCore c k g).free = s.free := rfl

/-! ### modCtx -/

@[simp] theorem State.modCtx_st (s : State) (n : Nat) (g : Ctx → Ctx) :
    (s.modCtx n g).st = s.st := rfl
@[simp] theorem State.modCtx_bench (s : State) (n : Nat) (g : Ctx → Ctx) :
    (s.modCtx n g).bench = s.bench := rfl
@[simp] theorem State.modCtx_mem (s : State) (n : Nat) (g : Ctx → Ctx) :
    (s.modCtx n g).mem = s.mem := rfl
@[simp] theorem State.modCtx_fab (s : State) (n : Nat) (g : Ctx → Ctx) :
    (s.modCtx n g).fab = s.fab := rfl
@[simp] theorem State.modCtx_sys (s : State) (n : Nat) (g : Ctx → Ctx) :
    (s.modCtx n g).sys = { s.sys with ctxs := s.sys.ctxs.map fun c => if c.num = n then g c else c } := rfl
@[simp] theorem State.modCtx_host (s : State) (n : Nat) (g : Ctx → Ctx) :
    (s.modCtx n g).host = s.host := rfl
@[simp] theorem State.modCtx_toll (s : State) (n : Nat) (g : Ctx → Ctx) :
    (s.modCtx n g).toll = s.toll := rfl
@[simp] theorem State.modCtx_steps (s : State) (n : Nat) (g : Ctx → Ctx) :
    (s.modCtx n g).steps = s.steps := rfl
@[simp] theorem State.modCtx_born (s : State) (n : Nat) (g : Ctx → Ctx) :
    (s.modCtx n g).born = s.born := rfl
@[simp] theorem State.modCtx_free (s : State) (n : Nat) (g : Ctx → Ctx) :
    (s.modCtx n g).free = s.free := rfl

/-! ### setCache -/

@[simp] theorem State.setCache_st (s : State) (c : Nat) (l : List Line) :
    (s.setCache c l).st = s.st := rfl
@[simp] theorem State.setCache_bench (s : State) (c : Nat) (l : List Line) :
    (s.setCache c l).bench = s.bench := rfl
@[simp] theorem State.setCache_mem (s : State) (c : Nat) (l : List Line) :
    (s.setCache c l).mem = { s.mem with caches := aset s.mem.caches c l } := rfl
@[simp] theorem State.setCache_fab (s : State) (c : Nat) (l : List Line) :
    (s.setCache c l).fab = s.fab := rfl
@[simp] theorem State.setCache_sys (s : State) (c : Nat) (l : List Line) :
    (s.setCache c l).sys = s.sys := rfl
@[simp] theorem State.setCache_host (s : State) (c : Nat) (l : List Line) :
    (s.setCache c l).host = s.host := rfl
@[simp] theorem State.setCache_toll (s : State) (c : Nat) (l : List Line) :
    (s.setCache c l).toll = s.toll := rfl
@[simp] theorem State.setCache_steps (s : State) (c : Nat) (l : List Line) :
    (s.setCache c l).steps = s.steps := rfl
@[simp] theorem State.setCache_born (s : State) (c : Nat) (l : List Line) :
    (s.setCache c l).born = s.born := rfl
@[simp] theorem State.setCache_free (s : State) (c : Nat) (l : List Line) :
    (s.setCache c l).free = s.free := rfl

/-! ### tick -/

@[simp] theorem State.tick_st (s : State) :
    s.tick.st = s.st := rfl
@[simp] theorem State.tick_bench (s : State) :
    s.tick.bench = s.bench := rfl
@[simp] theorem State.tick_mem (s : State) :
    s.tick.mem = s.mem := rfl
@[simp] theorem State.tick_fab (s : State) :
    s.tick.fab = s.fab := rfl
@[simp] theorem State.tick_sys (s : State) :
    s.tick.sys = s.sys := rfl
@[simp] theorem State.tick_host (s : State) :
    s.tick.host = s.host := rfl
@[simp] theorem State.tick_toll (s : State) :
    s.tick.toll = s.toll := rfl
@[simp] theorem State.tick_steps (s : State) :
    s.tick.steps = s.steps + 1 := rfl
@[simp] theorem State.tick_born (s : State) :
    s.tick.born = s.born := rfl
@[simp] theorem State.tick_free (s : State) :
    s.tick.free = s.free := rfl

end Sys2Proof.Machine
end

