-- ==== Sys2Proof/Laws/Memory.lean ====
section
/-!
SUPPORT. Memory cells: reads after writes, the canonical form, and that every operation on memory keeps it.
-/

namespace Sys2Proof.Machine

/-! ### Numbers and bytes -/

@[simp] theorem leBytes_length (n v : Nat) : (leBytes n v).length = n := by
  induction n generalizing v with
  | zero => rfl
  | succ n ih => simp [leBytes, ih]

theorem leNat_leBytes (n v : Nat) : leNat (leBytes n v) = v % 256 ^ n := by
  induction n generalizing v with
  | zero => simp [leBytes, leNat, Nat.mod_one]
  | succ n ih =>
    have h8 : (BitVec.ofNat 8 v).toNat = v % 256 := BitVec.toNat_ofNat _ _
    rw [leBytes, leNat, ih, h8, Nat.pow_succ', Nat.mod_mul]

/-! ### One cell -/

theorem cellsFrom_mono {lo lo' : Nat} {l : List Host.Cell} (h : lo' ≤ lo) (hl : cellsFrom lo l = true) : cellsFrom lo' l = true := by
  cases l with
  | nil => rfl
  | cons c r =>
    obtain ⟨k, b⟩ := c
    simp only [cellsFrom, Bool.and_eq_true, decide_eq_true_eq] at hl ⊢
    exact ⟨⟨Nat.le_trans h hl.1.1, hl.1.2⟩, hl.2⟩

theorem cellRead_below {lo a : Nat} {l : List Host.Cell} (hl : cellsFrom lo l = true) (h : a < lo) : cellRead l a = 0 := by
  cases l with
  | nil => rfl
  | cons c r =>
    obtain ⟨k, b⟩ := c
    simp only [cellsFrom, Bool.and_eq_true, decide_eq_true_eq] at hl
    have h1 : ¬ k = a := by omega
    have h2 : a < k := by omega
    simp [cellRead, h1, h2]

/-- A read after a write: the byte written there, every other byte as before. -/
theorem cellRead_cellWrite {lo : Nat} {l : List Host.Cell} (hl : cellsFrom lo l = true) (a b : Nat) (v : Byte) :
    cellRead (cellWrite l a v) b = if a = b then v else cellRead l b := by
  induction l generalizing lo with
  | nil =>
    unfold cellWrite
    by_cases hv : v = 0
    · rw [if_pos hv, hv]; simp [cellRead]
    · rw [if_neg hv]; simp [cellRead]
  | cons c r ih =>
    obtain ⟨k, x⟩ := c
    simp only [cellsFrom, Bool.and_eq_true, decide_eq_true_eq] at hl
    have hr := hl.2
    unfold cellWrite
    by_cases hk : k = a
    · subst hk
      simp only [if_true]
      by_cases hv : v = 0
      · simp only [hv, if_true]
        by_cases hb : k = b
        · subst hb; simp [cellRead_below hr (Nat.lt_succ_self k)]
        · by_cases hb2 : b < k
          · simp [hb, cellRead, hb2, cellRead_below hr (by omega : b < k + 1)]
          · simp [hb, cellRead, hb2]
      · simp only [hv, if_false]
        by_cases hb : k = b <;> simp [cellRead, hb]
    · simp only [hk, if_false]
      by_cases ha : a < k
      · simp only [ha, if_true]
        by_cases hv : v = 0
        · simp only [hv, if_true]
          by_cases hb : a = b
          · subst hb; simp [cellRead, hk, ha]
          · simp [hb]
        · simp only [hv, if_false]
          by_cases hb : a = b
          · subst hb; simp [cellRead]
          · by_cases hb2 : b < a
            · have : ¬ k = b := by omega
              have h3 : b < k := by omega
              simp [cellRead, hb, hb2, this, h3]
            · simp [cellRead, hb, hb2]
      · simp only [ha, if_false]
        by_cases hb : k = b
        · subst hb
          have : ¬ a = k := fun h => hk h.symm
          simp [cellRead, this]
        · by_cases hb2 : b < k
          · have : ¬ a = b := by omega
            simp [cellRead, hb, hb2, this]
          · simp only [cellRead, hb, hb2, if_false]
            exact ih hr

/-- A write keeps the canonical form. -/
theorem cellsFrom_cellWrite {lo a : Nat} {l : List Host.Cell} (v : Byte) (hl : cellsFrom lo l = true) (h : lo ≤ a) :
    cellsFrom lo (cellWrite l a v) = true := by
  induction l generalizing lo with
  | nil =>
    unfold cellWrite
    by_cases hv : v = 0
    · rw [if_pos hv]; rfl
    · rw [if_neg hv]; simp only [cellsFrom, Bool.and_true, Bool.and_eq_true, decide_eq_true_eq, bne_iff_ne]; exact ⟨h, hv⟩
  | cons c r ih =>
    obtain ⟨k, x⟩ := c
    have hl0 := hl
    simp only [cellsFrom, Bool.and_eq_true, decide_eq_true_eq] at hl
    unfold cellWrite
    by_cases hk : k = a
    · subst hk
      simp only [if_true]
      by_cases hv : v = 0
      · simp only [hv, if_true]; exact cellsFrom_mono (by omega) hl.2
      · rw [if_neg hv]; simp only [cellsFrom, Bool.and_eq_true, decide_eq_true_eq, bne_iff_ne]; exact ⟨⟨h, hv⟩, hl.2⟩
    · simp only [hk, if_false]
      by_cases ha : a < k
      · simp only [ha, if_true]
        by_cases hv : v = 0
        · simp only [hv, if_true]; exact hl0
        · have h2 : a + 1 ≤ k := by omega
          rw [if_neg hv]
          simp only [cellsFrom, Bool.and_eq_true, decide_eq_true_eq, bne_iff_ne]
          exact ⟨⟨h, hv⟩, ⟨h2, by simpa using hl.1.2⟩, hl.2⟩
      · simp only [ha, if_false]
        simp only [cellsFrom, Bool.and_eq_true, decide_eq_true_eq]
        exact ⟨hl.1, ih hl.2 (by omega)⟩

theorem cellsFrom_filter {lo : Nat} {l : List Host.Cell} (p : Host.Cell → Bool) (hl : cellsFrom lo l = true) :
    cellsFrom lo (l.filter p) = true := by
  induction l generalizing lo with
  | nil => rfl
  | cons c r ih =>
    obtain ⟨k, x⟩ := c
    simp only [cellsFrom, Bool.and_eq_true, decide_eq_true_eq] at hl
    have hr := ih hl.2
    by_cases hp : p (k, x) = true
    · rw [List.filter_cons_of_pos hp]
      simp only [cellsFrom, Bool.and_eq_true, decide_eq_true_eq]
      exact ⟨hl.1, hr⟩
    · rw [List.filter_cons_of_neg hp]
      exact cellsFrom_mono (by omega) hr

/-- Bytes written one after another keep the form. -/
theorem cellsFrom_foldl {α : Type} (xs : List α) (f : List Host.Cell → α → List Host.Cell)
    (hf : ∀ l x, cellsFrom 0 l = true → cellsFrom 0 (f l x) = true) (l : List Host.Cell) (hl : cellsFrom 0 l = true) :
    cellsFrom 0 (xs.foldl f l) = true := by
  induction xs generalizing l with
  | nil => exact hl
  | cons x r ih => exact ih _ (hf _ _ hl)

theorem cellsFrom_cellsCopy (src dst : List Host.Cell) (lo hi : Nat) (hd : cellsFrom 0 dst = true) :
    cellsFrom 0 (cellsCopy src dst lo hi) = true := by
  unfold cellsCopy
  exact cellsFrom_foldl _ _ (fun l x h => cellsFrom_cellWrite _ h (Nat.zero_le _)) _ (cellsFrom_filter _ hd)

/-! ### The memory of a state -/

theorem Mem.wf_iff (m : Mem) : m.wf = true ↔ cellsFrom 0 m.hbm = true ∧ cellsFrom 0 m.array = true ∧ cellsFrom 0 m.win = true := by
  simp [Mem.wf, Bool.and_eq_true, and_assoc]

theorem reset_wf : State.reset.mem.wf = true := rfl

/-- A fold over the state keeps what each of its steps keeps. -/
theorem foldl_keeps {σ α : Type} (P : σ → Prop) (xs : List α) (f : σ → α → σ) (hf : ∀ s x, P s → P (f s x)) (s : σ) (h : P s) :
    P (xs.foldl f s) := by
  induction xs generalizing s with
  | nil => exact h
  | cons x r ih => exact ih _ (hf _ _ h)

theorem modMem_wf (s : State) (f : Mem → Mem) (hf : s.mem.wf = true → (f s.mem).wf = true) (h : s.mem.wf = true) :
    (s.modMem f).mem.wf = true := hf h

theorem devWriteByte_wf (s : State) (t pa : Nat) (b : Byte) (h : s.mem.wf = true) : (s.devWriteByte t pa b).mem.wf = true := by
  rw [Mem.wf_iff] at h ⊢
  exact ⟨cellsFrom_cellWrite _ h.1 (Nat.zero_le _), h.2⟩

theorem toArray_wf (s : State) (lo hi : Nat) (h : s.mem.wf = true) : (s.toArray lo hi).mem.wf = true := by
  rw [Mem.wf_iff] at h ⊢
  exact ⟨h.1, cellsFrom_cellsCopy _ _ _ _ h.2.1, h.2.2⟩

theorem touchLine_wf (s : State) (ln : Nat) (h : s.mem.wf = true) : (s.touchLine ln).mem.wf = true := by
  have h1 : (s.modMem fun m => { m with msc := ln :: m.msc }).mem.wf = true := h
  unfold State.touchLine
  dsimp only
  split
  · exact h
  · split
    · exact h1
    · split
      · exact h1
      · split
        · exact h1
        · exact toArray_wf _ _ _ h1

theorem touchLines_wf (s : State) (pa n : Nat) (h : s.mem.wf = true) : (s.touchLines pa n).mem.wf = true := by
  unfold State.touchLines
  split
  · exact h
  · exact foldl_keeps (fun s => s.mem.wf = true) _ _ (fun s x h => touchLine_wf s _ h) s h

theorem devWrite_wf (s : State) (t pa : Nat) (bs : List Byte) (h : s.mem.wf = true) : (s.devWrite t pa bs).mem.wf = true := by
  unfold State.devWrite
  have h1 : ((bs.zipIdx).foldl (fun s p => s.devWriteByte t (pa + p.2) p.1) (s.touchLines pa bs.length)).mem.wf = true :=
    foldl_keeps (fun s => s.mem.wf = true) _ _ (fun s x h => devWriteByte_wf s _ _ _ h) _ (touchLines_wf s pa _ h)
  dsimp only
  split
  · exact h1
  · exact h1

theorem markPoison_wf (s : State) (ln : Nat) (h : s.mem.wf = true) : (s.markPoison ln).mem.wf = true := h
theorem setCache_wf (s : State) (c : Nat) (l : List Line) (h : s.mem.wf = true) : (s.setCache c l).mem.wf = true := h

theorem writeBackLine_wf (s : State) (l : Line) (h : s.mem.wf = true) : (s.writeBackLine l).mem.wf = true := by
  unfold State.writeBackLine
  split
  · exact h
  · dsimp only
    have h1 : ((l.bytes.zipIdx).foldl (fun (s : State) p =>
        if l.dirtyAt p.2 = 0 then s
        else s.devWriteByte l.tenant (l.tag * 64 + p.2) (mergeNibbles (l.dirtyAt p.2) p.1 (s.devByte l.tenant (l.tag * 64 + p.2))))
        (s.touchLine l.tag)).mem.wf = true :=
      foldl_keeps (fun (s : State) => s.mem.wf = true) _ _ (fun s x h => by
        split
        · exact h
        · exact devWriteByte_wf s _ _ _ h) _ (touchLine_wf s l.tag h)
    split
    · exact markPoison_wf _ _ h1
    · split
      · exact h1
      · exact h1

theorem writeBackAll_wf (s : State) (c : Nat) (h : s.mem.wf = true) : (s.writeBackAll c).mem.wf = true :=
  have h1 : ((s.cache c).foldl (fun s l => s.writeBackLine l) s).mem.wf = true :=
    foldl_keeps (fun s => s.mem.wf = true) _ _ (fun s l h => writeBackLine_wf s l h) s h
  h1

theorem cleanLines_wf (s : State) (c : Nat) (p : Nat → Bool) (h : s.mem.wf = true) : (s.cleanLines c p).mem.wf = true := by
  unfold State.cleanLines
  dsimp only
  split
  · refine setCache_wf _ _ _ (foldl_keeps (fun s => s.mem.wf = true) _ _ (fun s l h => ?_) s h)
    split
    · exact writeBackLine_wf s l h
    · exact h
  · exact h

theorem flushLine_wf (s : State) (c ln : Nat) (h : s.mem.wf = true) : (s.flushLine c ln).mem.wf = true := by
  unfold State.flushLine
  split
  · exact h
  · exact setCache_wf _ _ _ (writeBackLine_wf _ _ h)

theorem makeRoom_wf (s : State) (c : Nat) (h : s.mem.wf = true) : (s.makeRoom c).mem.wf = true := by
  unfold State.makeRoom
  dsimp only
  split
  · exact h
  · split
    · exact h
    · exact flushLine_wf _ _ _ h

theorem fillLine_wf (s : State) (c t ln : Nat) (h : s.mem.wf = true) : (s.fillLine c t ln).1.mem.wf = true := by
  unfold State.fillLine
  split
  · split
    · exact h
    · exact setCache_wf _ _ _ (flushLine_wf _ _ _ h)
  · exact setCache_wf _ _ _ (makeRoom_wf _ _ h)

theorem cluRead_wf (s : State) (c t pa n : Nat) (h : s.mem.wf = true) : (s.cluRead c t pa n).1.mem.wf = true :=
  fillLine_wf s c t (pa / 64) h

theorem cluWrite_wf (s : State) (c t pa : Nat) (bs : List Byte) (h : s.mem.wf = true) : (s.cluWrite c t pa bs).mem.wf = true :=
  setCache_wf _ _ _ (fillLine_wf s c t (pa / 64) h)

theorem cluWriteNibble_wf (s : State) (c t pa k v : Nat) (h : s.mem.wf = true) : (s.cluWriteNibble c t pa k v).mem.wf = true :=
  setCache_wf _ _ _ (fillLine_wf s c t (pa / 64) h)

theorem dropCache_wf (s : State) (c : Nat) (h : s.mem.wf = true) : (s.dropCache c).mem.wf = true :=
  setCache_wf _ _ _ (writeBackAll_wf s c h)

theorem release_wf (s : State) (c : Nat) (sc : Scope) (h : s.mem.wf = true) : (s.release c sc).mem.wf = true := by
  cases sc <;> first | exact h | exact writeBackAll_wf s c h

theorem acquire_wf (s : State) (c : Nat) (sc : Scope) (h : s.mem.wf = true) : (s.acquire c sc).mem.wf = true := by
  cases sc <;> first | exact h | exact dropCache_wf s c h

theorem winWrite_wf (s : State) (k : Nat) (bs : List Byte) (h : s.mem.wf = true) : (s.winWrite k bs).mem.wf = true := by
  rw [Mem.wf_iff] at h ⊢
  exact ⟨h.1, h.2.1, cellsFrom_foldl _ _ (fun l x h => cellsFrom_cellWrite _ h (Nat.zero_le _)) _ h.2.2⟩

theorem zeroWindows_wf (s : State) (c : Nat) (h : s.mem.wf = true) : (s.zeroWindows c).mem.wf = true := by
  rw [Mem.wf_iff] at h ⊢
  exact ⟨h.1, h.2.1, cellsFrom_filter _ h.2.2⟩

theorem takeCore_wf (s : State) (c k ctx : Nat) (sp : Span) (h : s.mem.wf = true) : (s.takeCore c k ctx sp).mem.wf = true := by
  unfold State.takeCore
  simp only [State.modCore_mem]
  split
  · exact h
  · rw [Mem.wf_iff] at h ⊢
    exact ⟨h.1, h.2.1, cellsFrom_filter _ h.2.2⟩

theorem zeroHbm_wf (m : Mem) (h : m.wf = true) : m.zeroHbm.wf = true := by
  rw [Mem.wf_iff] at h ⊢
  exact ⟨rfl, rfl, h.2.2⟩

theorem poisonWindow_wf (s : State) (w : Nat) (h : s.mem.wf = true) : (s.poisonWindow w).mem.wf = true := by
  unfold State.poisonWindow
  split
  · refine foldl_keeps (fun s => s.mem.wf = true) _ _ ?_ s h
    intro s i h
    split
    · exact markPoison_wf _ _ h
    · exact h
  · exact h

/-! ### Poison marks (R49, R98) -/

theorem mend_wf (s : State) (c : Nat) (g : Granule) (h : s.mem.wf = true) : (s.mend c g).mem.wf = true := by
  cases g with
  | word w => exact h
  | line ln => exact modMem_wf _ _ id (setCache_wf _ _ _ (cleanLines_wf s c _ h))

theorem cover_wf (s : State) (c k : Nat) (cov : List (Nat × Nat × Nat)) (old : List Cover) (h : s.mem.wf = true) :
    (s.cover c k cov old).1.mem.wf = true := by
  unfold State.cover
  refine foldl_keeps (fun (a : State × List Cover) => a.1.mem.wf = true) _ _ (fun a g h => ?_) _ h
  dsimp only
  split
  · exact h
  · split
    · exact mend_wf _ _ _ h
    · exact h

theorem coverAll_wf (s : State) (c : Nat) (wrote : List (Nat × List Wr)) (old : List Cover) (h : s.mem.wf = true) :
    (s.coverAll c wrote old).1.mem.wf = true :=
  foldl_keeps (fun (a : State × List Cover) => a.1.mem.wf = true) _ _ (fun _ _ h => cover_wf _ _ _ _ _ h) (s, old) h

@[simp] theorem spoil_mem (s : State) (gs : List Granule) : (s.spoil gs).mem = s.mem := rfl

theorem spoilLine_wf (s : State) (c ln : Nat) (h : s.mem.wf = true) : (s.spoilLine c ln).mem.wf = true := h
theorem spoilWords_wf (s : State) (ws : List Nat) (h : s.mem.wf = true) : (s.spoilWords ws).mem.wf = true := h

/-! ### Bytes read back -/

/-- The window bytes after a write: those written, and every other byte as before. -/
theorem winWrite_read (s : State) (k : Nat) (bs : List Byte) (h : s.mem.wf = true) (a : Nat) :
    cellRead (s.winWrite k bs).mem.win a = if k ≤ a ∧ a < k + bs.length then bs.getD (a - k) 0 else cellRead s.mem.win a := by
  have key : ∀ (xs : List Byte) (o : Nat) (l : List Host.Cell), cellsFrom 0 l = true →
      cellRead ((xs.zipIdx o).foldl (fun l p => cellWrite l (k + p.2) p.1) l) a =
        if k + o ≤ a ∧ a < k + o + xs.length then xs.getD (a - (k + o)) 0 else cellRead l a := by
    intro xs
    induction xs with
    | nil => intro o l _; simp only [List.zipIdx_nil, List.foldl_nil, List.length_nil]; rw [if_neg (by omega)]
    | cons x r ih =>
      intro o l hl
      simp only [List.zipIdx_cons, List.foldl_cons, List.length_cons]
      rw [ih (o + 1) _ (cellsFrom_cellWrite _ hl (Nat.zero_le _)), cellRead_cellWrite hl]
      by_cases h1 : k + o = a
      · subst h1
        rw [if_neg (by omega), if_pos rfl, if_pos (by omega)]
        simp
      · by_cases h2 : k + (o + 1) ≤ a ∧ a < k + (o + 1) + r.length
        · rw [if_pos h2, if_pos (by omega)]
          have : a - (k + o) = (a - (k + (o + 1))) + 1 := by omega
          rw [this, List.getD_cons_succ]
        · rw [if_neg h2, if_neg h1, if_neg (by omega)]
  have h3 := (Mem.wf_iff _).1 h
  have h4 := key bs 0 s.mem.win h3.2.2
  simp only [Nat.add_zero] at h4
  exact h4

end Sys2Proof.Machine
end

