-- ==== Sys2Proof/Laws/Keeps.lean ====
section
/-!
SUPPORT. What a meaning keeps: a property of the state that holds before holds after, whether the meaning goes on, traps or waits.
One lemma for each way of composing meanings, and one for each shared operation on memory.
-/

namespace Sys2Proof.Machine

/-- `m` keeps the property `P` of the state. -/
def Keeps {α : Type} (P : State → Prop) (m : M α) : Prop := ∀ s, P s → P (m s).2

/-- The outcome keeps the property, if it is a next state. -/
def KeepsOut (P : State → Prop) (o : Out) : Prop := ∀ t, o = .next t → P t

theorem keeps_pure {α : Type} {P : State → Prop} (a : α) : Keeps P (pure a : M α) := fun _ h => h

theorem keeps_bind {α β : Type} {P : State → Prop} {m : M α} {f : α → M β} (hm : Keeps P m) (hf : ∀ a, Keeps P (f a)) :
    Keeps P (m >>= f) := by
  intro s h
  have h1 := hm s h
  show P ((ExceptT.bindCont f (m s).1 : StateM State (Except Stop β)) (m s).2).2
  generalize (m s).1 = r at *
  generalize (m s).2 = s1 at *
  cases r with
  | error e => exact h1
  | ok a => exact hf a s1 h1

theorem keeps_get {P : State → Prop} : Keeps P (get : M State) := fun _ h => h
theorem keeps_set {P : State → Prop} (t : State) (h : P t) : Keeps P (set t : M PUnit) := fun _ _ => h
theorem keeps_modify {P : State → Prop} {f : State → State} (h : ∀ s, P s → P (f s)) : Keeps P (modify f : M PUnit) := h
theorem keeps_throw {α : Type} {P : State → Prop} (e : Stop) : Keeps P (throw e : M α) := fun _ h => h
theorem keeps_raise {α : Type} {P : State → Prop} (c d : Nat) (v : Word) : Keeps P (raise c d v : M α) := fun _ h => h
theorem keeps_wait {α : Type} {P : State → Prop} : Keeps P (waitHere : M α) := fun _ h => h

/-- Reading the state and going on with a meaning that may use it. -/
theorem keeps_get_bind {β : Type} {P : State → Prop} {f : State → M β} (h : ∀ s, P s → P (f s s).2) : Keeps P (get >>= f) := h

theorem keeps_attempt {α : Type} {P : State → Prop} {m : M α} (h : Keeps P m) : Keeps P (attempt m) := by
  intro s hs
  exact h s hs

theorem keeps_probe {α : Type} {P : State → Prop} (m : M α) : Keeps P (probe m) := fun _ h => h

/-- A meaning whose changes of the strand are undone when it waits keeps what its body keeps and a change of the strand cannot break. -/
theorem keeps_heldStrand {α : Type} {P : State → Prop} {m : M α} (h : Keeps P m) (hst : ∀ s t, P s → P { s with st := t }) :
    Keeps P (heldStrand m) := by
  intro s hs
  have h1 := h s hs
  unfold heldStrand
  split
  · rename_i s1 heq
    rw [heq] at h1
    exact hst s1 s.st h1
  · exact h1

/-- So does one of which, when it waits, only what it sent to the host stands. -/
theorem keeps_whole {α : Type} {P : State → Prop} {m : M α} (h : Keeps P m) (hw : ∀ s t, P s → P (s.afterWait t)) : Keeps P (whole m) := by
  intro s hs
  have h1 := h s hs
  unfold whole
  split
  · exact hw s _ hs
  · exact h1

theorem keeps_ite {α : Type} {P : State → Prop} {c : Prop} [Decidable c] {a b : M α} (ha : Keeps P a) (hb : Keeps P b) :
    Keeps P (if c then a else b) := by
  split
  · exact ha
  · exact hb

theorem keeps_mapM {α β : Type} {P : State → Prop} (l : List α) {f : α → M β} (h : ∀ a, Keeps P (f a)) : Keeps P (l.mapM f) := by
  induction l with
  | nil => rw [List.mapM_nil]; exact keeps_pure _
  | cons a r ih =>
    rw [List.mapM_cons]
    exact keeps_bind (h a) fun _ => keeps_bind ih fun _ => keeps_pure _

theorem keeps_forM {α : Type} {P : State → Prop} (l : List α) {f : α → M PUnit} (h : ∀ a, Keeps P (f a)) : Keeps P (l.forM f) := by
  induction l with
  | nil => exact keeps_pure _
  | cons a r ih => exact keeps_bind (h a) fun _ => ih

/-- A meaning that ends with a trap taken at the word (R296) keeps what its body, the PC's return and the trap keep. -/
theorem keepsOut_runM {P : State → Prop} {m : M Unit} (hm : Keeps P m)
    (ht : ∀ (c d : Nat) (v : Word) (pc : Word) (s : State), P s → P (trapHere c d v (s.setPc pc))) (s : State) (h : P s) :
    KeepsOut P (runM m s) := by
  intro t ht1
  have h1 := hm s h
  unfold runM at ht1
  split at ht1
  all_goals
    rename_i heq
    rw [heq] at h1
    cases ht1
  · exact h1
  · exact h1
  · exact ht _ _ _ _ _ h1

end Sys2Proof.Machine
end

