-- ==== Sys2Proof/Laws/Ops.lean ====
section
/-!
SUPPORT. What each of the small shared operations can do, said once: requests to the host that fail, passes that join a strand, runs of a
copy job.
-/

namespace Sys2Proof.Machine

/-- A host request meets the failure that the host has in store, which is then used up, or nothing happens (R278). -/
theorem metUnsupported_eq (ea : Word) (s : State) :
    metUnsupported ea s =
      if s.sys.armed.contains .hostUnsupported then
        (.error (.trap 7 0 ea), s.modSys fun y => { y with armed := y.armed.erase .hostUnsupported })
      else (.ok (), s) := by
  by_cases h : s.sys.armed.contains .hostUnsupported = true
  · rw [if_pos h]
    show (if s.sys.armed.contains .hostUnsupported = true then _ else _ : M Unit) s = _
    rw [if_pos h]
    rfl
  · rw [if_neg h]
    show (if s.sys.armed.contains .hostUnsupported = true then _ else _ : M Unit) s = _
    rw [if_neg h]
    rfl

/-- A host page is asked for over the link. -/
theorem hostLoad_host (ea : Word) (pa : Nat) : hostLoad ea (.host pa) = metUnsupported ea := rfl

/-- Nothing else is. -/
theorem hostLoad_else (ea : Word) (l : Loc) (s : State) (h : ∀ pa, l ≠ .host pa) : hostLoad ea l s = (.ok (), s) := by
  cases l with
  | host pa => exact absurd rfl (h pa)
  | _ => rfl

@[simp] theorem joinPass_passes (s : State) (p : Pass) : (s.joinPass p).st.passes = joined s.st.passes p := rfl
@[simp] theorem joinPass_mem (s : State) (p : Pass) : (s.joinPass p).mem = s.mem := rfl
@[simp] theorem joinPass_sys (s : State) (p : Pass) : (s.joinPass p).sys = s.sys := rfl
@[simp] theorem joinPass_fab (s : State) (p : Pass) : (s.joinPass p).fab = s.fab := rfl

/-- With no suspended pass a new one is the youngest. -/
theorem joined_inFlight {ps : List Pass} (p : Pass) (h : ∀ q ∈ ps, q.inFlight = true) : joined ps p = ps ++ [p] := by
  have h1 : ps.filter Pass.inFlight = ps := List.filter_eq_self.2 h
  have h2 : (ps.filter fun q => !q.inFlight) = [] := List.filter_eq_nil_iff.2 fun q hq => by simp [h q hq]
  unfold joined
  split <;> simp [h1, h2]

/-- Behind a suspended pass that holds a row sink of it a new one is the youngest. -/
theorem joined_behind {ps : List Pass} {p : Pass} (h : behindStopped ps p = true) : joined ps p = ps ++ [p] := by
  simp [joined, h]

/-- Such a pass waits. -/
theorem mustWait_behind {t : Strand} {p : Pass} (h : behindStopped t.passes p = true) : mustWait t p = true := by
  simp [mustWait, h]

/-- Joining a pass gives and takes none but it. -/
theorem mem_joined {ps : List Pass} {p q : Pass} : q ∈ joined ps p ↔ q = p ∨ q ∈ ps := by
  unfold joined
  split
  · simp [or_comm]
  · cases hq : q.inFlight <;> simp [hq, or_comm]

/-- A byte gathered always stands in some run. -/
theorem joinRun_ne_nil (rs : List JobRun) (va : Nat) (l : Loc) (b : Byte) (p : Bool) : joinRun rs va l b p ≠ [] := by
  unfold joinRun
  split
  · split <;> simp
  · simp

end Sys2Proof.Machine
end

