-- ==== Sys2Proof/Laws/PerInstr.lean ====
section
/-!
SUPPORT. Every instruction's encoding fits its 32-bit word, so that no bit of it is lost (spec/02 R21, R22); an event has no
encoding. One lemma for each constructor of Instr.
-/

namespace Sys2Proof.Laws.Fits

/-- The number of the encoding, where there is one, is below 2 ^ 32. -/
def Statement (i : Instr) : Prop := ∀ n, encodeNat i = some n → n < 2 ^ 32

theorem nop : Statement (.nop) :=
  fun _ h => Option.some.inj h ▸ fmtR_lt _ _ _ _ _ (by omega) (by omega)

theorem rte : Statement (.rte) :=
  fun _ h => Option.some.inj h ▸ fmtR_lt _ _ _ _ _ (by omega) (by omega)

theorem wait : Statement (.wait) :=
  fun _ h => Option.some.inj h ▸ fmtR_lt _ _ _ _ _ (by omega) (by omega)

theorem waitTimeout : Statement (.waitTimeout) :=
  fun _ h => nomatch h

theorem exit : Statement (.exit) :=
  fun _ h => Option.some.inj h ▸ fmtR_lt _ _ _ _ _ (by omega) (by omega)

theorem brk : Statement (.brk) :=
  fun _ h => Option.some.inj h ▸ fmtR_lt _ _ _ _ _ (by omega) (by omega)

theorem force : Statement (.force) :=
  fun _ h => Option.some.inj h ▸ fmtR_lt _ _ _ _ _ (by omega) (by omega)

theorem convoy : Statement (.convoy) :=
  fun _ h => Option.some.inj h ▸ fmtR_lt _ _ _ _ _ (by omega) (by omega)

theorem vsync : Statement (.vsync) :=
  fun _ h => Option.some.inj h ▸ fmtR_lt _ _ _ _ _ (by omega) (by omega)

theorem vdrop (vd : Reg) : Statement (.vdrop vd) :=
  fun _ h => Option.some.inj h ▸ fmtR_lt _ _ _ _ _ (by omega) (by omega)

theorem launch (d : Reg) (a : Reg) : Statement (.launch d a) :=
  fun _ h => Option.some.inj h ▸ fmtR_lt _ _ _ _ _ (by omega) (by omega)

theorem tlbi (a : Reg) (b : Reg) : Statement (.tlbi a b) :=
  fun _ h => Option.some.inj h ▸ fmtR_lt _ _ _ _ _ (by omega) (by omega)

theorem cachewb (a : Reg) (b : Reg) : Statement (.cachewb a b) :=
  fun _ h => Option.some.inj h ▸ fmtR_lt _ _ _ _ _ (by omega) (by omega)

theorem ifence : Statement (.ifence) :=
  fun _ h => Option.some.inj h ▸ fmtR_lt _ _ _ _ _ (by omega) (by omega)

theorem trap (i : BitVec 16) : Statement (.trap i) :=
  fun _ h => Option.some.inj h ▸ fmtI_lt _ _ _ _ (by omega) (by omega)

theorem mfs (d : Reg) (n : BitVec 11) : Statement (.mfs d n) :=
  fun _ h => Option.some.inj h ▸ fmtR_lt _ _ _ _ _ (by omega) (by omega)

theorem mts (a : Reg) (n : BitVec 11) : Statement (.mts a n) :=
  fun _ h => Option.some.inj h ▸ fmtR_lt _ _ _ _ _ (by omega) (by omega)

theorem add (d : Reg) (a : Reg) (b : Reg) : Statement (.add d a b) :=
  fun _ h => Option.some.inj h ▸ fmtR_lt _ _ _ _ _ (by omega) (by omega)

theorem sub (d : Reg) (a : Reg) (b : Reg) : Statement (.sub d a b) :=
  fun _ h => Option.some.inj h ▸ fmtR_lt _ _ _ _ _ (by omega) (by omega)

theorem and (d : Reg) (a : Reg) (b : Reg) : Statement (.and d a b) :=
  fun _ h => Option.some.inj h ▸ fmtR_lt _ _ _ _ _ (by omega) (by omega)

theorem or (d : Reg) (a : Reg) (b : Reg) : Statement (.or d a b) :=
  fun _ h => Option.some.inj h ▸ fmtR_lt _ _ _ _ _ (by omega) (by omega)

theorem xor (d : Reg) (a : Reg) (b : Reg) : Statement (.xor d a b) :=
  fun _ h => Option.some.inj h ▸ fmtR_lt _ _ _ _ _ (by omega) (by omega)

theorem andn (d : Reg) (a : Reg) (b : Reg) : Statement (.andn d a b) :=
  fun _ h => Option.some.inj h ▸ fmtR_lt _ _ _ _ _ (by omega) (by omega)

theorem sll (d : Reg) (a : Reg) (b : Reg) : Statement (.sll d a b) :=
  fun _ h => Option.some.inj h ▸ fmtR_lt _ _ _ _ _ (by omega) (by omega)

theorem srl (d : Reg) (a : Reg) (b : Reg) : Statement (.srl d a b) :=
  fun _ h => Option.some.inj h ▸ fmtR_lt _ _ _ _ _ (by omega) (by omega)

theorem sra (d : Reg) (a : Reg) (b : Reg) : Statement (.sra d a b) :=
  fun _ h => Option.some.inj h ▸ fmtR_lt _ _ _ _ _ (by omega) (by omega)

theorem ror (d : Reg) (a : Reg) (b : Reg) : Statement (.ror d a b) :=
  fun _ h => Option.some.inj h ▸ fmtR_lt _ _ _ _ _ (by omega) (by omega)

theorem slt (d : Reg) (a : Reg) (b : Reg) : Statement (.slt d a b) :=
  fun _ h => Option.some.inj h ▸ fmtR_lt _ _ _ _ _ (by omega) (by omega)

theorem sltu (d : Reg) (a : Reg) (b : Reg) : Statement (.sltu d a b) :=
  fun _ h => Option.some.inj h ▸ fmtR_lt _ _ _ _ _ (by omega) (by omega)

theorem min (d : Reg) (a : Reg) (b : Reg) : Statement (.min d a b) :=
  fun _ h => Option.some.inj h ▸ fmtR_lt _ _ _ _ _ (by omega) (by omega)

theorem max (d : Reg) (a : Reg) (b : Reg) : Statement (.max d a b) :=
  fun _ h => Option.some.inj h ▸ fmtR_lt _ _ _ _ _ (by omega) (by omega)

theorem minu (d : Reg) (a : Reg) (b : Reg) : Statement (.minu d a b) :=
  fun _ h => Option.some.inj h ▸ fmtR_lt _ _ _ _ _ (by omega) (by omega)

theorem maxu (d : Reg) (a : Reg) (b : Reg) : Statement (.maxu d a b) :=
  fun _ h => Option.some.inj h ▸ fmtR_lt _ _ _ _ _ (by omega) (by omega)

theorem clz (d : Reg) (a : Reg) : Statement (.clz d a) :=
  fun _ h => Option.some.inj h ▸ fmtR_lt _ _ _ _ _ (by omega) (by omega)

theorem ctz (d : Reg) (a : Reg) : Statement (.ctz d a) :=
  fun _ h => Option.some.inj h ▸ fmtR_lt _ _ _ _ _ (by omega) (by omega)

theorem popc (d : Reg) (a : Reg) : Statement (.popc d a) :=
  fun _ h => Option.some.inj h ▸ fmtR_lt _ _ _ _ _ (by omega) (by omega)

theorem sextb (d : Reg) (a : Reg) : Statement (.sextb d a) :=
  fun _ h => Option.some.inj h ▸ fmtR_lt _ _ _ _ _ (by omega) (by omega)

theorem sexth (d : Reg) (a : Reg) : Statement (.sexth d a) :=
  fun _ h => Option.some.inj h ▸ fmtR_lt _ _ _ _ _ (by omega) (by omega)

theorem sextw (d : Reg) (a : Reg) : Statement (.sextw d a) :=
  fun _ h => Option.some.inj h ▸ fmtR_lt _ _ _ _ _ (by omega) (by omega)

theorem zextb (d : Reg) (a : Reg) : Statement (.zextb d a) :=
  fun _ h => Option.some.inj h ▸ fmtR_lt _ _ _ _ _ (by omega) (by omega)

theorem zexth (d : Reg) (a : Reg) : Statement (.zexth d a) :=
  fun _ h => Option.some.inj h ▸ fmtR_lt _ _ _ _ _ (by omega) (by omega)

theorem zextw (d : Reg) (a : Reg) : Statement (.zextw d a) :=
  fun _ h => Option.some.inj h ▸ fmtR_lt _ _ _ _ _ (by omega) (by omega)

theorem bswap (d : Reg) (a : Reg) : Statement (.bswap d a) :=
  fun _ h => Option.some.inj h ▸ fmtR_lt _ _ _ _ _ (by omega) (by omega)

theorem mul (d : Reg) (a : Reg) (b : Reg) : Statement (.mul d a b) :=
  fun _ h => Option.some.inj h ▸ fmtR_lt _ _ _ _ _ (by omega) (by omega)

theorem mulh (d : Reg) (a : Reg) (b : Reg) : Statement (.mulh d a b) :=
  fun _ h => Option.some.inj h ▸ fmtR_lt _ _ _ _ _ (by omega) (by omega)

theorem mulhu (d : Reg) (a : Reg) (b : Reg) : Statement (.mulhu d a b) :=
  fun _ h => Option.some.inj h ▸ fmtR_lt _ _ _ _ _ (by omega) (by omega)

theorem div (d : Reg) (a : Reg) (b : Reg) : Statement (.div d a b) :=
  fun _ h => Option.some.inj h ▸ fmtR_lt _ _ _ _ _ (by omega) (by omega)

theorem divu (d : Reg) (a : Reg) (b : Reg) : Statement (.divu d a b) :=
  fun _ h => Option.some.inj h ▸ fmtR_lt _ _ _ _ _ (by omega) (by omega)

theorem rem (d : Reg) (a : Reg) (b : Reg) : Statement (.rem d a b) :=
  fun _ h => Option.some.inj h ▸ fmtR_lt _ _ _ _ _ (by omega) (by omega)

theorem remu (d : Reg) (a : Reg) (b : Reg) : Statement (.remu d a b) :=
  fun _ h => Option.some.inj h ▸ fmtR_lt _ _ _ _ _ (by omega) (by omega)

theorem addi (d : Reg) (a : Reg) (i : BitVec 16) : Statement (.addi d a i) :=
  fun _ h => Option.some.inj h ▸ fmtI_lt _ _ _ _ (by omega) (by omega)

theorem andi (d : Reg) (a : Reg) (i : BitVec 14) : Statement (.andi d a i) :=
  fun _ h => Option.some.inj h ▸ fmtI_lt _ _ _ _ (by omega) (by omega)

theorem ori (d : Reg) (a : Reg) (i : BitVec 14) : Statement (.ori d a i) :=
  fun _ h => Option.some.inj h ▸ fmtI_lt _ _ _ _ (by omega) (by omega)

theorem xori (d : Reg) (a : Reg) (i : BitVec 14) : Statement (.xori d a i) :=
  fun _ h => Option.some.inj h ▸ fmtI_lt _ _ _ _ (by omega) (by omega)

theorem slli (d : Reg) (a : Reg) (n : BitVec 6) : Statement (.slli d a n) :=
  fun _ h => Option.some.inj h ▸ fmtI_lt _ _ _ _ (by omega) (by omega)

theorem srli (d : Reg) (a : Reg) (n : BitVec 6) : Statement (.srli d a n) :=
  fun _ h => Option.some.inj h ▸ fmtI_lt _ _ _ _ (by omega) (by omega)

theorem srai (d : Reg) (a : Reg) (n : BitVec 6) : Statement (.srai d a n) :=
  fun _ h => Option.some.inj h ▸ fmtI_lt _ _ _ _ (by omega) (by omega)

theorem rori (d : Reg) (a : Reg) (n : BitVec 6) : Statement (.rori d a n) :=
  fun _ h => Option.some.inj h ▸ fmtI_lt _ _ _ _ (by omega) (by omega)

theorem ldz (d : Reg) (k : BitVec 2) (i : BitVec 16) : Statement (.ldz d k i) :=
  fun _ h => Option.some.inj h ▸ fmtK_lt _ _ _ _ _ (by omega) (by omega) (by omega) (by omega)

theorem ldk (d : Reg) (k : BitVec 2) (i : BitVec 16) : Statement (.ldk d k i) :=
  fun _ h => Option.some.inj h ▸ fmtK_lt _ _ _ _ _ (by omega) (by omega) (by omega) (by omega)

theorem slti (d : Reg) (a : Reg) (i : BitVec 14) : Statement (.slti d a i) :=
  fun _ h => Option.some.inj h ▸ fmtI_lt _ _ _ _ (by omega) (by omega)

theorem sltiu (d : Reg) (a : Reg) (i : BitVec 14) : Statement (.sltiu d a i) :=
  fun _ h => Option.some.inj h ▸ fmtI_lt _ _ _ _ (by omega) (by omega)

theorem ldb (d : Reg) (a : Reg) (i : BitVec 13) : Statement (.ldb d a i) :=
  fun _ h => Option.some.inj h ▸ fmtI_lt _ _ _ _ (by omega) (by omega)

theorem ldbu (d : Reg) (a : Reg) (i : BitVec 13) : Statement (.ldbu d a i) :=
  fun _ h => Option.some.inj h ▸ fmtI_lt _ _ _ _ (by omega) (by omega)

theorem ldh (d : Reg) (a : Reg) (i : BitVec 13) : Statement (.ldh d a i) :=
  fun _ h => Option.some.inj h ▸ fmtI_lt _ _ _ _ (by omega) (by omega)

theorem ldhu (d : Reg) (a : Reg) (i : BitVec 13) : Statement (.ldhu d a i) :=
  fun _ h => Option.some.inj h ▸ fmtI_lt _ _ _ _ (by omega) (by omega)

theorem ldw (d : Reg) (a : Reg) (i : BitVec 13) : Statement (.ldw d a i) :=
  fun _ h => Option.some.inj h ▸ fmtI_lt _ _ _ _ (by omega) (by omega)

theorem ldwu (d : Reg) (a : Reg) (i : BitVec 13) : Statement (.ldwu d a i) :=
  fun _ h => Option.some.inj h ▸ fmtI_lt _ _ _ _ (by omega) (by omega)

theorem ldd (d : Reg) (a : Reg) (i : BitVec 13) : Statement (.ldd d a i) :=
  fun _ h => Option.some.inj h ▸ fmtI_lt _ _ _ _ (by omega) (by omega)

theorem stb (d : Reg) (a : Reg) (i : BitVec 13) : Statement (.stb d a i) :=
  fun _ h => Option.some.inj h ▸ fmtI_lt _ _ _ _ (by omega) (by omega)

theorem sth (d : Reg) (a : Reg) (i : BitVec 13) : Statement (.sth d a i) :=
  fun _ h => Option.some.inj h ▸ fmtI_lt _ _ _ _ (by omega) (by omega)

theorem stw (d : Reg) (a : Reg) (i : BitVec 13) : Statement (.stw d a i) :=
  fun _ h => Option.some.inj h ▸ fmtI_lt _ _ _ _ (by omega) (by omega)

theorem std (d : Reg) (a : Reg) (i : BitVec 13) : Statement (.std d a i) :=
  fun _ h => Option.some.inj h ▸ fmtI_lt _ _ _ _ (by omega) (by omega)

theorem beqz (a : Reg) (o : BitVec 18) : Statement (.beqz a o) :=
  fun _ h => Option.some.inj h ▸ fmtB1_lt _ _ _ _ (by omega) (by omega) (by omega)

theorem bnez (a : Reg) (o : BitVec 18) : Statement (.bnez a o) :=
  fun _ h => Option.some.inj h ▸ fmtB1_lt _ _ _ _ (by omega) (by omega) (by omega)

theorem bltz (a : Reg) (o : BitVec 18) : Statement (.bltz a o) :=
  fun _ h => Option.some.inj h ▸ fmtB1_lt _ _ _ _ (by omega) (by omega) (by omega)

theorem bgez (a : Reg) (o : BitVec 18) : Statement (.bgez a o) :=
  fun _ h => Option.some.inj h ▸ fmtB1_lt _ _ _ _ (by omega) (by omega) (by omega)

theorem bgtz (a : Reg) (o : BitVec 18) : Statement (.bgtz a o) :=
  fun _ h => Option.some.inj h ▸ fmtB1_lt _ _ _ _ (by omega) (by omega) (by omega)

theorem blez (a : Reg) (o : BitVec 18) : Statement (.blez a o) :=
  fun _ h => Option.some.inj h ▸ fmtB1_lt _ _ _ _ (by omega) (by omega) (by omega)

theorem beq (a : Reg) (b : Reg) (o : BitVec 13) : Statement (.beq a b o) :=
  fun _ h => Option.some.inj h ▸ fmtI_lt _ _ _ _ (by omega) (by omega)

theorem bne (a : Reg) (b : Reg) (o : BitVec 13) : Statement (.bne a b o) :=
  fun _ h => Option.some.inj h ▸ fmtI_lt _ _ _ _ (by omega) (by omega)

theorem blt (a : Reg) (b : Reg) (o : BitVec 13) : Statement (.blt a b o) :=
  fun _ h => Option.some.inj h ▸ fmtI_lt _ _ _ _ (by omega) (by omega)

theorem bge (a : Reg) (b : Reg) (o : BitVec 13) : Statement (.bge a b o) :=
  fun _ h => Option.some.inj h ▸ fmtI_lt _ _ _ _ (by omega) (by omega)

theorem bltu (a : Reg) (b : Reg) (o : BitVec 13) : Statement (.bltu a b o) :=
  fun _ h => Option.some.inj h ▸ fmtI_lt _ _ _ _ (by omega) (by omega)

theorem bgeu (a : Reg) (b : Reg) (o : BitVec 13) : Statement (.bgeu a b o) :=
  fun _ h => Option.some.inj h ▸ fmtI_lt _ _ _ _ (by omega) (by omega)

theorem b (o : BitVec 25) : Statement (.b o) :=
  fun _ h => Option.some.inj h ▸ fmtJ_lt _ _ _ (by omega) (by omega) (by omega)

theorem bl (o : BitVec 25) : Statement (.bl o) :=
  fun _ h => Option.some.inj h ▸ fmtJ_lt _ _ _ (by omega) (by omega) (by omega)

theorem jr (a : Reg) : Statement (.jr a) :=
  fun _ h => Option.some.inj h ▸ fmtR_lt _ _ _ _ _ (by omega) (by omega)

theorem jlr (d : Reg) (a : Reg) : Statement (.jlr d a) :=
  fun _ h => Option.some.inj h ▸ fmtR_lt _ _ _ _ _ (by omega) (by omega)

theorem amoswap (d : Reg) (a : Reg) (b : Reg) (s : Scope) (o : Order) (z : Size) : Statement (.amoswap d a b s o z) :=
  fun _ h => Option.some.inj h ▸ fmtR_lt _ _ _ _ _ (by omega) (atomFn_lt _ _ _ _ (by omega))

theorem amoadd (d : Reg) (a : Reg) (b : Reg) (s : Scope) (o : Order) (z : Size) : Statement (.amoadd d a b s o z) :=
  fun _ h => Option.some.inj h ▸ fmtR_lt _ _ _ _ _ (by omega) (atomFn_lt _ _ _ _ (by omega))

theorem amoand (d : Reg) (a : Reg) (b : Reg) (s : Scope) (o : Order) (z : Size) : Statement (.amoand d a b s o z) :=
  fun _ h => Option.some.inj h ▸ fmtR_lt _ _ _ _ _ (by omega) (atomFn_lt _ _ _ _ (by omega))

theorem amoor (d : Reg) (a : Reg) (b : Reg) (s : Scope) (o : Order) (z : Size) : Statement (.amoor d a b s o z) :=
  fun _ h => Option.some.inj h ▸ fmtR_lt _ _ _ _ _ (by omega) (atomFn_lt _ _ _ _ (by omega))

theorem amoxor (d : Reg) (a : Reg) (b : Reg) (s : Scope) (o : Order) (z : Size) : Statement (.amoxor d a b s o z) :=
  fun _ h => Option.some.inj h ▸ fmtR_lt _ _ _ _ _ (by omega) (atomFn_lt _ _ _ _ (by omega))

theorem amomin (d : Reg) (a : Reg) (b : Reg) (s : Scope) (o : Order) (z : Size) : Statement (.amomin d a b s o z) :=
  fun _ h => Option.some.inj h ▸ fmtR_lt _ _ _ _ _ (by omega) (atomFn_lt _ _ _ _ (by omega))

theorem amomax (d : Reg) (a : Reg) (b : Reg) (s : Scope) (o : Order) (z : Size) : Statement (.amomax d a b s o z) :=
  fun _ h => Option.some.inj h ▸ fmtR_lt _ _ _ _ _ (by omega) (atomFn_lt _ _ _ _ (by omega))

theorem amominu (d : Reg) (a : Reg) (b : Reg) (s : Scope) (o : Order) (z : Size) : Statement (.amominu d a b s o z) :=
  fun _ h => Option.some.inj h ▸ fmtR_lt _ _ _ _ _ (by omega) (atomFn_lt _ _ _ _ (by omega))

theorem amomaxu (d : Reg) (a : Reg) (b : Reg) (s : Scope) (o : Order) (z : Size) : Statement (.amomaxu d a b s o z) :=
  fun _ h => Option.some.inj h ▸ fmtR_lt _ _ _ _ _ (by omega) (atomFn_lt _ _ _ _ (by omega))

theorem amocas (d : Reg) (a : Reg) (b : Reg) (s : Scope) (o : Order) (z : Size) : Statement (.amocas d a b s o z) :=
  fun _ h => Option.some.inj h ▸ fmtR_lt _ _ _ _ _ (by omega) (atomFn_lt _ _ _ _ (by omega))

theorem amofadd (d : Reg) (a : Reg) (b : Reg) (s : Scope) (o : Order) (z : Size) : Statement (.amofadd d a b s o z) :=
  fun _ h => Option.some.inj h ▸ fmtR_lt _ _ _ _ _ (by omega) (atomFn_lt _ _ _ _ (by omega))

theorem lda (d : Reg) (a : Reg) (s : Scope) (o : Order) (z : Size) : Statement (.lda d a s o z) :=
  fun _ h => Option.some.inj h ▸ fmtR_lt _ _ _ _ _ (by omega) (atomFn_lt _ _ _ _ (by omega))

theorem stl (a : Reg) (b : Reg) (s : Scope) (o : Order) (z : Size) : Statement (.stl a b s o z) :=
  fun _ h => Option.some.inj h ▸ fmtR_lt _ _ _ _ _ (by omega) (atomFn_lt _ _ _ _ (by omega))

theorem fadd (d : Reg) (a : Reg) (b : Reg) (p : Prec) : Statement (.fadd d a b p) :=
  fun _ h => Option.some.inj h ▸ fmtR_lt _ _ _ _ _ (by omega) (sfpFn_lt _ _ _ (by omega))

theorem fsub (d : Reg) (a : Reg) (b : Reg) (p : Prec) : Statement (.fsub d a b p) :=
  fun _ h => Option.some.inj h ▸ fmtR_lt _ _ _ _ _ (by omega) (sfpFn_lt _ _ _ (by omega))

theorem fmul (d : Reg) (a : Reg) (b : Reg) (p : Prec) : Statement (.fmul d a b p) :=
  fun _ h => Option.some.inj h ▸ fmtR_lt _ _ _ _ _ (by omega) (sfpFn_lt _ _ _ (by omega))

theorem fdiv (d : Reg) (a : Reg) (b : Reg) (p : Prec) : Statement (.fdiv d a b p) :=
  fun _ h => Option.some.inj h ▸ fmtR_lt _ _ _ _ _ (by omega) (sfpFn_lt _ _ _ (by omega))

theorem fsqrt (d : Reg) (a : Reg) (p : Prec) : Statement (.fsqrt d a p) :=
  fun _ h => Option.some.inj h ▸ fmtR_lt _ _ _ _ _ (by omega) (sfpFn_lt _ _ _ (by omega))

theorem fmin (d : Reg) (a : Reg) (b : Reg) (p : Prec) : Statement (.fmin d a b p) :=
  fun _ h => Option.some.inj h ▸ fmtR_lt _ _ _ _ _ (by omega) (sfpFn_lt _ _ _ (by omega))

theorem fmax (d : Reg) (a : Reg) (b : Reg) (p : Prec) : Statement (.fmax d a b p) :=
  fun _ h => Option.some.inj h ▸ fmtR_lt _ _ _ _ _ (by omega) (sfpFn_lt _ _ _ (by omega))

theorem feq (d : Reg) (a : Reg) (b : Reg) (p : Prec) : Statement (.feq d a b p) :=
  fun _ h => Option.some.inj h ▸ fmtR_lt _ _ _ _ _ (by omega) (sfpFn_lt _ _ _ (by omega))

theorem flt (d : Reg) (a : Reg) (b : Reg) (p : Prec) : Statement (.flt d a b p) :=
  fun _ h => Option.some.inj h ▸ fmtR_lt _ _ _ _ _ (by omega) (sfpFn_lt _ _ _ (by omega))

theorem fle (d : Reg) (a : Reg) (b : Reg) (p : Prec) : Statement (.fle d a b p) :=
  fun _ h => Option.some.inj h ▸ fmtR_lt _ _ _ _ _ (by omega) (sfpFn_lt _ _ _ (by omega))

theorem fcvti (d : Reg) (a : Reg) (p : Prec) (u : Bool) : Statement (.fcvti d a p u) :=
  fun _ h => Option.some.inj h ▸ fmtR_lt _ _ _ _ _ (by omega) (sfpFn_lt _ _ _ (by omega))

theorem fcvtf (d : Reg) (a : Reg) (p : Prec) (u : Bool) : Statement (.fcvtf d a p u) :=
  fun _ h => Option.some.inj h ▸ fmtR_lt _ _ _ _ _ (by omega) (sfpFn_lt _ _ _ (by omega))

theorem fcvtp (d : Reg) (a : Reg) (p : Prec) : Statement (.fcvtp d a p) :=
  fun _ h => Option.some.inj h ▸ fmtR_lt _ _ _ _ _ (by omega) (sfpFn_lt _ _ _ (by omega))

theorem fabs (d : Reg) (a : Reg) (p : Prec) : Statement (.fabs d a p) :=
  fun _ h => Option.some.inj h ▸ fmtR_lt _ _ _ _ _ (by omega) (sfpFn_lt _ _ _ (by omega))

theorem fneg (d : Reg) (a : Reg) (p : Prec) : Statement (.fneg d a p) :=
  fun _ h => Option.some.inj h ▸ fmtR_lt _ _ _ _ _ (by omega) (sfpFn_lt _ _ _ (by omega))

theorem fclass (d : Reg) (a : Reg) (p : Prec) : Statement (.fclass d a p) :=
  fun _ h => Option.some.inj h ▸ fmtR_lt _ _ _ _ _ (by omega) (sfpFn_lt _ _ _ (by omega))

theorem fmac (d : Reg) (a : Reg) (b : Reg) (p : Prec) : Statement (.fmac d a b p) :=
  fun _ h => Option.some.inj h ▸ fmtR_lt _ _ _ _ _ (by omega) (sfpFn_lt _ _ _ (by omega))

theorem fnmac (d : Reg) (a : Reg) (b : Reg) (p : Prec) : Statement (.fnmac d a b p) :=
  fun _ h => Option.some.inj h ▸ fmtR_lt _ _ _ _ _ (by omega) (sfpFn_lt _ _ _ (by omega))

theorem strip (d : Reg) (a : Reg) (p : Reg) (k : BitVec 2) (z : BitVec 8) : Statement (.strip d a p k z) :=
  fun _ h => Option.some.inj h ▸ fmtR_lt _ _ _ _ _ (by omega) (by omega)

theorem setvl (d : Reg) (a : Reg) : Statement (.setvl d a) :=
  fun _ h => Option.some.inj h ▸ fmtR_lt _ _ _ _ _ (by omega) (by omega)

theorem setrows (d : Reg) (a : Reg) : Statement (.setrows d a) :=
  fun _ h => Option.some.inj h ▸ fmtR_lt _ _ _ _ _ (by omega) (by omega)

theorem vld (vd : Reg) (a : Reg) (m : Mask) (t : Ty) : Statement (.vld vd a m t) :=
  fun _ h => Option.some.inj h ▸ fmtR_lt _ _ _ _ _ (by omega) (vmFn_lt _ _ _)

theorem vldFf (vd : Reg) (a : Reg) (m : Mask) (t : Ty) : Statement (.vldFf vd a m t) :=
  fun _ h => Option.some.inj h ▸ fmtR_lt _ _ _ _ _ (by omega) (vmFn_lt _ _ _)

theorem vldSeg (vd : Reg) (a : Reg) (b : Reg) (m : Mask) (t : Ty) : Statement (.vldSeg vd a b m t) :=
  fun _ h => Option.some.inj h ▸ fmtR_lt _ _ _ _ _ (by omega) (vmFn_lt _ _ _)

theorem vldRow (vd : Reg) (a : Reg) (m : Mask) (t : Ty) : Statement (.vldRow vd a m t) :=
  fun _ h => Option.some.inj h ▸ fmtR_lt _ _ _ _ _ (by omega) (vmFn_lt _ _ _)

theorem vldCol (vd : Reg) (a : Reg) (m : Mask) (t : Ty) : Statement (.vldCol vd a m t) :=
  fun _ h => Option.some.inj h ▸ fmtR_lt _ _ _ _ _ (by omega) (vmFn_lt _ _ _)

theorem vlds (vd : Reg) (a : Reg) (b : Reg) (m : Mask) (t : Ty) : Statement (.vlds vd a b m t) :=
  fun _ h => Option.some.inj h ▸ fmtR_lt _ _ _ _ _ (by omega) (vmFn_lt _ _ _)

theorem vldt (vd : Reg) (a : Reg) (b : Reg) (m : Mask) (t : Ty) : Statement (.vldt vd a b m t) :=
  fun _ h => Option.some.inj h ▸ fmtR_lt _ _ _ _ _ (by omega) (vmFn_lt _ _ _)

theorem vldx (vd : Reg) (a : Reg) (b : Reg) (m : Mask) (t : Ty) : Statement (.vldx vd a b m t) :=
  fun _ h => Option.some.inj h ▸ fmtR_lt _ _ _ _ _ (by omega) (vmFn_lt _ _ _)

theorem vldtd (vd : Reg) (a : Reg) (b : Reg) (m : Mask) (t : Ty) : Statement (.vldtd vd a b m t) :=
  fun _ h => Option.some.inj h ▸ fmtR_lt _ _ _ _ _ (by omega) (vmFn_lt _ _ _)

theorem vldz (vd : Reg) (a : Reg) (b : Reg) (m : Mask) (t : Ty) : Statement (.vldz vd a b m t) :=
  fun _ h => Option.some.inj h ▸ fmtR_lt _ _ _ _ _ (by omega) (vmFn_lt _ _ _)

theorem vst (vs : Reg) (a : Reg) (q : Bool) (m : Mask) (t : Ty) : Statement (.vst vs a q m t) :=
  fun _ h => Option.some.inj h ▸ fmtR_lt _ _ _ _ _ (by omega) (vmFn_lt _ _ _)

theorem vstSeg (vs : Reg) (a : Reg) (b : Reg) (q : Bool) (m : Mask) (t : Ty) : Statement (.vstSeg vs a b q m t) :=
  fun _ h => Option.some.inj h ▸ fmtR_lt _ _ _ _ _ (by omega) (vmFn_lt _ _ _)

theorem vsts (vs : Reg) (a : Reg) (b : Reg) (q : Bool) (m : Mask) (t : Ty) : Statement (.vsts vs a b q m t) :=
  fun _ h => Option.some.inj h ▸ fmtR_lt _ _ _ _ _ (by omega) (vmFn_lt _ _ _)

theorem vstt (vs : Reg) (a : Reg) (b : Reg) (q : Bool) (m : Mask) (t : Ty) : Statement (.vstt vs a b q m t) :=
  fun _ h => Option.some.inj h ▸ fmtR_lt _ _ _ _ _ (by omega) (vmFn_lt _ _ _)

theorem vstx (vs : Reg) (a : Reg) (b : Reg) (q : Bool) (m : Mask) (t : Ty) : Statement (.vstx vs a b q m t) :=
  fun _ h => Option.some.inj h ▸ fmtR_lt _ _ _ _ _ (by omega) (vmFn_lt _ _ _)

theorem vstxadd (vs : Reg) (a : Reg) (b : Reg) (q : Bool) (m : Mask) (t : Ty) : Statement (.vstxadd vs a b q m t) :=
  fun _ h => Option.some.inj h ▸ fmtR_lt _ _ _ _ _ (by omega) (vmFn_lt _ _ _)

theorem vsttd (vs : Reg) (a : Reg) (b : Reg) (q : Bool) (m : Mask) (t : Ty) : Statement (.vsttd vs a b q m t) :=
  fun _ h => Option.some.inj h ▸ fmtR_lt _ _ _ _ _ (by omega) (vmFn_lt _ _ _)

theorem vstc (vs : Reg) (a : Reg) (b : Reg) (q : Bool) (m : Mask) (t : Ty) : Statement (.vstc vs a b q m t) :=
  fun _ h => Option.some.inj h ▸ fmtR_lt _ _ _ _ _ (by omega) (vmFn_lt _ _ _)

theorem vstcmp (vs : Reg) (a : Reg) (b : Reg) (q : Bool) (m : Mask) (t : Ty) : Statement (.vstcmp vs a b q m t) :=
  fun _ h => Option.some.inj h ▸ fmtR_lt _ _ _ _ _ (by omega) (vmFn_lt _ _ _)

theorem vadd (vd : Reg) (va : Reg) (vb : Reg) (m : Mask) : Statement (.vadd vd va vb m) :=
  fun _ h => Option.some.inj h ▸ fmtR_lt _ _ _ _ _ (by omega) (vFn_lt _ _ (by omega))

theorem vsub (vd : Reg) (va : Reg) (vb : Reg) (m : Mask) : Statement (.vsub vd va vb m) :=
  fun _ h => Option.some.inj h ▸ fmtR_lt _ _ _ _ _ (by omega) (vFn_lt _ _ (by omega))

theorem vmul (vd : Reg) (va : Reg) (vb : Reg) (m : Mask) : Statement (.vmul vd va vb m) :=
  fun _ h => Option.some.inj h ▸ fmtR_lt _ _ _ _ _ (by omega) (vFn_lt _ _ (by omega))

theorem vmulh (vd : Reg) (va : Reg) (vb : Reg) (m : Mask) : Statement (.vmulh vd va vb m) :=
  fun _ h => Option.some.inj h ▸ fmtR_lt _ _ _ _ _ (by omega) (vFn_lt _ _ (by omega))

theorem vmulhu (vd : Reg) (va : Reg) (vb : Reg) (m : Mask) : Statement (.vmulhu vd va vb m) :=
  fun _ h => Option.some.inj h ▸ fmtR_lt _ _ _ _ _ (by omega) (vFn_lt _ _ (by omega))

theorem vand (vd : Reg) (va : Reg) (vb : Reg) (m : Mask) : Statement (.vand vd va vb m) :=
  fun _ h => Option.some.inj h ▸ fmtR_lt _ _ _ _ _ (by omega) (vFn_lt _ _ (by omega))

theorem vor (vd : Reg) (va : Reg) (vb : Reg) (m : Mask) : Statement (.vor vd va vb m) :=
  fun _ h => Option.some.inj h ▸ fmtR_lt _ _ _ _ _ (by omega) (vFn_lt _ _ (by omega))

theorem vxor (vd : Reg) (va : Reg) (vb : Reg) (m : Mask) : Statement (.vxor vd va vb m) :=
  fun _ h => Option.some.inj h ▸ fmtR_lt _ _ _ _ _ (by omega) (vFn_lt _ _ (by omega))

theorem vsll (vd : Reg) (va : Reg) (vb : Reg) (m : Mask) : Statement (.vsll vd va vb m) :=
  fun _ h => Option.some.inj h ▸ fmtR_lt _ _ _ _ _ (by omega) (vFn_lt _ _ (by omega))

theorem vsrl (vd : Reg) (va : Reg) (vb : Reg) (m : Mask) : Statement (.vsrl vd va vb m) :=
  fun _ h => Option.some.inj h ▸ fmtR_lt _ _ _ _ _ (by omega) (vFn_lt _ _ (by omega))

theorem vsra (vd : Reg) (va : Reg) (vb : Reg) (m : Mask) : Statement (.vsra vd va vb m) :=
  fun _ h => Option.some.inj h ▸ fmtR_lt _ _ _ _ _ (by omega) (vFn_lt _ _ (by omega))

theorem vmin (vd : Reg) (va : Reg) (vb : Reg) (m : Mask) : Statement (.vmin vd va vb m) :=
  fun _ h => Option.some.inj h ▸ fmtR_lt _ _ _ _ _ (by omega) (vFn_lt _ _ (by omega))

theorem vmax (vd : Reg) (va : Reg) (vb : Reg) (m : Mask) : Statement (.vmax vd va vb m) :=
  fun _ h => Option.some.inj h ▸ fmtR_lt _ _ _ _ _ (by omega) (vFn_lt _ _ (by omega))

theorem vminu (vd : Reg) (va : Reg) (vb : Reg) (m : Mask) : Statement (.vminu vd va vb m) :=
  fun _ h => Option.some.inj h ▸ fmtR_lt _ _ _ _ _ (by omega) (vFn_lt _ _ (by omega))

theorem vmaxu (vd : Reg) (va : Reg) (vb : Reg) (m : Mask) : Statement (.vmaxu vd va vb m) :=
  fun _ h => Option.some.inj h ▸ fmtR_lt _ _ _ _ _ (by omega) (vFn_lt _ _ (by omega))

theorem vadds (vd : Reg) (va : Reg) (vb : Reg) (m : Mask) : Statement (.vadds vd va vb m) :=
  fun _ h => Option.some.inj h ▸ fmtR_lt _ _ _ _ _ (by omega) (vFn_lt _ _ (by omega))

theorem vaddsu (vd : Reg) (va : Reg) (vb : Reg) (m : Mask) : Statement (.vaddsu vd va vb m) :=
  fun _ h => Option.some.inj h ▸ fmtR_lt _ _ _ _ _ (by omega) (vFn_lt _ _ (by omega))

theorem vsubs (vd : Reg) (va : Reg) (vb : Reg) (m : Mask) : Statement (.vsubs vd va vb m) :=
  fun _ h => Option.some.inj h ▸ fmtR_lt _ _ _ _ _ (by omega) (vFn_lt _ _ (by omega))

theorem vsubsu (vd : Reg) (va : Reg) (vb : Reg) (m : Mask) : Statement (.vsubsu vd va vb m) :=
  fun _ h => Option.some.inj h ▸ fmtR_lt _ _ _ _ _ (by omega) (vFn_lt _ _ (by omega))

theorem vabs (vd : Reg) (va : Reg) (m : Mask) : Statement (.vabs vd va m) :=
  fun _ h => Option.some.inj h ▸ fmtR_lt _ _ _ _ _ (by omega) (vFn_lt _ _ (by omega))

theorem vneg (vd : Reg) (va : Reg) (m : Mask) : Statement (.vneg vd va m) :=
  fun _ h => Option.some.inj h ▸ fmtR_lt _ _ _ _ _ (by omega) (vFn_lt _ _ (by omega))

theorem vnot (vd : Reg) (va : Reg) (m : Mask) : Statement (.vnot vd va m) :=
  fun _ h => Option.some.inj h ▸ fmtR_lt _ _ _ _ _ (by omega) (vFn_lt _ _ (by omega))

theorem vpopc (vd : Reg) (va : Reg) (m : Mask) : Statement (.vpopc vd va m) :=
  fun _ h => Option.some.inj h ▸ fmtR_lt _ _ _ _ _ (by omega) (vFn_lt _ _ (by omega))

theorem vclz (vd : Reg) (va : Reg) (m : Mask) : Statement (.vclz vd va m) :=
  fun _ h => Option.some.inj h ▸ fmtR_lt _ _ _ _ _ (by omega) (vFn_lt _ _ (by omega))

theorem vaddVintx (vd : Reg) (va : Reg) (vb : Reg) (m : Mask) : Statement (.vaddVintx vd va vb m) :=
  fun _ h => Option.some.inj h ▸ fmtR_lt _ _ _ _ _ (by omega) (vFn_lt _ _ (by omega))

theorem vsubVintx (vd : Reg) (va : Reg) (vb : Reg) (m : Mask) : Statement (.vsubVintx vd va vb m) :=
  fun _ h => Option.some.inj h ▸ fmtR_lt _ _ _ _ _ (by omega) (vFn_lt _ _ (by omega))

theorem vmulVintx (vd : Reg) (va : Reg) (vb : Reg) (m : Mask) : Statement (.vmulVintx vd va vb m) :=
  fun _ h => Option.some.inj h ▸ fmtR_lt _ _ _ _ _ (by omega) (vFn_lt _ _ (by omega))

theorem vmulhVintx (vd : Reg) (va : Reg) (vb : Reg) (m : Mask) : Statement (.vmulhVintx vd va vb m) :=
  fun _ h => Option.some.inj h ▸ fmtR_lt _ _ _ _ _ (by omega) (vFn_lt _ _ (by omega))

theorem vmulhuVintx (vd : Reg) (va : Reg) (vb : Reg) (m : Mask) : Statement (.vmulhuVintx vd va vb m) :=
  fun _ h => Option.some.inj h ▸ fmtR_lt _ _ _ _ _ (by omega) (vFn_lt _ _ (by omega))

theorem vandVintx (vd : Reg) (va : Reg) (vb : Reg) (m : Mask) : Statement (.vandVintx vd va vb m) :=
  fun _ h => Option.some.inj h ▸ fmtR_lt _ _ _ _ _ (by omega) (vFn_lt _ _ (by omega))

theorem vorVintx (vd : Reg) (va : Reg) (vb : Reg) (m : Mask) : Statement (.vorVintx vd va vb m) :=
  fun _ h => Option.some.inj h ▸ fmtR_lt _ _ _ _ _ (by omega) (vFn_lt _ _ (by omega))

theorem vxorVintx (vd : Reg) (va : Reg) (vb : Reg) (m : Mask) : Statement (.vxorVintx vd va vb m) :=
  fun _ h => Option.some.inj h ▸ fmtR_lt _ _ _ _ _ (by omega) (vFn_lt _ _ (by omega))

theorem vsllVintx (vd : Reg) (va : Reg) (vb : Reg) (m : Mask) : Statement (.vsllVintx vd va vb m) :=
  fun _ h => Option.some.inj h ▸ fmtR_lt _ _ _ _ _ (by omega) (vFn_lt _ _ (by omega))

theorem vsrlVintx (vd : Reg) (va : Reg) (vb : Reg) (m : Mask) : Statement (.vsrlVintx vd va vb m) :=
  fun _ h => Option.some.inj h ▸ fmtR_lt _ _ _ _ _ (by omega) (vFn_lt _ _ (by omega))

theorem vsraVintx (vd : Reg) (va : Reg) (vb : Reg) (m : Mask) : Statement (.vsraVintx vd va vb m) :=
  fun _ h => Option.some.inj h ▸ fmtR_lt _ _ _ _ _ (by omega) (vFn_lt _ _ (by omega))

theorem vminVintx (vd : Reg) (va : Reg) (vb : Reg) (m : Mask) : Statement (.vminVintx vd va vb m) :=
  fun _ h => Option.some.inj h ▸ fmtR_lt _ _ _ _ _ (by omega) (vFn_lt _ _ (by omega))

theorem vmaxVintx (vd : Reg) (va : Reg) (vb : Reg) (m : Mask) : Statement (.vmaxVintx vd va vb m) :=
  fun _ h => Option.some.inj h ▸ fmtR_lt _ _ _ _ _ (by omega) (vFn_lt _ _ (by omega))

theorem vminuVintx (vd : Reg) (va : Reg) (vb : Reg) (m : Mask) : Statement (.vminuVintx vd va vb m) :=
  fun _ h => Option.some.inj h ▸ fmtR_lt _ _ _ _ _ (by omega) (vFn_lt _ _ (by omega))

theorem vmaxuVintx (vd : Reg) (va : Reg) (vb : Reg) (m : Mask) : Statement (.vmaxuVintx vd va vb m) :=
  fun _ h => Option.some.inj h ▸ fmtR_lt _ _ _ _ _ (by omega) (vFn_lt _ _ (by omega))

theorem vaddsVintx (vd : Reg) (va : Reg) (vb : Reg) (m : Mask) : Statement (.vaddsVintx vd va vb m) :=
  fun _ h => Option.some.inj h ▸ fmtR_lt _ _ _ _ _ (by omega) (vFn_lt _ _ (by omega))

theorem vaddsuVintx (vd : Reg) (va : Reg) (vb : Reg) (m : Mask) : Statement (.vaddsuVintx vd va vb m) :=
  fun _ h => Option.some.inj h ▸ fmtR_lt _ _ _ _ _ (by omega) (vFn_lt _ _ (by omega))

theorem vsubsVintx (vd : Reg) (va : Reg) (vb : Reg) (m : Mask) : Statement (.vsubsVintx vd va vb m) :=
  fun _ h => Option.some.inj h ▸ fmtR_lt _ _ _ _ _ (by omega) (vFn_lt _ _ (by omega))

theorem vsubsuVintx (vd : Reg) (va : Reg) (vb : Reg) (m : Mask) : Statement (.vsubsuVintx vd va vb m) :=
  fun _ h => Option.some.inj h ▸ fmtR_lt _ _ _ _ _ (by omega) (vFn_lt _ _ (by omega))

theorem vfadd (vd : Reg) (va : Reg) (vb : Reg) (m : Mask) : Statement (.vfadd vd va vb m) :=
  fun _ h => Option.some.inj h ▸ fmtR_lt _ _ _ _ _ (by omega) (vFn_lt _ _ (by omega))

theorem vfsub (vd : Reg) (va : Reg) (vb : Reg) (m : Mask) : Statement (.vfsub vd va vb m) :=
  fun _ h => Option.some.inj h ▸ fmtR_lt _ _ _ _ _ (by omega) (vFn_lt _ _ (by omega))

theorem vfmul (vd : Reg) (va : Reg) (vb : Reg) (m : Mask) : Statement (.vfmul vd va vb m) :=
  fun _ h => Option.some.inj h ▸ fmtR_lt _ _ _ _ _ (by omega) (vFn_lt _ _ (by omega))

theorem vfdiv (vd : Reg) (va : Reg) (vb : Reg) (m : Mask) : Statement (.vfdiv vd va vb m) :=
  fun _ h => Option.some.inj h ▸ fmtR_lt _ _ _ _ _ (by omega) (vFn_lt _ _ (by omega))

theorem vfmin (vd : Reg) (va : Reg) (vb : Reg) (m : Mask) : Statement (.vfmin vd va vb m) :=
  fun _ h => Option.some.inj h ▸ fmtR_lt _ _ _ _ _ (by omega) (vFn_lt _ _ (by omega))

theorem vfmax (vd : Reg) (va : Reg) (vb : Reg) (m : Mask) : Statement (.vfmax vd va vb m) :=
  fun _ h => Option.some.inj h ▸ fmtR_lt _ _ _ _ _ (by omega) (vFn_lt _ _ (by omega))

theorem vfabs (vd : Reg) (va : Reg) (m : Mask) : Statement (.vfabs vd va m) :=
  fun _ h => Option.some.inj h ▸ fmtR_lt _ _ _ _ _ (by omega) (vFn_lt _ _ (by omega))

theorem vfneg (vd : Reg) (va : Reg) (m : Mask) : Statement (.vfneg vd va m) :=
  fun _ h => Option.some.inj h ▸ fmtR_lt _ _ _ _ _ (by omega) (vFn_lt _ _ (by omega))

theorem vfsqrt (vd : Reg) (va : Reg) (m : Mask) : Statement (.vfsqrt vd va m) :=
  fun _ h => Option.some.inj h ▸ fmtR_lt _ _ _ _ _ (by omega) (vFn_lt _ _ (by omega))

theorem vfrcp (vd : Reg) (va : Reg) (m : Mask) : Statement (.vfrcp vd va m) :=
  fun _ h => Option.some.inj h ▸ fmtR_lt _ _ _ _ _ (by omega) (vFn_lt _ _ (by omega))

theorem vfrsq (vd : Reg) (va : Reg) (m : Mask) : Statement (.vfrsq vd va m) :=
  fun _ h => Option.some.inj h ▸ fmtR_lt _ _ _ _ _ (by omega) (vFn_lt _ _ (by omega))

theorem vfexp2 (vd : Reg) (va : Reg) (m : Mask) : Statement (.vfexp2 vd va m) :=
  fun _ h => Option.some.inj h ▸ fmtR_lt _ _ _ _ _ (by omega) (vFn_lt _ _ (by omega))

theorem vflog2 (vd : Reg) (va : Reg) (m : Mask) : Statement (.vflog2 vd va m) :=
  fun _ h => Option.some.inj h ▸ fmtR_lt _ _ _ _ _ (by omega) (vFn_lt _ _ (by omega))

theorem vfsgnj (vd : Reg) (va : Reg) (vb : Reg) (m : Mask) : Statement (.vfsgnj vd va vb m) :=
  fun _ h => Option.some.inj h ▸ fmtR_lt _ _ _ _ _ (by omega) (vFn_lt _ _ (by omega))

theorem vfrint (vd : Reg) (va : Reg) (m : Mask) : Statement (.vfrint vd va m) :=
  fun _ h => Option.some.inj h ▸ fmtR_lt _ _ _ _ _ (by omega) (vFn_lt _ _ (by omega))

theorem vfaddVfpx (vd : Reg) (va : Reg) (vb : Reg) (m : Mask) : Statement (.vfaddVfpx vd va vb m) :=
  fun _ h => Option.some.inj h ▸ fmtR_lt _ _ _ _ _ (by omega) (vFn_lt _ _ (by omega))

theorem vfsubVfpx (vd : Reg) (va : Reg) (vb : Reg) (m : Mask) : Statement (.vfsubVfpx vd va vb m) :=
  fun _ h => Option.some.inj h ▸ fmtR_lt _ _ _ _ _ (by omega) (vFn_lt _ _ (by omega))

theorem vfmulVfpx (vd : Reg) (va : Reg) (vb : Reg) (m : Mask) : Statement (.vfmulVfpx vd va vb m) :=
  fun _ h => Option.some.inj h ▸ fmtR_lt _ _ _ _ _ (by omega) (vFn_lt _ _ (by omega))

theorem vfdivVfpx (vd : Reg) (va : Reg) (vb : Reg) (m : Mask) : Statement (.vfdivVfpx vd va vb m) :=
  fun _ h => Option.some.inj h ▸ fmtR_lt _ _ _ _ _ (by omega) (vFn_lt _ _ (by omega))

theorem vfminVfpx (vd : Reg) (va : Reg) (vb : Reg) (m : Mask) : Statement (.vfminVfpx vd va vb m) :=
  fun _ h => Option.some.inj h ▸ fmtR_lt _ _ _ _ _ (by omega) (vFn_lt _ _ (by omega))

theorem vfmaxVfpx (vd : Reg) (va : Reg) (vb : Reg) (m : Mask) : Statement (.vfmaxVfpx vd va vb m) :=
  fun _ h => Option.some.inj h ▸ fmtR_lt _ _ _ _ _ (by omega) (vFn_lt _ _ (by omega))

theorem vfsgnjVfpx (vd : Reg) (va : Reg) (vb : Reg) (m : Mask) : Statement (.vfsgnjVfpx vd va vb m) :=
  fun _ h => Option.some.inj h ▸ fmtR_lt _ _ _ _ _ (by omega) (vFn_lt _ _ (by omega))

theorem vfma (vd : Reg) (va : Reg) (vb : Reg) (vc : Reg) (m : Mask) : Statement (.vfma vd va vb vc m) :=
  fun _ h => Option.some.inj h ▸ fmtR_lt _ _ _ _ _ (by omega) (v4Fn_lt _ _)

theorem vfms (vd : Reg) (va : Reg) (vb : Reg) (vc : Reg) (m : Mask) : Statement (.vfms vd va vb vc m) :=
  fun _ h => Option.some.inj h ▸ fmtR_lt _ _ _ _ _ (by omega) (v4Fn_lt _ _)

theorem vfnma (vd : Reg) (va : Reg) (vb : Reg) (vc : Reg) (m : Mask) : Statement (.vfnma vd va vb vc m) :=
  fun _ h => Option.some.inj h ▸ fmtR_lt _ _ _ _ _ (by omega) (v4Fn_lt _ _)

theorem vfnms (vd : Reg) (va : Reg) (vb : Reg) (vc : Reg) (m : Mask) : Statement (.vfnms vd va vb vc m) :=
  fun _ h => Option.some.inj h ▸ fmtR_lt _ _ _ _ _ (by omega) (v4Fn_lt _ _)

theorem vcmpInt (pd : Reg) (va : Reg) (vb : Reg) (m : Mask) (c : ICond) : Statement (.vcmpInt pd va vb m c) :=
  fun _ h => Option.some.inj h ▸ fmtR_lt _ _ _ _ _ (by omega) (vFn_lt _ _ (by cases c <;> decide))

theorem vcmpFp (pd : Reg) (va : Reg) (vb : Reg) (m : Mask) (c : FCond) : Statement (.vcmpFp pd va vb m c) :=
  fun _ h => Option.some.inj h ▸ fmtR_lt _ _ _ _ _ (by omega) (vFn_lt _ _ (by cases c <;> decide))

theorem vcmpxInt (pd : Reg) (va : Reg) (vb : Reg) (m : Mask) (c : ICond) : Statement (.vcmpxInt pd va vb m c) :=
  fun _ h => Option.some.inj h ▸ fmtR_lt _ _ _ _ _ (by omega) (vFn_lt _ _ (by cases c <;> decide))

theorem vcmpxFp (pd : Reg) (va : Reg) (vb : Reg) (m : Mask) (c : FCond) : Statement (.vcmpxFp pd va vb m c) :=
  fun _ h => Option.some.inj h ▸ fmtR_lt _ _ _ _ _ (by omega) (vFn_lt _ _ (by cases c <;> decide))

theorem vcvtRnd (vd : Reg) (va : Reg) (t : Ty) (m : Mask) : Statement (.vcvtRnd vd va t m) :=
  fun _ h => Option.some.inj h ▸ fmtR_lt _ _ _ _ _ (by omega) (vFn_lt _ _ (by omega))

theorem vcvtSr (vd : Reg) (va : Reg) (t : Ty) (m : Mask) : Statement (.vcvtSr vd va t m) :=
  fun _ h => Option.some.inj h ▸ fmtR_lt _ _ _ _ _ (by omega) (vFn_lt _ _ (by omega))

theorem vcvtRtz (vd : Reg) (va : Reg) (t : Ty) (m : Mask) : Statement (.vcvtRtz vd va t m) :=
  fun _ h => Option.some.inj h ▸ fmtR_lt _ _ _ _ _ (by omega) (vFn_lt _ _ (by omega))

theorem vcvtSat (vd : Reg) (va : Reg) (t : Ty) (m : Mask) : Statement (.vcvtSat vd va t m) :=
  fun _ h => Option.some.inj h ▸ fmtR_lt _ _ _ _ _ (by omega) (vFn_lt _ _ (by omega))

theorem vcvtF4 (vd : Reg) (va : Reg) (m : Mask) : Statement (.vcvtF4 vd va m) :=
  fun _ h => Option.some.inj h ▸ fmtR_lt _ _ _ _ _ (by omega) (vFn_lt _ _ (by omega))

theorem vcvtF4sr (vd : Reg) (va : Reg) (m : Mask) : Statement (.vcvtF4sr vd va m) :=
  fun _ h => Option.some.inj h ▸ fmtR_lt _ _ _ _ _ (by omega) (vFn_lt _ _ (by omega))

theorem vmov (vd : Reg) (va : Reg) (m : Mask) : Statement (.vmov vd va m) :=
  fun _ h => Option.some.inj h ▸ fmtR_lt _ _ _ _ _ (by omega) (vFn_lt _ _ (by omega))

theorem vbcast (vd : Reg) (t : Ty) (b : Reg) (m : Mask) : Statement (.vbcast vd t b m) :=
  fun _ h => Option.some.inj h ▸ fmtR_lt _ _ _ _ _ (by omega) (vFn_lt _ _ (by omega))

theorem vsel (vd : Reg) (va : Reg) (vb : Reg) (m : Reg) : Statement (.vsel vd va vb m) :=
  fun _ h => Option.some.inj h ▸ fmtR_lt _ _ _ _ _ (by omega) (vFn_lt _ _ (by omega))

theorem vslide (vd : Reg) (va : Reg) (vb : Reg) (m : Mask) : Statement (.vslide vd va vb m) :=
  fun _ h => Option.some.inj h ▸ fmtR_lt _ _ _ _ _ (by omega) (vFn_lt _ _ (by omega))

theorem vperm (vd : Reg) (va : Reg) (vb : Reg) (m : Mask) : Statement (.vperm vd va vb m) :=
  fun _ h => Option.some.inj h ▸ fmtR_lt _ _ _ _ _ (by omega) (vFn_lt _ _ (by omega))

theorem vscansum (vd : Reg) (va : Reg) (m : Mask) : Statement (.vscansum vd va m) :=
  fun _ h => Option.some.inj h ▸ fmtR_lt _ _ _ _ _ (by omega) (vFn_lt _ _ (by omega))

theorem vreint (vd : Reg) (va : Reg) (t : Ty) (m : Mask) : Statement (.vreint vd va t m) :=
  fun _ h => Option.some.inj h ▸ fmtR_lt _ _ _ _ _ (by omega) (vFn_lt _ _ (by omega))

theorem vrand (vd : Reg) (m : Mask) : Statement (.vrand vd m) :=
  fun _ h => Option.some.inj h ▸ fmtR_lt _ _ _ _ _ (by omega) (vFn_lt _ _ (by omega))

theorem vrandf (vd : Reg) (m : Mask) : Statement (.vrandf vd m) :=
  fun _ h => Option.some.inj h ▸ fmtR_lt _ _ _ _ _ (by omega) (vFn_lt _ _ (by omega))

theorem vidx (vd : Reg) (start : BitVec 11) (step : BitVec 10) : Statement (.vidx vd start step) :=
  fun _ h => Option.some.inj h ▸ fmtX_lt _ _ _ _ (by omega) (by omega) (by omega)

theorem pand (pd : Reg) (pa : Reg) (pb : Reg) : Statement (.pand pd pa pb) :=
  fun _ h => Option.some.inj h ▸ fmtR_lt _ _ _ _ _ (by omega) (by omega)

theorem por (pd : Reg) (pa : Reg) (pb : Reg) : Statement (.por pd pa pb) :=
  fun _ h => Option.some.inj h ▸ fmtR_lt _ _ _ _ _ (by omega) (by omega)

theorem pxor (pd : Reg) (pa : Reg) (pb : Reg) : Statement (.pxor pd pa pb) :=
  fun _ h => Option.some.inj h ▸ fmtR_lt _ _ _ _ _ (by omega) (by omega)

theorem pandn (pd : Reg) (pa : Reg) (pb : Reg) : Statement (.pandn pd pa pb) :=
  fun _ h => Option.some.inj h ▸ fmtR_lt _ _ _ _ _ (by omega) (by omega)

theorem pnot (pd : Reg) (pa : Reg) : Statement (.pnot pd pa) :=
  fun _ h => Option.some.inj h ▸ fmtR_lt _ _ _ _ _ (by omega) (by omega)

theorem pset (pd : Reg) : Statement (.pset pd) :=
  fun _ h => Option.some.inj h ▸ fmtR_lt _ _ _ _ _ (by omega) (by omega)

theorem pclr (pd : Reg) : Statement (.pclr pd) :=
  fun _ h => Option.some.inj h ▸ fmtR_lt _ _ _ _ _ (by omega) (by omega)

theorem pmov (pd : Reg) (pa : Reg) : Statement (.pmov pd pa) :=
  fun _ h => Option.some.inj h ▸ fmtR_lt _ _ _ _ _ (by omega) (by omega)

theorem vredsum (d : Reg) (va : Reg) (m : Mask) (q : Bool) : Statement (.vredsum d va m q) :=
  fun _ h => Option.some.inj h ▸ fmtR_lt _ _ _ _ _ (by omega) (vredFn_lt _ _ _ (by omega))

theorem vredsumt (d : Reg) (va : Reg) (m : Mask) (q : Bool) : Statement (.vredsumt d va m q) :=
  fun _ h => Option.some.inj h ▸ fmtR_lt _ _ _ _ _ (by omega) (vredFn_lt _ _ _ (by omega))

theorem vredmax (d : Reg) (va : Reg) (m : Mask) (q : Bool) : Statement (.vredmax d va m q) :=
  fun _ h => Option.some.inj h ▸ fmtR_lt _ _ _ _ _ (by omega) (vredFn_lt _ _ _ (by omega))

theorem vredmin (d : Reg) (va : Reg) (m : Mask) (q : Bool) : Statement (.vredmin d va m q) :=
  fun _ h => Option.some.inj h ▸ fmtR_lt _ _ _ _ _ (by omega) (vredFn_lt _ _ _ (by omega))

theorem vredmaxu (d : Reg) (va : Reg) (m : Mask) (q : Bool) : Statement (.vredmaxu d va m q) :=
  fun _ h => Option.some.inj h ▸ fmtR_lt _ _ _ _ _ (by omega) (vredFn_lt _ _ _ (by omega))

theorem vredminu (d : Reg) (va : Reg) (m : Mask) (q : Bool) : Statement (.vredminu d va m q) :=
  fun _ h => Option.some.inj h ▸ fmtR_lt _ _ _ _ _ (by omega) (vredFn_lt _ _ _ (by omega))

theorem vredand (d : Reg) (va : Reg) (m : Mask) (q : Bool) : Statement (.vredand d va m q) :=
  fun _ h => Option.some.inj h ▸ fmtR_lt _ _ _ _ _ (by omega) (vredFn_lt _ _ _ (by omega))

theorem vredor (d : Reg) (va : Reg) (m : Mask) (q : Bool) : Statement (.vredor d va m q) :=
  fun _ h => Option.some.inj h ▸ fmtR_lt _ _ _ _ _ (by omega) (vredFn_lt _ _ _ (by omega))

theorem vredxor (d : Reg) (va : Reg) (m : Mask) (q : Bool) : Statement (.vredxor d va m q) :=
  fun _ h => Option.some.inj h ▸ fmtR_lt _ _ _ _ _ (by omega) (vredFn_lt _ _ _ (by omega))

theorem vredrow (d : Reg) (va : Reg) (m : Mask) (q : Bool) : Statement (.vredrow d va m q) :=
  fun _ h => Option.some.inj h ▸ fmtR_lt _ _ _ _ _ (by omega) (vredFn_lt _ _ _ (by omega))

theorem vredrowmax (d : Reg) (va : Reg) (m : Mask) (q : Bool) : Statement (.vredrowmax d va m q) :=
  fun _ h => Option.some.inj h ▸ fmtR_lt _ _ _ _ _ (by omega) (vredFn_lt _ _ _ (by omega))

theorem vffs (d : Reg) (va : Reg) (m : Mask) (q : Bool) : Statement (.vffs d va m q) :=
  fun _ h => Option.some.inj h ▸ fmtR_lt _ _ _ _ _ (by omega) (vredFn_lt _ _ _ (by omega))

theorem vpop (d : Reg) (va : Reg) (m : Mask) (q : Bool) : Statement (.vpop d va m q) :=
  fun _ h => Option.some.inj h ▸ fmtR_lt _ _ _ _ _ (by omega) (vredFn_lt _ _ _ (by omega))

theorem mma (d : Reg) (a : Reg) (b : Reg) : Statement (.mma d a b) :=
  fun _ h => Option.some.inj h ▸ fmtR_lt _ _ _ _ _ (by omega) (by omega)

theorem mzero (d : Reg) (b : Reg) : Statement (.mzero d b) :=
  fun _ h => Option.some.inj h ▸ fmtR_lt _ _ _ _ _ (by omega) (by omega)

theorem msync (d : Reg) (a : Reg) : Statement (.msync d a) :=
  fun _ h => Option.some.inj h ▸ fmtR_lt _ _ _ _ _ (by omega) (by omega)

theorem mtarget (a : Reg) : Statement (.mtarget a) :=
  fun _ h => Option.some.inj h ▸ fmtR_lt _ _ _ _ _ (by omega) (by omega)

theorem mshape (a : Reg) (b : Reg) : Statement (.mshape a b) :=
  fun _ h => Option.some.inj h ▸ fmtR_lt _ _ _ _ _ (by omega) (by omega)

theorem mslot (d : Reg) (a : Reg) (b : Reg) : Statement (.mslot d a b) :=
  fun _ h => Option.some.inj h ▸ fmtR_lt _ _ _ _ _ (by omega) (by omega)

theorem barArrive (g : Fin 4) : Statement (.barArrive g) :=
  fun _ h => Option.some.inj h ▸ fmtR_lt _ _ _ _ _ (by omega) (by omega)

theorem barWait (g : Fin 4) : Statement (.barWait g) :=
  fun _ h => Option.some.inj h ▸ fmtR_lt _ _ _ _ _ (by omega) (by omega)

theorem barTest (g : Fin 4) : Statement (.barTest g) :=
  fun _ h => Option.some.inj h ▸ fmtR_lt _ _ _ _ _ (by omega) (by omega)

theorem fenceC : Statement (.fenceC) :=
  fun _ h => Option.some.inj h ▸ fmtR_lt _ _ _ _ _ (by omega) (by omega)

theorem fenceK : Statement (.fenceK) :=
  fun _ h => Option.some.inj h ▸ fmtR_lt _ _ _ _ _ (by omega) (by omega)

theorem fenceD : Statement (.fenceD) :=
  fun _ h => Option.some.inj h ▸ fmtR_lt _ _ _ _ _ (by omega) (by omega)

theorem fenceS : Statement (.fenceS) :=
  fun _ h => Option.some.inj h ▸ fmtR_lt _ _ _ _ _ (by omega) (by omega)

theorem xcopy (d : Reg) (a : Reg) : Statement (.xcopy d a) :=
  fun _ h => Option.some.inj h ▸ fmtR_lt _ _ _ _ _ (by omega) (by omega)

theorem xwait (d : Reg) (a : Reg) : Statement (.xwait d a) :=
  fun _ h => Option.some.inj h ▸ fmtR_lt _ _ _ _ _ (by omega) (by omega)

theorem xpoll (d : Reg) (a : Reg) : Statement (.xpoll d a) :=
  fun _ h => Option.some.inj h ▸ fmtR_lt _ _ _ _ _ (by omega) (by omega)

theorem xcancel (a : Reg) : Statement (.xcancel a) :=
  fun _ h => Option.some.inj h ▸ fmtR_lt _ _ _ _ _ (by omega) (by omega)

theorem tdinv (a : Reg) : Statement (.tdinv a) :=
  fun _ h => Option.some.inj h ▸ fmtR_lt _ _ _ _ _ (by omega) (by omega)

theorem tdinvall : Statement (.tdinvall) :=
  fun _ h => Option.some.inj h ▸ fmtR_lt _ _ _ _ _ (by omega) (by omega)

theorem passStart : Statement (.passStart) :=
  fun _ h => nomatch h

theorem stripCommit (p : Nat) : Statement (.stripCommit p) :=
  fun _ h => nomatch h

theorem passComplete : Statement (.passComplete) :=
  fun _ h => nomatch h

theorem laneError (p : Nat) (core : Nat) (lg : Nat) (lane : Nat) : Statement (.laneError p core lg lane) :=
  fun _ h => nomatch h

theorem clusterRenumber (c : Nat) : Statement (.clusterRenumber c) :=
  fun _ h => nomatch h

theorem clusterRetirement (c : Nat) : Statement (.clusterRetirement c) :=
  fun _ h => nomatch h

theorem deferredTrap : Statement (.deferredTrap) :=
  fun _ h => nomatch h

theorem interrupt : Statement (.interrupt) :=
  fun _ h => nomatch h

theorem laneRetirementNotice : Statement (.laneRetirementNotice) :=
  fun _ h => nomatch h

theorem arrivalMarkerFire : Statement (.arrivalMarkerFire) :=
  fun _ h => nomatch h

theorem jobStart (c : Nat) (x : JobTurn) : Statement (.jobStart c x) :=
  fun _ h => nomatch h

theorem jobComplete (c : Nat) (h : Nat) : Statement (.jobComplete c h) :=
  fun _ h => nomatch h

theorem mmaExecute (c : Nat) (x : MmaTurn) : Statement (.mmaExecute c x) :=
  fun _ h => nomatch h

theorem mmaComplete (c : Nat) : Statement (.mmaComplete c) :=
  fun _ h => nomatch h

theorem slotPeriod : Statement (.slotPeriod) :=
  fun _ h => nomatch h

theorem rowActivationAlert (stack : Nat) (x : RowAt) : Statement (.rowActivationAlert stack x) :=
  fun _ h => nomatch h

theorem backoffEnd (stack : Nat) (x : BankAt) : Statement (.backoffEnd stack x) :=
  fun _ h => nomatch h

theorem activationWindowRelease (stack : Nat) : Statement (.activationWindowRelease stack) :=
  fun _ h => nomatch h

theorem channelPredicted (stack : Nat) (ch : Nat) : Statement (.channelPredicted stack ch) :=
  fun _ h => nomatch h

theorem channelFailed (stack : Nat) (ch : Nat) : Statement (.channelFailed stack ch) :=
  fun _ h => nomatch h

theorem failedChannelRetirement (stack : Nat) (ch : Nat) : Statement (.failedChannelRetirement stack ch) :=
  fun _ h => nomatch h

theorem migrationWindowStall (w : Nat) : Statement (.migrationWindowStall w) :=
  fun _ h => nomatch h

theorem migrationWindowSwitch (w : Nat) : Statement (.migrationWindowSwitch w) :=
  fun _ h => nomatch h

theorem launchPortWrite (x : PortVal) : Statement (.launchPortWrite x) :=
  fun _ h => nomatch h

theorem launchAccept : Statement (.launchAccept) :=
  fun _ h => nomatch h

theorem waitConditionPoll (l : Nat) : Statement (.waitConditionPoll l) :=
  fun _ h => nomatch h

theorem priorityAging (l : Nat) : Statement (.priorityAging l) :=
  fun _ h => nomatch h

theorem strandPlacement (l : Nat) (places : List Spot) : Statement (.strandPlacement l places) :=
  fun _ h => nomatch h

theorem preemption : Statement (.preemption) :=
  fun _ h => nomatch h

theorem strandRestore (place : Spot) : Statement (.strandRestore place) :=
  fun _ h => nomatch h

theorem launchComplete (l : Nat) : Statement (.launchComplete l) :=
  fun _ h => nomatch h

theorem hostBar2Read (x : BarAt) (len : Nat) : Statement (.hostBar2Read x len) :=
  fun _ h => nomatch h

theorem hostBar2Write (x : BarAt) (bytes : List Byte) : Statement (.hostBar2Write x bytes) :=
  fun _ h => nomatch h

theorem ctxactActivate (x : CtxVal) : Statement (.ctxactActivate x) :=
  fun _ h => nomatch h

theorem ctxactDeactivate (x : CtxVal) : Statement (.ctxactDeactivate x) :=
  fun _ h => nomatch h

theorem registerWrite (x : BarAt) (v : RegVal) : Statement (.registerWrite x v) :=
  fun _ h => nomatch h

theorem attest (side : Side) : Statement (.attest side) :=
  fun _ h => nomatch h

theorem milepost (side : Side) : Statement (.milepost side) :=
  fun _ h => nomatch h

theorem raslog (side : Side) : Statement (.raslog side) :=
  fun _ h => nomatch h

theorem powermode (side : Side) : Statement (.powermode side) :=
  fun _ h => nomatch h

theorem tenantkey (side : Side) : Statement (.tenantkey side) :=
  fun _ h => nomatch h

theorem chanret (side : Side) : Statement (.chanret side) :=
  fun _ h => nomatch h

theorem debugunlock (side : Side) : Statement (.debugunlock side) :=
  fun _ h => nomatch h

theorem mailboxCtxact (side : Side) : Statement (.mailboxCtxact side) :=
  fun _ h => nomatch h

theorem extend (side : Side) : Statement (.extend side) :=
  fun _ h => nomatch h

theorem priResponse (k : Nat) (frame : Option (BitVec 52)) : Statement (.priResponse k frame) :=
  fun _ h => nomatch h

theorem priTimeout (k : Nat) : Statement (.priTimeout k) :=
  fun _ h => nomatch h

theorem atsInvalidation (pasid : BitVec 20) (page : Option (BitVec 48)) : Statement (.atsInvalidation pasid page) :=
  fun _ h => nomatch h

theorem ideInsecure (fn : Bool) : Statement (.ideInsecure fn) :=
  fun _ h => nomatch h

theorem peerAccess (a : PeerOp) : Statement (.peerAccess a) :=
  fun _ h => nomatch h

theorem peerErrorCompletion (peer : BitVec 12) : Statement (.peerErrorCompletion peer) :=
  fun _ h => nomatch h

theorem peerTimeout (peer : BitVec 12) : Statement (.peerTimeout peer) :=
  fun _ h => nomatch h

theorem linkTraining (domain : BitVec 12) : Statement (.linkTraining domain) :=
  fun _ h => nomatch h

theorem portWidthChange (port : Nat) : Statement (.portWidthChange port) :=
  fun _ h => nomatch h

theorem lifecycleFuse (retire : Bool) : Statement (.lifecycleFuse retire) :=
  fun _ h => nomatch h

theorem coldReset : Statement (.coldReset) :=
  fun _ h => nomatch h

theorem warmReset : Statement (.warmReset) :=
  fun _ h => nomatch h

theorem illegalInstruction (w : IWord) : Statement (.illegalInstruction w) :=
  fun _ h => nomatch h

theorem emulationTrap (w : IWord) : Statement (.emulationTrap w) :=
  fun _ h => nomatch h

theorem mccFailure (c : Nat) : Statement (.mccFailure c) :=
  fun _ h => nomatch h

theorem hostUnsupportedRequest : Statement (.hostUnsupportedRequest) :=
  fun _ h => nomatch h

theorem ideKm (fn : Bool) (stream : Fin 5) : Statement (.ideKm fn stream) :=
  fun _ h => nomatch h

theorem debuggerHalt (c : Nat) (core : Nat) (lgs : BitVec 4) : Statement (.debuggerHalt c core lgs) :=
  fun _ h => nomatch h

theorem powerGating (c : Nat) (core : Nat) : Statement (.powerGating c core) :=
  fun _ h => nomatch h

end Sys2Proof.Laws.Fits
end

