-- ==== Sys2Proof/Tests/Slice0.lean ====
section
/-!
SUPPORT. The model's own tests: terms that are not well formed, words and what they stand for, results that the specification
prints, and, for each statement with hypotheses, states and operands that meet them.
-/

namespace Sys2Proof

set_option Elab.async false

/-! ### Terms that are not well formed: one for each check -/

theorem test_ill_formed_state_numbers :
    ([.mfs 1 0x012, .mfs 1 0x0FF, .mfs 1 0x110, .mts 1 0x000, .mts 1 0x004, .mts 1 0x00A, .mts 1 0x0FF] : List Instr).all
      (fun i => !wellFormed i) = true := by decide +kernel

theorem test_ill_formed_orders :
    ([.lda 1 2 .dev .rel .w, .lda 1 2 .dev .acqrel .w, .stl 1 2 .dev .acq .w, .stl 1 2 .dev .acqrel .w] : List Instr).all
      (fun i => !wellFormed i) = true := by decide +kernel

theorem test_ill_formed_strips :
    ([.strip 1 2 31 1 0, .strip 1 2 29 3 0, .strip 1 2 3 0 4, .strip 1 2 3 2 0x40] : List Instr).all
      (fun i => !wellFormed i) = true := by decide +kernel

theorem test_ill_formed_types :
    ([.vld 1 2 none .ch8, .vldFf 1 2 none .ch4, .vldSeg 1 2 3 none .ch8, .vldRow 1 2 none .ch8, .vldCol 1 2 none .ch8,
      .vlds 1 2 3 none .ch8, .vldt 1 2 3 none .ch8, .vst 1 2 true none .ch4, .vstSeg 1 2 3 true none .ch4,
      .vsts 1 2 3 true none .ch8, .vstt 1 2 3 true none .ch8, .vstx 1 2 3 true none .ch8, .vstxadd 1 2 3 true none .ch8,
      .vsttd 1 2 3 true none .ch8, .vstc 1 2 3 true none .e2m1, .vstcmp 1 2 3 true none .ch8] : List Instr).all
      (fun i => !wellFormed i) = true := by decide +kernel

theorem test_ill_formed_segments :
    ([.vldSeg 1 2 1 none .f32, .vldSeg 1 2 9 none .f32, .vldSeg 30 2 3 none .f32, .vstSeg 1 2 1 true none .f32,
      .vstSeg 1 2 9 true none .f32, .vstSeg 25 2 8 true none .f32] : List Instr).all (fun i => !wellFormed i) = true := by
  decide +kernel

theorem test_ill_formed_places :
    ([.strandPlacement 1 [], .strandPlacement 1 [⟨12, 0, 0, 1, false⟩], .strandPlacement 1 [⟨0, 24, 0, 1, false⟩], .strandPlacement 1 [⟨0, 0, 4, 1, false⟩],
      .strandPlacement 1 [⟨0, 0, 0, 5, false⟩], .strandRestore ⟨12, 0, 0, 1, false⟩] : List Instr).all
      (fun i => !wellFormed i) = true := by decide +kernel

theorem test_ill_formed_events :
    ([.laneError 0 24 0 0, .laneError 0 0 4 0, .laneError 0 0 0 9, .clusterRenumber 12, .clusterRetirement 12, .jobStart 12 ⟨0, none⟩,
      .jobComplete 12 0, .mmaExecute 12 ⟨0, none⟩, .mmaComplete 12, .rowActivationAlert 12 ⟨0, 0, 0⟩, .rowActivationAlert 0 ⟨32, 0, 0⟩, .backoffEnd 12 ⟨0, 0⟩,
      .backoffEnd 0 ⟨32, 0⟩, .activationWindowRelease 12, .channelPredicted 12 0, .channelPredicted 0 32, .channelFailed 12 0,
      .channelFailed 0 32, .failedChannelRetirement 12 0, .failedChannelRetirement 0 32, .hostBar2Read ⟨false, 0⟩ 0, .hostBar2Write ⟨false, 0⟩ [],
      .portWidthChange 18, .mccFailure 12, .debuggerHalt 12 0 1, .debuggerHalt 0 24 1, .powerGating 12 0, .powerGating 0 24] :
      List Instr).all (fun i => !wellFormed i) = true := by decide +kernel

/-! ### Words -/

/-- The word decodes to the instruction. -/
noncomputable def reads (w : Nat) (i : Instr) : Bool :=
  match decodeWord (BitVec.ofNat 32 w) with
  | .ok j => decide (j = i)
  | .error _ => false

/-- The word decodes to no instruction. -/
noncomputable def readsNone (w : Nat) : Bool :=
  match decodeWord (BitVec.ofNat 32 w) with
  | .ok _ => false
  | .error _ => true

/-! ### Words that the specification gives as examples -/

theorem test_example_words_scalar :
    [(0x114B6000, .add 10 11 12), (0x114B0012, .popc 10 11), (0x154B6003, .div 10 11 12), (0x1BDEFFC0, .addi 30 30 (-64)),
     (0x1D4B00FF, .andi 10 11 0xFF), (0x214B0083, .srai 10 11 3), (0x294B4064, .sltiu 10 11 100),
     (0x2599BEEF, .ldk 12 3 0xBEEF), (0x2CA48010, .ldw 5 4 16), (0x2E9EDFF8, .ldd 20 30 (-8)), (0x329E6008, .std 20 30 8),
     (0x35880008, .bltz 12 8), (0x38850003, .beq 4 5 3), (0x394B9FFE, .bltu 10 11 (-2)), (0x3DFFFFF0, .b (-16)),
     (0x3E000100, .bl 256), (0x40010000, .jr 1), (0x402C0001, .jlr 1 12), (0x04001234, .trap 0x1234), (0x09400006, .mfs 10 6),
     (0x0C0B0005, .mts 11 5), (0x44A638CC, .amoadd 5 6 7 .dev .acq .d), (0x454B64DC, .amocas 10 11 12 .dev .acqrel .d),
     (0x454B6540, .amofadd 10 11 12 .dev .rlx .w), (0x454B6020, .amoswap 10 11 12 .clu .rlx .w),
     (0x454B05E8, .lda 10 11 .sys .acq .w), (0x440B6654, .stl 11 12 .dev .rel .d), (0x494B6400, .fadd 10 11 12 .d),
     (0x494B002A, .fcvti 10 11 .s true), (0x4D4B6400, .fmac 10 11 12 .d), (0x014B000A, .launch 10 11), (0x000A580C, .cachewb 10 11),
     (0x000A580B, .tlbi 10 11), (0x00A00009, .vdrop 5)].all (fun p => reads p.1 p.2) = true := by
  decide +kernel

/-- The words of the examples of chapters 08 to 15. VSTT's is written with ME = 1, as R23 asks of a masked instruction (log entry 71). -/
theorem test_example_words_vector :
    [(0x51AB5004, .strip 13 11 10 0 2), (0x51ABA434, .strip 13 11 20 2 0x1A), (0x55AB0000, .setvl 13 11), (0x55CC0001, .setrows 14 12),
     (0x582A0006, .vld 1 10 none .f32), (0x582A0800, .vldFf 1 10 none .i8), (0x588A1801, .vldSeg 4 10 3 none .i16),
     (0x58AC4805, .vldRow 5 12 none .bf16), (0x58CD5005, .vldCol 6 13 none .bf16), (0x5C4A5806, .vlds 2 10 11 none .f32),
     (0x606A7225, .vldt 3 10 14 (some 2) .bf16), (0x64EF3008, .vldx 7 15 6 none .e4m3), (0x6910880C, .vldtd 8 16 17 none .ch4),
     (0x6D329805, .vldz 9 18 19 none .bf16), (0x704A0006, .vst 2 10 false none .f32), (0x708A1C01, .vstSeg 4 10 3 true none .i16),
     (0x746C5806, .vsts 3 12 11 false none .f32), (0x78D29A25, .vstt 6 18 19 false (some 2) .bf16),
     (0x7CEF3006, .vstx 7 15 6 false none .f32), (0x810F3002, .vstxadd 8 15 6 false none .i32),
     (0x85108805, .vsttd 8 16 17 false none .bf16), (0x89308C0C, .vstc 9 16 17 true none .ch4),
     (0x8C2A6000, .vstcmp 1 10 12 false none .i8), (0x90611000, .vadd 3 1 2 none), (0x90A63C52, .vsubsu 5 6 7 (some 2)),
     (0x9441580A, .vsraVintx 2 1 11 none), (0x98611423, .vfdiv 3 1 2 (some 1)), (0x98410008, .vfsqrt 2 1 none),
     (0x9C416002, .vfmulVfpx 2 1 12 none), (0xA08110E2, .vfma 4 1 2 3 (some 2)), (0xAD0531C0, .vfnms 8 5 6 7 none),
     (0xB0811012, .vcmpFp 4 1 2 none .lt), (0xB4A34809, .vcmpxInt 5 3 9 none .geu), (0xB8824003, .vcvtSat 4 2 .e4m3 none),
     (0xB8412801, .vcvtSr 2 1 .bf16 none), (0xB8615005, .vcvtF4sr 3 1 none), (0xBCA10460, .vmov 5 1 (some 3)),
     (0xBCC66801, .vbcast 6 .f32 13 none), (0xBCE11482, .vsel 7 1 2 4), (0xBC415803, .vslide 2 1 11 none),
     (0xBC611004, .vperm 3 1 2 none), (0xBC810445, .vscansum 4 1 (some 2)), (0xBD011006, .vreint 8 1 .i32 none),
     (0xBC600007, .vrand 3 none), (0xBC800428, .vrandf 4 (some 1)), (0xC0400001, .vidx 2 0 1), (0xC07FFFFF, .vidx 3 (-1) (-1)),
     (0xC4611000, .pand 3 1 2), (0xC4811003, .pandn 4 1 2), (0xC4A10004, .pnot 5 1), (0xC4C00005, .pset 6), (0xC4E00006, .pclr 7),
     (0xC5010007, .pmov 8 1), (0xC9410000, .vredsum 10 1 none false), (0xC9410450, .vredsum 10 1 (some 2) true),
     (0xC9610001, .vredsumt 11 1 none false), (0xC9C20004, .vredmaxu 14 2 none false), (0xC8A40009, .vredrow 5 4 none false),
     (0xC8C4001A, .vredrowmax 6 4 none true), (0xC983000B, .vffs 12 3 none false), (0xC9A3043C, .vpop 13 3 (some 1) true)].all
      (fun p => reads p.1 p.2) = true := by
  decide +kernel

theorem test_example_words_engines :
    [(0xCD4B6000, .mma 10 11 12), (0xCD406001, .mzero 10 12), (0xCDAE0002, .msync 13 14), (0xCC0F0003, .mtarget 15),
     (0xCC108804, .mshape 16 17), (0xCD4B6005, .mslot 10 11 12), (0xD5440000, .xcopy 10 4), (0xD5650001, .xwait 11 5),
     (0xD5850002, .xpoll 12 5), (0xD40A0003, .xcancel 10), (0xD8050000, .tdinv 5), (0xD8000001, .tdinvall),
     (0xD0001800, .barArrive 3), (0xD0001802, .barTest 3), (0xD0001001, .barWait 2)].all (fun p => reads p.1 p.2) = true := by
  decide +kernel

/-- R23 to R29: member 0 of SYS, majors that are reserved, a register field that must be zero; members that are not listed; an LDA with a
release or a second register; a reserved type, form or Q of VLD, and a segment past v31; a VSTC of a plain type; MTS of VL and MFS of 0x012;
a mask register without ME; a size of a pointer that STRIP does not have, and a pointer past s31. -/
theorem test_words_that_are_none :
    [0x00000000, 0xDC000000, 0xF8000000, 0xFC000000, 0x00200001, 0x1000001A, 0x14000007, 0x1C00C000, 0x24020000, 0x2C00E000,
     0x30008000, 0x34180000, 0x44000590, 0x44000D80, 0x5800000D, 0x58005800, 0x58000400, 0x5BCA1801, 0x88000006, 0x0C000000,
     0x08000012, 0x90000020, 0xC800000D, 0xD0000007, 0xD0002000, 0xD4000004, 0xD8000002, 0x50000008, 0x5000FA00].all readsNone = true := by
  decide +kernel
/-! ### A word for every constructor: the fixed bits of the opcode table and operands of mixed values -/

theorem test_words_sys :
    [(0x00000001, .nop),
     (0x00000002, .rte),
     (0x00000003, .wait),
     (0x00000004, .exit),
     (0x00000005, .brk),
     (0x00000006, .force),
     (0x00000007, .convoy),
     (0x00000008, .vsync),
     (0x01400009, .vdrop 10),
     (0x014B000A, .launch 10 11),
     (0x000B600B, .tlbi 11 12),
     (0x000B600C, .cachewb 11 12),
     (0x0000000D, .ifence)].all (fun p => reads p.1 p.2) = true := by
  decide +kernel

theorem test_words_trap :
    [(0x04008005, .trap 32773)].all (fun p => reads p.1 p.2) = true := by
  decide +kernel

theorem test_words_mfs :
    [(0x09400005, .mfs 10 5),
     (0x0C0B0005, .mts 11 5)].all (fun p => reads p.1 p.2) = true := by
  decide +kernel

theorem test_words_alu :
    [(0x114B6000, .add 10 11 12),
     (0x114B6001, .sub 10 11 12),
     (0x114B6002, .and 10 11 12),
     (0x114B6003, .or 10 11 12),
     (0x114B6004, .xor 10 11 12),
     (0x114B6005, .andn 10 11 12),
     (0x114B6006, .sll 10 11 12),
     (0x114B6007, .srl 10 11 12),
     (0x114B6008, .sra 10 11 12),
     (0x114B6009, .ror 10 11 12),
     (0x114B600A, .slt 10 11 12),
     (0x114B600B, .sltu 10 11 12),
     (0x114B600C, .min 10 11 12),
     (0x114B600D, .max 10 11 12),
     (0x114B600E, .minu 10 11 12),
     (0x114B600F, .maxu 10 11 12),
     (0x114B0010, .clz 10 11),
     (0x114B0011, .ctz 10 11),
     (0x114B0012, .popc 10 11),
     (0x114B0013, .sextb 10 11),
     (0x114B0014, .sexth 10 11),
     (0x114B0015, .sextw 10 11),
     (0x114B0016, .zextb 10 11),
     (0x114B0017, .zexth 10 11),
     (0x114B0018, .zextw 10 11),
     (0x114B0019, .bswap 10 11)].all (fun p => reads p.1 p.2) = true := by
  decide +kernel

theorem test_words_muldiv :
    [(0x154B6000, .mul 10 11 12),
     (0x154B6001, .mulh 10 11 12),
     (0x154B6002, .mulhu 10 11 12),
     (0x154B6003, .div 10 11 12),
     (0x154B6004, .divu 10 11 12),
     (0x154B6005, .rem 10 11 12),
     (0x154B6006, .remu 10 11 12)].all (fun p => reads p.1 p.2) = true := by
  decide +kernel

theorem test_words_imm :
    [(0x194B8005, .addi 10 11 32773),
     (0x1D4B2005, .andi 10 11 8197),
     (0x1D4B6005, .ori 10 11 8197),
     (0x1D4BA005, .xori 10 11 8197),
     (0x214B0025, .slli 10 11 37),
     (0x214B0065, .srli 10 11 37),
     (0x214B00A5, .srai 10 11 37),
     (0x214B00E5, .rori 10 11 37),
     (0x25488005, .ldz 10 1 32773),
     (0x25498005, .ldk 10 1 32773),
     (0x294B2005, .slti 10 11 8197),
     (0x294B6005, .sltiu 10 11 8197)].all (fun p => reads p.1 p.2) = true := by
  decide +kernel

theorem test_words_ld :
    [(0x2D4B1005, .ldb 10 11 4101),
     (0x2D4B3005, .ldbu 10 11 4101),
     (0x2D4B5005, .ldh 10 11 4101),
     (0x2D4B7005, .ldhu 10 11 4101),
     (0x2D4B9005, .ldw 10 11 4101),
     (0x2D4BB005, .ldwu 10 11 4101),
     (0x2D4BD005, .ldd 10 11 4101)].all (fun p => reads p.1 p.2) = true := by
  decide +kernel

theorem test_words_st :
    [(0x314B1005, .stb 10 11 4101),
     (0x314B3005, .sth 10 11 4101),
     (0x314B5005, .stw 10 11 4101),
     (0x314B7005, .std 10 11 4101)].all (fun p => reads p.1 p.2) = true := by
  decide +kernel

theorem test_words_bz :
    [(0x35620005, .beqz 11 131077),
     (0x35660005, .bnez 11 131077),
     (0x356A0005, .bltz 11 131077),
     (0x356E0005, .bgez 11 131077),
     (0x35720005, .bgtz 11 131077),
     (0x35760005, .blez 11 131077)].all (fun p => reads p.1 p.2) = true := by
  decide +kernel

theorem test_words_br2 :
    [(0x396C1005, .beq 11 12 4101),
     (0x396C3005, .bne 11 12 4101),
     (0x396C5005, .blt 11 12 4101),
     (0x396C7005, .bge 11 12 4101),
     (0x396C9005, .bltu 11 12 4101),
     (0x396CB005, .bgeu 11 12 4101)].all (fun p => reads p.1 p.2) = true := by
  decide +kernel

theorem test_words_j :
    [(0x3D000005, .b 16777221),
     (0x3F000005, .bl 16777221),
     (0x400B0000, .jr 11),
     (0x414B0001, .jlr 10 11)].all (fun p => reads p.1 p.2) = true := by
  decide +kernel

theorem test_words_atom :
    [(0x454B605C, .amoswap 10 11 12 .dev .acqrel .d),
     (0x454B60DC, .amoadd 10 11 12 .dev .acqrel .d),
     (0x454B615C, .amoand 10 11 12 .dev .acqrel .d),
     (0x454B61DC, .amoor 10 11 12 .dev .acqrel .d),
     (0x454B625C, .amoxor 10 11 12 .dev .acqrel .d),
     (0x454B62DC, .amomin 10 11 12 .dev .acqrel .d),
     (0x454B635C, .amomax 10 11 12 .dev .acqrel .d),
     (0x454B63DC, .amominu 10 11 12 .dev .acqrel .d),
     (0x454B645C, .amomaxu 10 11 12 .dev .acqrel .d),
     (0x454B64DC, .amocas 10 11 12 .dev .acqrel .d),
     (0x454B655C, .amofadd 10 11 12 .dev .acqrel .d),
     (0x454B05CC, .lda 10 11 .dev .acq .d),
     (0x440B6654, .stl 11 12 .dev .rel .d)].all (fun p => reads p.1 p.2) = true := by
  decide +kernel

theorem test_words_sfp :
    [(0x494B6400, .fadd 10 11 12 .d),
     (0x494B6401, .fsub 10 11 12 .d),
     (0x494B6402, .fmul 10 11 12 .d),
     (0x494B6403, .fdiv 10 11 12 .d),
     (0x494B0404, .fsqrt 10 11 .d),
     (0x494B6405, .fmin 10 11 12 .d),
     (0x494B6406, .fmax 10 11 12 .d),
     (0x494B6407, .feq 10 11 12 .d),
     (0x494B6408, .flt 10 11 12 .d),
     (0x494B6409, .fle 10 11 12 .d),
     (0x494B042A, .fcvti 10 11 .d true),
     (0x494B042B, .fcvtf 10 11 .d true),
     (0x494B040C, .fcvtp 10 11 .d),
     (0x494B040D, .fabs 10 11 .d),
     (0x494B040E, .fneg 10 11 .d),
     (0x494B040F, .fclass 10 11 .d),
     (0x4D4B6400, .fmac 10 11 12 .d),
     (0x4D4B6401, .fnmac 10 11 12 .d)].all (fun p => reads p.1 p.2) = true := by
  decide +kernel

theorem test_words_strip :
    [(0x514B6214, .strip 10 11 12 1 10),
     (0x554B0000, .setvl 10 11),
     (0x554B0001, .setrows 10 11)].all (fun p => reads p.1 p.2) = true := by
  decide +kernel

theorem test_words_vload :
    [(0x594B0256, .vld 10 11 (some 5) .f32),
     (0x594B0A56, .vldFf 10 11 (some 5) .f32),
     (0x594B1A56, .vldSeg 10 11 3 (some 5) .f32),
     (0x594B4A56, .vldRow 10 11 (some 5) .f32),
     (0x594B5256, .vldCol 10 11 (some 5) .f32),
     (0x5D4B6256, .vlds 10 11 12 (some 5) .f32),
     (0x614B6256, .vldt 10 11 12 (some 5) .f32),
     (0x654B6256, .vldx 10 11 12 (some 5) .f32),
     (0x694B6256, .vldtd 10 11 12 (some 5) .f32),
     (0x6D4B6256, .vldz 10 11 12 (some 5) .f32)].all (fun p => reads p.1 p.2) = true := by
  decide +kernel

theorem test_words_vstore :
    [(0x714B0656, .vst 10 11 true (some 5) .f32),
     (0x714B1E56, .vstSeg 10 11 3 true (some 5) .f32),
     (0x754B6656, .vsts 10 11 12 true (some 5) .f32),
     (0x794B6656, .vstt 10 11 12 true (some 5) .f32),
     (0x7D4B6656, .vstx 10 11 12 true (some 5) .f32),
     (0x814B6656, .vstxadd 10 11 12 true (some 5) .f32),
     (0x854B6656, .vsttd 10 11 12 true (some 5) .f32),
     (0x894B665C, .vstc 10 11 12 true (some 5) .ch4),
     (0x8D4B6656, .vstcmp 10 11 12 true (some 5) .f32)].all (fun p => reads p.1 p.2) = true := by
  decide +kernel

theorem test_words_vint :
    [(0x914B64A0, .vadd 10 11 12 (some 5)),
     (0x914B64A1, .vsub 10 11 12 (some 5)),
     (0x914B64A2, .vmul 10 11 12 (some 5)),
     (0x914B64A3, .vmulh 10 11 12 (some 5)),
     (0x914B64A4, .vmulhu 10 11 12 (some 5)),
     (0x914B64A5, .vand 10 11 12 (some 5)),
     (0x914B64A6, .vor 10 11 12 (some 5)),
     (0x914B64A7, .vxor 10 11 12 (some 5)),
     (0x914B64A8, .vsll 10 11 12 (some 5)),
     (0x914B64A9, .vsrl 10 11 12 (some 5)),
     (0x914B64AA, .vsra 10 11 12 (some 5)),
     (0x914B64AB, .vmin 10 11 12 (some 5)),
     (0x914B64AC, .vmax 10 11 12 (some 5)),
     (0x914B64AD, .vminu 10 11 12 (some 5)),
     (0x914B64AE, .vmaxu 10 11 12 (some 5)),
     (0x914B64AF, .vadds 10 11 12 (some 5)),
     (0x914B64B0, .vaddsu 10 11 12 (some 5)),
     (0x914B64B1, .vsubs 10 11 12 (some 5)),
     (0x914B64B2, .vsubsu 10 11 12 (some 5)),
     (0x914B04B3, .vabs 10 11 (some 5)),
     (0x914B04B4, .vneg 10 11 (some 5)),
     (0x914B04B5, .vnot 10 11 (some 5)),
     (0x914B04B6, .vpopc 10 11 (some 5)),
     (0x914B04B7, .vclz 10 11 (some 5))].all (fun p => reads p.1 p.2) = true := by
  decide +kernel

theorem test_words_vintx :
    [(0x954B64A0, .vaddVintx 10 11 12 (some 5)),
     (0x954B64A1, .vsubVintx 10 11 12 (some 5)),
     (0x954B64A2, .vmulVintx 10 11 12 (some 5)),
     (0x954B64A3, .vmulhVintx 10 11 12 (some 5)),
     (0x954B64A4, .vmulhuVintx 10 11 12 (some 5)),
     (0x954B64A5, .vandVintx 10 11 12 (some 5)),
     (0x954B64A6, .vorVintx 10 11 12 (some 5)),
     (0x954B64A7, .vxorVintx 10 11 12 (some 5)),
     (0x954B64A8, .vsllVintx 10 11 12 (some 5)),
     (0x954B64A9, .vsrlVintx 10 11 12 (some 5)),
     (0x954B64AA, .vsraVintx 10 11 12 (some 5)),
     (0x954B64AB, .vminVintx 10 11 12 (some 5)),
     (0x954B64AC, .vmaxVintx 10 11 12 (some 5)),
     (0x954B64AD, .vminuVintx 10 11 12 (some 5)),
     (0x954B64AE, .vmaxuVintx 10 11 12 (some 5)),
     (0x954B64AF, .vaddsVintx 10 11 12 (some 5)),
     (0x954B64B0, .vaddsuVintx 10 11 12 (some 5)),
     (0x954B64B1, .vsubsVintx 10 11 12 (some 5)),
     (0x954B64B2, .vsubsuVintx 10 11 12 (some 5))].all (fun p => reads p.1 p.2) = true := by
  decide +kernel

theorem test_words_vfp :
    [(0x994B64A0, .vfadd 10 11 12 (some 5)),
     (0x994B64A1, .vfsub 10 11 12 (some 5)),
     (0x994B64A2, .vfmul 10 11 12 (some 5)),
     (0x994B64A3, .vfdiv 10 11 12 (some 5)),
     (0x994B64A4, .vfmin 10 11 12 (some 5)),
     (0x994B64A5, .vfmax 10 11 12 (some 5)),
     (0x994B04A6, .vfabs 10 11 (some 5)),
     (0x994B04A7, .vfneg 10 11 (some 5)),
     (0x994B04A8, .vfsqrt 10 11 (some 5)),
     (0x994B04A9, .vfrcp 10 11 (some 5)),
     (0x994B04AA, .vfrsq 10 11 (some 5)),
     (0x994B04AB, .vfexp2 10 11 (some 5)),
     (0x994B04AC, .vflog2 10 11 (some 5)),
     (0x994B64AD, .vfsgnj 10 11 12 (some 5)),
     (0x994B04AE, .vfrint 10 11 (some 5)),
     (0x9D4B64A0, .vfaddVfpx 10 11 12 (some 5)),
     (0x9D4B64A1, .vfsubVfpx 10 11 12 (some 5)),
     (0x9D4B64A2, .vfmulVfpx 10 11 12 (some 5)),
     (0x9D4B64A3, .vfdivVfpx 10 11 12 (some 5)),
     (0x9D4B64A4, .vfminVfpx 10 11 12 (some 5)),
     (0x9D4B64A5, .vfmaxVfpx 10 11 12 (some 5)),
     (0x9D4B64AD, .vfsgnjVfpx 10 11 12 (some 5))].all (fun p => reads p.1 p.2) = true := by
  decide +kernel

theorem test_words_fma_cmp :
    [(0xA14B6365, .vfma 10 11 12 13 (some 5)),
     (0xA54B6365, .vfms 10 11 12 13 (some 5)),
     (0xA94B6365, .vfnma 10 11 12 13 (some 5)),
     (0xAD4B6365, .vfnms 10 11 12 13 (some 5)),
     (0xB14B64A6, .vcmpInt 10 11 12 (some 5) .ltu),
     (0xB14B64B6, .vcmpFp 10 11 12 (some 5) .un),
     (0xB54B64A6, .vcmpxInt 10 11 12 (some 5) .ltu),
     (0xB54B64B6, .vcmpxFp 10 11 12 (some 5) .un)].all (fun p => reads p.1 p.2) = true := by
  decide +kernel

theorem test_words_cvt_move :
    [(0xB94B34A0, .vcvtRnd 10 11 .f32 (some 5)),
     (0xB94B34A1, .vcvtSr 10 11 .f32 (some 5)),
     (0xB94B34A2, .vcvtRtz 10 11 .f32 (some 5)),
     (0xB94B34A3, .vcvtSat 10 11 .f32 (some 5)),
     (0xB94B54A4, .vcvtF4 10 11 (some 5)),
     (0xB94B54A5, .vcvtF4sr 10 11 (some 5)),
     (0xBD4B04A0, .vmov 10 11 (some 5)),
     (0xBD4664A1, .vbcast 10 .f32 12 (some 5)),
     (0xBD4B64A2, .vsel 10 11 12 5),
     (0xBD4B64A3, .vslide 10 11 12 (some 5)),
     (0xBD4B64A4, .vperm 10 11 12 (some 5)),
     (0xBD4B04A5, .vscansum 10 11 (some 5)),
     (0xBD4B34A6, .vreint 10 11 .f32 (some 5)),
     (0xBD4004A7, .vrand 10 (some 5)),
     (0xBD4004A8, .vrandf 10 (some 5))].all (fun p => reads p.1 p.2) = true := by
  decide +kernel

theorem test_words_idx_pred :
    [(0xC15FFBFD, .vidx 10 2046 1021),
     (0xC54B6000, .pand 10 11 12),
     (0xC54B6001, .por 10 11 12),
     (0xC54B6002, .pxor 10 11 12),
     (0xC54B6003, .pandn 10 11 12),
     (0xC54B0004, .pnot 10 11),
     (0xC5400005, .pset 10),
     (0xC5400006, .pclr 10),
     (0xC54B0007, .pmov 10 11)].all (fun p => reads p.1 p.2) = true := by
  decide +kernel

theorem test_words_vred :
    [(0xC94B04B0, .vredsum 10 11 (some 5) true),
     (0xC94B04B1, .vredsumt 10 11 (some 5) true),
     (0xC94B04B2, .vredmax 10 11 (some 5) true),
     (0xC94B04B3, .vredmin 10 11 (some 5) true),
     (0xC94B04B4, .vredmaxu 10 11 (some 5) true),
     (0xC94B04B5, .vredminu 10 11 (some 5) true),
     (0xC94B04B6, .vredand 10 11 (some 5) true),
     (0xC94B04B7, .vredor 10 11 (some 5) true),
     (0xC94B04B8, .vredxor 10 11 (some 5) true),
     (0xC94B04B9, .vredrow 10 11 (some 5) true),
     (0xC94B04BA, .vredrowmax 10 11 (some 5) true),
     (0xC94B04BB, .vffs 10 11 (some 5) true),
     (0xC94B04BC, .vpop 10 11 (some 5) true)].all (fun p => reads p.1 p.2) = true := by
  decide +kernel

theorem test_words_matrix_sync :
    [(0xCD4B6000, .mma 10 11 12),
     (0xCD406001, .mzero 10 12),
     (0xCD4B0002, .msync 10 11),
     (0xCC0B0003, .mtarget 11),
     (0xCC0B6004, .mshape 11 12),
     (0xCD4B6005, .mslot 10 11 12),
     (0xD0001800, .barArrive 3),
     (0xD0001801, .barWait 3),
     (0xD0001802, .barTest 3),
     (0xD0000003, .fenceC),
     (0xD0000004, .fenceK),
     (0xD0000005, .fenceD),
     (0xD0000006, .fenceS),
     (0xD54B0000, .xcopy 10 11),
     (0xD54B0001, .xwait 10 11),
     (0xD54B0002, .xpoll 10 11),
     (0xD40B0003, .xcancel 11),
     (0xD80B0000, .tdinv 11),
     (0xD8000001, .tdinvall)].all (fun p => reads p.1 p.2) = true := by
  decide +kernel

/-- Words of no instruction: no major opcode, a reserved field of NOP that is not zero, the emulation major. -/
theorem test_no_instruction : readsNone 0x00000000 = true ∧ readsNone 0x00200001 = true ∧ readsNone 0xFC000000 = true := by decide +kernel

end Sys2Proof

namespace Sys2Proof.Machine

set_option Elab.async false

/-! ### States for the tests -/

/-- A strand of span 8 in a mode, with context 0 active; nothing is mapped. -/
def tBase (m : Mode) : State :=
  { State.reset with
    st := { loadStrand false with mode := m }
    sys := { Sys.fresh with ctxs := [loadCtx] }
    toll := { Toll.fresh with booted := true, ready := true } }

/-- The same on an MCC slot. -/
def tMcc (m : Mode) : State := { tBase m with st := { loadStrand true with mode := m } }

/-- With scalar registers set. -/
def tRegs (s : State) (l : List (Reg × Word)) : State := { s with st := l.foldl (fun t p => t.set p.1 p.2) s.st }

/-- With the first 16 GiB mapped one to one, as `loadCtx` does. -/
def tMapped (m : Mode) : State := (tBase m).devWrite 0 0x1000000 (leBytes 8 loadLeaf)

/-- An address of the strand's own core. -/
def tWin (off : Nat) : Word := wd (0x7FFF0000000000 + off)

/-- With a leaf in the translation cache of the strand, of page 0. -/
def tCached (m : Mode) (leaf : Nat) : State :=
  (tBase m).modMem fun x => { x with tlbs := [(0, [⟨0, false, 0, 34, wd leaf⟩])] }

/-- With passes. -/
def tPasses (s : State) (l : List Pass) : State := { s with st := { s.st with passes := l } }

/-- A pass with no waypoints. -/
def tPass (st : PassSt) (sinks : List Sink) : Pass := { (default : Pass) with st := st, sinks := sinks, vl := 4, vrows := 1 }

/-- A scalar reduction to s5. -/
def tRed : Sink := { (default : Sink) with op := .red 0 5 }

/-- What a result is, when only its first part is said. -/
theorem first_part {α β : Type} {p : α × β} {a : α} (h : p.1 = a) : ∃ t, p = (a, t) := ⟨p.2, by rw [← h]⟩

/-- What waits, when only that is said. -/
theorem wait_part {α : Type} {p : Except Stop α × State} (h : (match p.1 with | .error .wait => true | _ => false) = true) :
    ∃ t, p = (.error .wait, t) := by
  obtain ⟨r, t⟩ := p
  rcases r with (_ | _) | _
  all_goals first | exact ⟨t, rfl⟩ | cases h

/-- What a computation answers, when it is only said that it does. -/
theorem ok_part {α : Type} {p : Except Stop α × State}
    (h : (match p.1 with | .ok _ => true | .error _ => false) = true) : ∃ x t, p = (.ok x, t) := by
  obtain ⟨r, t⟩ := p
  cases r with
  | ok x => exact ⟨x, t, rfl⟩
  | error e => exact absurd h (by simp)

/-- What traps, when only the cause is said. -/
theorem trap_part {α : Type} {p : Except Stop α × State} {c d : Nat} {v : Word}
    (h : (match p.1 with | .error (.trap c' d' v') => decide (c' = c ∧ d' = d ∧ v' = v) | _ => false) = true) :
    ∃ t, p = (.error (.trap c d v), t) := by
  obtain ⟨r, t⟩ := p
  cases r with
  | ok x => exact absurd h (by simp)
  | error e =>
    cases e with
    | wait => exact absurd h (by simp)
    | trap a b w => simp only [decide_eq_true_eq] at h; obtain ⟨rfl, rfl, rfl⟩ := h; exact ⟨t, rfl⟩

/-- The value that a step of the machine gives a register, 0 when it gives no next state. -/
def afterReg (o : Host.Outcome State Fault Refusal) (r : Reg) : Word :=
  match o with
  | .next s => s.reg r
  | _ => 0

/-! ### Registers, branches, floating point -/

theorem test_hyps_registers :
    (tBase .u).ready [1, 2, 3] ∧ (tBase .u).ready [0, 0, 0] ∧ (tBase .s).ready (List.finRange 32) := by
  refine ⟨?_, ?_, ?_⟩ <;> unfold State.ready <;> decide +kernel

theorem test_hyps_RoundingIsCorrect :
    fmtF64 ∈ allFormats ∧ fmtE2m1 ∈ allFormats ∧ (FVal.num false 3 (-1) false).near (3 / 2) ∧
    (FVal.num true (2 ^ 64) 0 true).near (-(2 ^ 64 + 1 / 2)) := by
  refine ⟨by decide, by decide, ?_, ?_⟩
  · norm_num [FVal.near, FVal.real]
  · simp only [FVal.near, if_true]
    rw [abs_of_neg (by norm_num)]
    norm_num

/-- Both cases of the statement, without overflow and with it, at the edges of the two narrow formats as well. -/
theorem test_hyps_RoundingIsCorrect_cases :
    (roundF fmtF64 .rne false (.num false 3 (-1) false)).2 &&& flOF = 0 ∧
    (roundF fmtF64 .rne false (.num false 1 1024 false)).2 &&& flOF ≠ 0 ∧
    (roundF fmtE4m3 .rup true (.num false 465 0 false)).2 &&& flOF ≠ 0 ∧ (roundF fmtE4m3 .rne false (.num false 464 0 false)).2 &&& flOF = 0 ∧
    (roundF fmtE2m1 .rdn false (.num false 7 0 false)).2 &&& flOF = 0 ∧ (roundF fmtE2m1 .rne false (.num true 7 0 false)).2 &&& flOF ≠ 0 := by
  decide +kernel

/-- 1.0 in s1 and s2, 0.5 in s3, the quiet NaN in s4, a signalling one in s5, +infinity in s6, -infinity in s7, -1.0 in s8; in f32
+infinity in s9 and a signalling NaN in s10. -/
def tFloats : State :=
  tRegs (tBase .u) [(1, 0x3FF0000000000000), (2, 0x3FF0000000000000), (3, 0x3FE0000000000000), (4, 0x7FF8000000000000),
    (5, 0x7FF0000000000001), (6, 0x7FF0000000000000), (7, 0xFFF0000000000000), (8, 0xBFF0000000000000), (9, 0x7F800000), (10, 0x7F800001)]

theorem tFloats_one : tFloats.fpVal .d 1 = .num false (2 ^ 52) (-52) false := by decide +kernel
theorem tFloats_half : tFloats.fpVal .d 3 = .num false (2 ^ 52) (-53) false := by decide +kernel
theorem tFloats_zero : tFloats.fpVal .d 0 = .num false 0 (-1074) false := by decide +kernel
theorem tFloats_minus : tFloats.fpVal .d 8 = .num true (2 ^ 52) (-52) false := by decide +kernel

theorem test_hyps_ScalarFpArithmetic :
    tFloats.ready [3, 1, 2] ∧ (tFloats.fpVal .d 1).finite ∧ (tFloats.fpVal .d 3).finite ∧ (tFloats.fpVal .d 3).real ≠ 0 ∧
    0 ≤ (tFloats.fpVal .d 1).real ∧ (tFloats.fpVal .s 1).finite := by
  refine ⟨?_, ?_, ?_, ?_, ?_, ?_⟩
  · unfold State.ready; decide +kernel
  · rw [tFloats_one]; rfl
  · rw [tFloats_half]; rfl
  · rw [tFloats_half]; norm_num [FVal.real]
  · rw [tFloats_one]; norm_num [FVal.real]
  · have : tFloats.fpVal .s 1 = .num false 0 (-149) false := by decide +kernel
    rw [this]; rfl

/-- An infinity beside a finite value, beside an infinity of its sign, and as the addend; in each precision. -/
theorem test_hyps_ScalarFp_infinities :
    tFloats.ready [1, 6, 3] ∧ (tFloats.fpVal .d 6).isInf = true ∧ (tFloats.fpVal .d 6).neg = false ∧ (tFloats.fpVal .s 9).isInf = true ∧
    (tFloats.fpVal .d 7).isInf = true ∧ (tFloats.fpVal .d 7).neg = !(tFloats.fpVal .d 6).neg ∧ (tFloats.fpVal .d 1).finite ∧
    (tFloats.fpVal .d 1).real ≠ 0 := by
  rw [tFloats_one]
  and_intros <;> first | decide +kernel | rfl | (unfold State.ready; decide +kernel) | norm_num [FVal.real]

theorem test_hyps_ScalarFpCompareAndSpecial :
    (tFloats.fpVal .d 4).isNan = true ∧ (tFloats.fpVal .d 5).isSnan = true ∧ (tFloats.fpVal .d 6).isInf = true ∧
    (tFloats.fpVal .d 6).neg ≠ (tFloats.fpVal .d 7).neg ∧ (tFloats.fpVal .d 7).isInf = true ∧ (tFloats.fpVal .d 7).neg = true ∧
    (tFloats.fpVal .s 10).isSnan = true ∧
    (tFloats.fpVal .d 0).finite ∧ (tFloats.fpVal .d 0).real = 0 ∧ (tFloats.fpVal .d 1).real ≠ 0 ∧ (tFloats.fpVal .d 8).real < 0 := by
  rw [tFloats_zero, tFloats_one, tFloats_minus]
  and_intros <;> first | decide +kernel | rfl | norm_num [FVal.real]

/-! ### Translation and memory -/

/-- Each way to be refused at its first or last offset, and the offsets beside them. -/
theorem test_hyps_WindowDecoding :
    (tBase .u).st.cluster < 12 ∧ (31 : Nat) < 32 ∧ 2 ^ 24 - 1 < 2 ^ 24 ∧
    (translate (tBase .u).who .load (tWin 0x3FFFFF) 1 (tBase .u)).1 = .ok (.win 0x3FFFFF) ∧
    (translate (tBase .u).who .load (tWin 0x400000) 1 (tBase .u)).1 = .error (.trap 0x1C 0 (tWin 0x400000)) ∧
    (translate (tBase .u).who .load (tWin 0x7FFFFF) 1 (tBase .u)).1 = .error (.trap 0x1C 0 (tWin 0x7FFFFF)) ∧
    (translate (tBase .u).who .load (tWin 0x800000) 2 (tBase .u)).1 = .error (.trap 0x1C 0 (tWin 0x800000)) ∧
    (translate (tBase .u).who .load (tWin 0x800000) 4 (tBase .u)).1 = .ok (.win 0x800000) ∧
    (translate (tBase .u).who .fetch (tWin 0) 4 (tBase .u)).1 = .error (.trap 0x1C 0 (tWin 0)) ∧
    (translate (tBase .u).who .load (tWin (31 * 2 ^ 24)) 8 (tBase .u)).1 = .ok (.win 0) ∧
    (translate (tMcc .u).who .load (tWin (31 * 2 ^ 24)) 8 (tMcc .u)).1 = .error (.trap 0x1C 0 (tWin (31 * 2 ^ 24))) ∧
    (translate (tBase .u).who .load (tWin (23 * 2 ^ 24)) 8 (tBase .u)).1 = .ok (.win (23 * 2 ^ 24)) ∧
    (translate (tBase .u).who .load (tWin (24 * 2 ^ 24)) 8 (tBase .u)).1 = .error (.trap 0x1C 0 (tWin (24 * 2 ^ 24))) := by
  decide +kernel

/-! ### Results that the specification prints -/

/-- R121: after LDZ s12, #0x1234, 0, LDK s12, #0xBEEF, 3 leaves 0xBEEF_0000_0000_1234. -/
theorem test_ldz_ldk :
    afterReg (exec (.ldz 12 0 0x1234) (tBase .u)) 12 = 0x1234 ∧
    afterReg (exec (.ldk 12 3 0xBEEF) (tRegs (tBase .u) [(12, 0x1234)])) 12 = 0xBEEF000000001234 := by decide +kernel

/-- R119, Borderline division: the four rows of the table, for DIV, REM, DIVU and REMU. -/
theorem test_borderline_division :
    ([(5, 0, 0xFFFFFFFFFFFFFFFF, 5, 0xFFFFFFFFFFFFFFFF, 5),
      (0x8000000000000000, 0xFFFFFFFFFFFFFFFF, 0x8000000000000000, 0, 0, 0x8000000000000000),
      (7, 0xFFFFFFFFFFFFFFFE, 0xFFFFFFFFFFFFFFFD, 1, 0, 7),
      (0xFFFFFFFFFFFFFFF9, 2, 0xFFFFFFFFFFFFFFFD, 0xFFFFFFFFFFFFFFFF, 0x7FFFFFFFFFFFFFFC, 1)] :
      List (Word × Word × Word × Word × Word × Word)).all (fun r =>
        let s := tRegs (tBase .u) [(1, r.1), (2, r.2.1)]
        afterReg (exec (.div 3 1 2) s) 3 == r.2.2.1 && afterReg (exec (.rem 3 1 2) s) 3 == r.2.2.2.1 &&
        afterReg (exec (.divu 3 1 2) s) 3 == r.2.2.2.2.1 && afterReg (exec (.remu 3 1 2) s) 3 == r.2.2.2.2.2) = true := by
  decide +kernel

/-- One product, rounded once or twice (spec/07). -/
theorem test_one_product :
    (let s := tRegs (tBase .u) [(11, 0x3F800800), (12, 0x3F801000), (13, 0x3F801000), (10, 0xBF801000)]
     afterReg (exec (.fmul 13 11 11 .s) s) 13 = 0x3F801000 ∧ afterReg (exec (.fsub 14 13 12 .s) s) 14 = 0 ∧
     afterReg (exec (.fmac 10 11 11 .s) s) 10 = 0x33800000) := by decide +kernel

/-- The table A STRIP loop (R140): SETVL s0, s0 and the three STRIPs on a span of 32. -/
theorem test_strip_loop :
    (let t0 := tRegs (tBase .u) [(11, 300000), (20, 0), (21, 0)]
     let s0 : State := { t0 with st := { t0.st with span := .s32, lgs := 15 } }
     let at_ (s : State) (k : Nat) : Bool := s.st.sr.vl == k
     match exec (.setvl 0 0) s0 with
     | .next s1 =>
       match exec (.strip 13 11 20 1 6) s1 with
       | .next s2 =>
         match exec (.strip 13 11 20 1 6) s2 with
         | .next s3 =>
           match exec (.strip 13 11 20 1 6) s3 with
           | .next s4 =>
             at_ s1 0 && at_ s2 131072 && at_ s3 131072 && at_ s4 37856 && s2.reg 11 == 168928 && s3.reg 11 == 37856 && s4.reg 11 == 0 &&
             s2.reg 20 == 0 && s3.reg 20 == 0x80000 && s3.reg 21 == 0x40000 && s4.reg 20 == 0x100000 && s4.reg 13 == 37856
           | _ => false
         | _ => false
       | _ => false
     | _ => false) = true := by decide +kernel

/-- R189: the four words of a zero key and a zero counter. -/
theorem test_draw :
    (List.range 4).map (draw 0 0) = [0x6627E8D5, 0xE169C58D, 0xBC57AC4C, 0x9B00DBD8] := by decide +kernel

/-- Stochastic rounding of four f32 values to bf16 (R195). -/
theorem test_stochastic_rounding :
    ([(0x3F804000, 0x6627E8D5, 0x3F80), (0x3F80C000, 0xE169C58D, 0x3F80), (0xBF808000, 0xBC57AC4C, 0xBF80), (0x3F80C000, 0x9B00DBD8, 0x3F81)] :
      List (Nat × Nat × Nat)).all (fun r => cvtOp 1 .rne .f32 .bf16 r.2.1 r.1 == (r.2.2, flNX)) = true := by decide +kernel

/-- Conversions, worked (R207). -/
theorem test_conversions :
    cvtOp 0 .rne .f32 .i32 0 0xC0200000 = (0xFFFFFFFE, flNX) ∧ cvtOp 2 .rne .f32 .i32 0 0x501502F9 = (0x7FFFFFFF, flNV) ∧
    cvtOp 0 .rne .f32 .i32 0 0x7FC00000 = (0, flNV) ∧ cvtOp 0 .rne .f16 .e4m3 0 0x5FC0 = (0x7F, flOF ||| flNX) ∧
    cvtOp 3 .rne .f16 .e4m3 0 0x5FC0 = (0x7E, flOF ||| flNX) ∧ cvtOp 4 .rne .f32 .e2m1 0 0x40E00000 = (0b0111, flOF ||| flNX) ∧
    cvtOp 3 .rne .i16 .i8 0 0x0190 = (0x7F, flNone) ∧ cvtOp 0 .rne .i16 .i8 0 0x0190 = (0x90, flNone) ∧
    cvtOp 0 .rne .i16 .i32 0 0xFF85 = (0xFFFFFF85, flNone) := by decide +kernel

/-- R178: the CRC of "123456789", and that of the first header of the worked decodes. -/
theorem test_crc8 : crc8 [0x31, 0x32, 0x33, 0x34, 0x35, 0x36, 0x37, 0x38, 0x39] = 0xF4 ∧ headerCrc 0x208000F5 = 0xF5 := by decide +kernel

/-- Chanter decodes, worked (R179). -/
theorem test_chanter_decodes :
    ([(4, 0x208000F5, 0xD, 0, 0xC1C00000), (4, 0x208000F5, 0x7, 0, 0x42600000), (4, 0x60A000DD, 3, 0, 0x41C00000),
      (4, 0x60A000DD, 14, 0, 0xC0800000), (4, 0x60A000DD, 4, 0, 0x80000000), (8, 0x9E000085, 0xC4, 0, 0xBCC00000),
      (4, 0xDFC0059E, 9, 0x3F40, 0x3F400000)] : List (Nat × Nat × Nat × Nat × Nat)).all (fun r =>
        headerDetail r.2.1 6 == 0 && (roundF fmtF32 .rne false (chanterVal r.1 r.2.1 r.2.2.1 r.2.2.2.1)).1 == r.2.2.2.2) = true := by
  decide +kernel

/-- R88: the CRC of "123456789". -/
theorem test_crc64 :
    crc64 ([0x31, 0x32, 0x33, 0x34, 0x35, 0x36, 0x37, 0x38, 0x39]) = 0x6C40DF5F0B497347 := by decide +kernel

/-- The leaf that the statement's first hypothesis finds. -/
def tEntry (leaf : Nat) : TlbEntry := ⟨0, false, 0, 34, wd leaf⟩

/-- A canonical address outside the window whose leaf is cached: in local HBM below and at capacity, at a peer, allowed and denied;
a store through a leaf with D = 1; and an address that is not canonical. -/
theorem test_hyps_CachedTranslation :
    (wd 0x10008).toNat / 2 ^ 29 ≠ 0x7FFF0000000000 / 2 ^ 29 ∧
    (∀ i, 54 < i → i < 64 → (wd 0x10008).getLsbD i = (wd 0x10008).getLsbD 54) ∧
    (∃ i, 54 < i ∧ i < 64 ∧ (wd (2 ^ 55)).getLsbD i ≠ (wd (2 ^ 55)).getLsbD 54) ∧
    (let found (s : State) := (aget [] s.mem.tlbs s.who.tlb).find? fun e => (e.asid = s.who.asid ∨ e.glob) ∧ e.page = (wd 0x10008).toNat / 2 ^ e.bits
     found (tCached .s 0x18F) = some (tEntry 0x18F) ∧ found (tCached .u 0x18F) = some (tEntry 0x18F) ∧
     found (tCached .s (0x18F + 384 * 2 ^ 25)) = some (tEntry (0x18F + 384 * 2 ^ 25)) ∧
     found (tCached .s (0x18F + 2 ^ 47)) = some (tEntry (0x18F + 2 ^ 47))) ∧
    entryBit 0x18F 8 ∧ (0x18F + 2 ^ 47) / 2 ^ 46 % 4 = 2 ∧ 0x18F / 2 ^ 46 % 4 = 0 ∧
    (tCached .s 0x18F).capacity ≤ (0x18F + 384 * 2 ^ 25) / 2 ^ 10 % 2 ^ 36 * 2 ^ 16 ∧ (tCached .s 0x18F).fab.stalled = none ∧
    ¬ denied .store 0x18F 0 false ∧ denied .load 0x18F 0 true ∧ ¬ denied .load 0x19F 0 true ∧ denied .fetch 0x19F 0 false := by
  refine ⟨by decide, ?_, ⟨55, by decide⟩, by decide +kernel, ?_⟩
  · intro i h1 h2
    have h3 : ∀ k < 10, (wd 0x10008).getLsbD (54 + k) = (wd 0x10008).getLsbD 54 := by decide
    simpa [show 54 + (i - 54) = i by omega] using h3 (i - 54) (by omega)
  · unfold denied entryBit
    and_intros <;> decide +kernel

theorem test_hyps_FirstLevelWalk :
    (let s := tMapped .s
     let at_ := s.who.ptb + 8 * ((wd 0x10008).toNat / 2 ^ 34 % 2 ^ 21)
     let none_ := s.who.ptb + 8 * ((wd (2 ^ 54 - 1)).toNat / 2 ^ 34 % 2 ^ 21)
     (wd (2 ^ 54 - 1)).toNat < 2 ^ 54 ∧ aget [] s.mem.tlbs s.who.tlb = [] ∧ aget [] s.mem.walks s.who.cluster = [] ∧
     at_ < s.capacity ∧ none_ < s.capacity ∧ s.fab.stalled = none ∧ s.linePoison (at_ / 64) = false ∧ s.mem.wf = true ∧
     leNat (s.devRead 0 at_ 8) = 0x18F ∧ leNat (s.devRead 0 none_ 8) = 0) ∧
    ¬ entryBit 0 0 ∧ entryBit 0x18F 0 ∧ entryBit 0x18F 1 ∧ 0x18F / 2 ^ 46 % 2 ^ 14 = 0 ∧ 0x18F / 2 ^ 10 % 2 ^ 18 = 0 ∧
    0x18F / 2 ^ 10 % 2 ^ 36 * 2 ^ 16 + (wd 0x10008).toNat % 2 ^ 34 < (tMapped .s).capacity ∧ ¬ denied .store 0x18F 0 false := by
  refine ⟨by decide +kernel, ?_⟩
  unfold denied entryBit
  decide +kernel

/-- A line at 0x1000 with eight dirty bytes; a poisoned word at 8 of the strand's own core. -/
def tLine : State := (tMapped .s).cluWrite 0 0 0x1000 (leBytes 8 5)
def tPoisoned : State := (tBase .u).modMem fun m => { m with winPoison := [2] }

/-- A memory that is sound and has a cell, a cached line, and a store of a whole line. -/
theorem test_hyps_ReadAndStoreFrames :
    tLine.mem.sound ∧ (tMapped .s).mem.wf = true ∧ 0x1000 % 64 + 64 ≤ 64 ∧ 0x1038 % 64 + 8 ≤ 64 ∧
    (tLine.cache 0).length < Config.cacheLines ∧ (∀ m ∈ tLine.cache 0, m.tag = 0x1008 / 64 → m.dirtyAt (0x1008 % 64) = 0) ∧
    ∃ l ∈ tLine.cache 0, l.tag = 0x1000 / 64 ∧ l.dirtyAt (0x1000 % 64) ≠ 0 := by
  unfold Mem.sound
  and_intros <;> decide +kernel

/-- A walk that ends at a leaf, one that does not, a window address, one that is not canonical, a leaf that is held. -/
theorem test_hyps_ReadAndStoreFrames_walks :
    (tMapped .s).mem.sound ∧ (∃ x t, walk (tMapped .s).who .load 0x10000 (tMapped .s) = (.ok x, t)) ∧
    (∀ x u, walk (tBase .s).who .load 0x10000 (tBase .s) ≠ (.ok x, u)) ∧ isWindow (tWin 8) = true ∧ canonical (wd (2 ^ 55)) = false ∧
    (tCached .s 0x18F).holdsLeaf .store 0x10008 := by
  obtain ⟨t, ht⟩ : ∃ t, walk (tBase .s).who .load 0x10000 (tBase .s) = (.error (.trap 5 0 0x10000), t) := trap_part (by decide +kernel)
  unfold Mem.sound
  refine ⟨by decide +kernel, ok_part (by decide +kernel), ?_, by decide +kernel, by decide +kernel,
    ⟨tEntry 0x18F, by decide +kernel, fun _ => by unfold entryBit; decide +kernel⟩⟩
  intro x u h
  rw [ht] at h
  cases h

/-- A misaligned address, one that fails to translate for a load and for a store, one that is read, one that is poisoned. -/
theorem test_hyps_ScalarLoadsAndStores :
    (tBase .u).ready [1, 2] ∧ (tWin 7).toNat % 8 ≠ 0 ∧ (tWin 8).toNat % 8 = 0 ∧
    (∃ t, translate (tBase .u).who .load (wd (2 ^ 55)) 8 (tBase .u) = (.error (.trap 0x1D 0 (wd (2 ^ 55))), t)) ∧
    (∃ t, translate (tBase .u).who .load (tWin 8) 8 (tBase .u) = (.ok (.win 8), t)) ∧
    (∃ t, readLoc (tBase .u).who (tWin 8) (.win 8) 8 (tBase .u) = (.ok ([0, 0, 0, 0, 0, 0, 0, 0], false), t)) ∧
    (∃ t, readLoc (tPoisoned).who (tWin 8) (.win 8) 8 tPoisoned = (.ok ([0, 0, 0, 0, 0, 0, 0, 0], true), t)) ∧
    (∃ t, translate (tBase .u).who .store (wd (2 ^ 55)) 8 (tBase .u) = (.error (.trap 0x1D 0 (wd (2 ^ 55))), t)) ∧
    ∃ t, translate (tBase .u).who .store (tWin 8) 8 (tBase .u) = (.ok (.win 8), t) := by
  and_intros <;> first | decide +kernel | exact first_part (by decide +kernel) | (unfold State.ready; decide +kernel)

/-! ### Atomics -/

/-- With page 0 a host page. -/
def tHost : State := tCached .s (0x18F + 2 ^ 46)

/-- A dirty line at 0x1000, and that line in a stalled window. -/
def tDirty : State := tLine
def tHeldDirty : State := tDirty.modFab fun f => { f with stalled := some 0 }

/-- A write of the strand's own and one that another's release has covered: to a host page, and to a peer. -/
def tOwed : State := tDirty.modSys fun y => { y with owed := [⟨2, .host false, false, false⟩, ⟨4, .peer 7, true, false⟩] }

/-- A release that goes through at each scope, one that waits for a held write-back, one that waits for what is owed. -/
theorem test_hyps_releases :
    (∃ t, releasedBy tDirty .dev .acqrel t) ∧ (∃ t, releasedBy tDirty .sys .rel t) ∧
    tHeldDirty.holdsDirty 0 = true ∧ outer (scopeThere 0x1000 .dev) ∧ ¬ outer (scopeThere (tWin 8) .dev) ∧
    (∃ t, releaseAt 0 2 .dev tHeldDirty = (.error .wait, t)) ∧ tDirty.holdsDirty 0 = false ∧
    (∃ t, releaseAt 0 2 .sys tOwed = (.error .wait, t)) ∧ tOwed.who.owner = 2 := by
  simp only [releasedBy, outer, if_pos, or_true, true_or]
  unfold scopeThere
  and_intros <;> first | decide +kernel | exact wait_part (by decide +kernel) | exact first_part (by decide +kernel)

/-- A host page with and without an armed failure, a window location, a point that is read and one that is poisoned. -/
theorem test_hyps_AtomicReadModifyWrite :
    (tRegs (tBase .u) [(2, tWin 8)]).ready [1, 2, 3] ∧ ((tRegs (tBase .u) [(2, tWin 8)]).reg 2).toNat % 8 = 0 ∧
    ((tRegs (tBase .u) [(2, tWin 9)]).reg 2).toNat % 4 ≠ 0 ∧ (tBase .u).st.sr.determ = 0 ∧
    ((tBase .u).modSr fun r => { r with determ := 1 }).st.sr.determ ≠ 0 ∧
    (∃ t, translate tHost.who .atomic 0x10008 8 tHost = (.ok (.host 0x10008), t)) ∧
    .hostUnsupported ∉ tHost.sys.armed ∧
    .hostUnsupported ∈ (tHost.modSys fun y => { y with armed := [.hostUnsupported] }).sys.armed ∧
    (∃ t, translate (tBase .u).who .atomic (tWin 8) 8 (tBase .u) = (.ok (.win 8), t)) ∧
    (∃ t, translate (tBase .u).who .atomic (wd (2 ^ 55)) 8 (tBase .u) = (.error (.trap 0x1D 0 (wd (2 ^ 55))), t)) ∧
    (∃ t, pointRead (tBase .u).who .clu (tWin 8) (.win 8) 8 (tBase .u) = (.ok 0, t)) ∧
    (∃ t, pointRead tPoisoned.who .clu (tWin 8) (.win 8) 8 tPoisoned = (.error (.trap 0x13 0 (tWin 8)), t)) ∧
    (encode (.amofadd 1 2 3 .clu .rlx .w)).isSome = true := by
  and_intros <;> first | decide +kernel | exact first_part (by decide +kernel) | (unfold State.ready; decide +kernel)

/-- A dirty line and the bytes beside a write of two bytes in it; a line that a read leaves clean. -/
theorem test_hyps_LoadAcquireStoreRelease :
    (∃ t, translate (tBase .u).who .load (tWin 8) 8 (tBase .u) = (.ok (.win 8), t)) ∧
    (∃ t, pointRead (tBase .u).who .dev (tWin 8) (.win 8) 8 (tBase .u) = (.ok 0, t)) ∧
    (∃ t, translate (tBase .u).who .store (tWin 8) 8 (tBase .u) = (.ok (.win 8), t)) ∧
    tDirty.mem.sound ∧ (∃ l ∈ tDirty.cache 0, l.tag = 0x1000 / 64 ∧ l.dirtyAt 7 ≠ 0 ∧ 0x1000 + 2 ≤ l.tag * 64 + 7) ∧
    ∀ l ∈ (((tMapped .s).cluRead 0 0 0x1000 8).1).cache 0, l.dirty = 0 := by
  unfold Mem.sound
  and_intros <;> first | decide +kernel | exact first_part (by decide +kernel)

/-! ### State registers, privilege, returns -/

/-- Settled and unsettled, with and without passes, in both modes. -/
theorem test_hyps_StateRegisterReads :
    (tBase .s).unsettled = false ∧ (tBase .s).passesInFlight = false ∧ (tBase .s).st.mode = .s ∧
    (∀ k, (tBase .s).st.qerrSerial = some k → ∀ p ∈ (tBase .s).st.passes, p.serial = k → p.inFlight = false) ∧
    (tMcc .s).st.span = .ctrl := by decide +kernel

theorem test_hyps_StateRegisterWrites :
    (tBase .s).passesInFlight = false ∧ (tBase .s).st.mode = .s ∧ (tBase .s).st.span ≠ .ctrl := by decide +kernel

theorem test_hyps_PrivilegeTraps :
    (tBase .u).st.mode = .u ∧ (tMcc .u).st.span = .ctrl ∧ (tMcc .u).st.mode = .u ∧ 256 ≤ (0x100 : BitVec 11).toNat ∧
    encode (.mts 1 0x10F) = some 0x0C01010F ∧ encode .rte = some 2 := by decide +kernel

/-- With and without suspended passes. -/
theorem test_hyps_ReturnFromTrap :
    (tBase .s).st.mode = .s ∧ (tBase .s).st.sr.estatus.toNat / 2 % 2 = 0 ∧
    (let s := (tPasses (tBase .s) [tPass .suspended [], tPass .suspended []]).modSr fun r => { r with estatus := 7 }
     s.st.mode = .s ∧ s.st.sr.estatus.toNat / 2 % 2 = 1 ∧ s.st.passes[1]? = some (tPass .suspended [])) := by decide +kernel

theorem test_hyps_WaitAndTimeout :
    (tBase .u).st.waiting = false ∧
    (let s : State := { tBase .u with st := { (tBase .u).st with waiting := true } }
     s.st.woken = false ∧ s.interruptFor = none) ∧
    (let s : State := { tBase .u with st := { (tBase .u).st with waiting := true, woken := true } }
     s.st.waiting = true ∧ s.st.woken = true) := by decide +kernel

/-- A host leaf: of a context without ATS; with ATS, held, not asked for, asked for and not answered, refused, answered; over an insecure
link. -/
theorem test_hyps_CachedTranslation_host :
    (let leaf := 0x18F + 2 ^ 46
     (aget [] tHost.mem.tlbs tHost.who.tlb).find? (fun e => (e.asid = tHost.who.asid ∨ e.glob) ∧ e.page = (wd 0x10008).toNat / 2 ^ e.bits) =
       some (tEntry leaf) ∧
     leaf / 2 ^ 46 % 4 = 1 ∧ tHost.ctx? tHost.who.ctx = some loadCtx ∧ loadCtx.ats = false ∧ loadCtx.hfn ∉ tHost.host.insecure ∧
     leaf / 2 ^ 10 % 2 ^ 36 * 2 ^ 16 + (wd 0x10008).toNat % 2 ^ 34 = 0x10008 ∧ 0x10008 / 2 ^ 12 = 0x10) ∧
    loadCtx.hfn ∈ ({ tHost with host := { tHost.host with insecure := [false] } } : State).host.insecure ∧ 0 < tHost.st.sid ∧
    (let c := { loadCtx with ats := true }
     let s (pri : List Pri) : State := tHost.modSys fun y => { y with ctxs := [c], pri := pri }
     let ask (a : Option (Option Nat)) : Pri := ⟨0, 0, 0x10, a⟩
     let asked (l : List Pri) : Option Pri := (s l).sys.pri.find? fun p => p.asid = tHost.who.asid ∧ p.page = 0x10
     (s []).ctx? 0 = some c ∧ c.ats = true ∧ (s []).mem.atc.find? (fun e => e.1 = tHost.who.asid ∧ e.2.1 = 0x10) = none ∧
     ((s []).modMem fun m => { m with atc := [(0, 0x10, 0x77)] }).mem.atc.find? (fun e => e.1 = tHost.who.asid ∧ e.2.1 = 0x10) =
       some (0, 0x10, 0x77) ∧
     asked [] = none ∧ asked [ask none] = some (ask none) ∧ asked [ask (some none)] = some (ask (some none)) ∧
     asked [ask (some (some 0x99))] = some (ask (some (some 0x99)))) ∧
    ¬ denied .load (0x18F + 2 ^ 46) tHost.who.tenant tHost.who.user := by
  unfold denied entryBit
  and_intros <;> decide +kernel

/-- Of the address 0x10008 the first-level entry points at a table of the second level, whose entry is `e2`, and that of a pointer at one of
the third, whose entry is `e3`; of the last page of the address space the first-level entry is `top`. -/
def tDeep (e2 e3 top : Nat) : State :=
  let put (s : State) (a v : Nat) : State := s.devWrite 0 a (leBytes 8 v)
  put (put (put (put (tBase .s) 0x1000000 (0x2000000 + 1)) 0x2000000 e2) (0x3000000 + 8) e3) (0x1000000 + 8 * (2 ^ 21 - 1)) top

/-- Walks that end at the second level and at the third: at a leaf of local HBM, of the host and of a peer, at a pointer of the third level,
at a leaf whose frame is not aligned, at one that is not valid; one in the upper half. -/
theorem test_hyps_FirstLevelWalk_levels :
    let s := tDeep (0x3000000 + 1) 0x18F 0x18F
    let at1 := s.who.ptb + 8 * ((wd 0x10008).toNat / 2 ^ 34 % 2 ^ 21)
    let at2 := 0x2000000 + 8 * ((wd 0x10008).toNat / 2 ^ 25 % 2 ^ 9)
    let at3 := 0x3000000 + 8 * ((wd 0x10008).toNat / 2 ^ 16 % 2 ^ 9)
    let entry (s : State) (x : Nat) : Nat := leNat (s.devRead 0 x 8)
    (aget [] s.mem.tlbs s.who.tlb = [] ∧ aget [] s.mem.walks s.who.cluster = [] ∧ s.fab.stalled = none ∧ s.mem.wf = true) ∧
    (∀ x ∈ [at1, at2, at3, s.who.ptb + 8 * (2 ^ 21 - 1)], x < s.capacity ∧ s.linePoison (x / 64) = false) ∧
    (entry s at1 = 0x2000001 ∧ 0x2000001 / 2 % 2 ^ 11 = 0 ∧ 0x2000001 / 2 ^ 52 = 0 ∧ 0x2000001 / 2 ^ 12 % 2 ^ 40 * 2 ^ 12 = 0x2000000) ∧
    (entry s at2 = 0x3000001 ∧ entry s at3 = 0x18F ∧ 0x18F / 2 ^ 46 % 4 = 0 ∧
      0x18F / 2 ^ 10 % 2 ^ 36 * 2 ^ 16 + (wd 0x10008).toNat % 2 ^ 16 < s.capacity) ∧
    (entry (tDeep 0x18F 0 0) at2 = 0x18F ∧ entry (tDeep (0x18F + 2 ^ 46) 0 0) at2 = 0x18F + 2 ^ 46 ∧ (0x18F + 2 ^ 46) / 2 ^ 48 % 2 ^ 12 = 0 ∧
      (tDeep 0 0 0).ctx? (tDeep 0 0 0).who.ctx = some loadCtx ∧ loadCtx.hfn ∉ (tDeep 0 0 0).host.insecure ∧ loadCtx.ats = false) ∧
    (entry (tDeep (0x18F + 2 ^ 47 + 7 * 2 ^ 48) 0 0) at2 = 0x18F + 2 ^ 47 + 7 * 2 ^ 48 ∧ (0x18F + 2 ^ 47 + 7 * 2 ^ 48) / 2 ^ 48 % 2 ^ 12 = 7 ∧
      s.fab.domain ≠ some 7) ∧
    (entry (tDeep (0x3000000 + 1) 0x4000001 0) at3 = 0x4000001 ∧ ¬ (entryBit 0x4000001 1 ∨ entryBit 0x4000001 2 ∨ entryBit 0x4000001 3)) ∧
    (entry (tDeep (0x18F + 2 ^ 10) 0 0) at2 = 0x18F + 2 ^ 10 ∧ (0x18F + 2 ^ 10) / 2 ^ 10 % 2 ^ 9 ≠ 0) ∧
    (entry (tDeep 0 0 0) at2 = 0 ∧ ¬ entryBit 0 0) ∧
    (2 ^ 64 - 2 ^ 54 ≤ (wd (2 ^ 64 - 8)).toNat ∧ entry s (s.who.ptb + 8 * ((wd (2 ^ 64 - 8)).toNat / 2 ^ 34 % 2 ^ 21)) = 0x18F) ∧
    ¬ denied .store 0x18F s.who.tenant s.who.user := by
  unfold denied entryBit
  and_intros <;> decide +kernel

/-- LDA of a host page whose request the host is to answer with Unsupported Request, and one that it answers. -/
theorem test_hyps_LoadAcquireStoreRelease_host :
    (let s := tHost.modSys fun y => { y with armed := [.hostUnsupported] }
     .hostUnsupported ∈ s.sys.armed ∧ ∃ t, translate s.who .load 0x10008 8 s = (.ok (.host 0x10008), t)) ∧
    (∃ t, translate tHost.who .load 0x10008 8 tHost = (.ok (.host 0x10008), t)) ∧ .hostUnsupported ∉ tHost.sys.armed ∧
    (∃ m t, pointRead tHost.who .sys 0x10008 (.host 0x10008) 8 tHost = (.ok m, t)) := by
  and_intros <;> first | decide +kernel | exact first_part (by decide +kernel) | exact ok_part (by decide +kernel)

/-- R278: an LDA of a host page that the host answers with Unsupported Request raises 0x07 with EVA the address. -/
theorem test_lda_unsupported :
    (match exec (.lda 5 1 .sys .acq .d) (tRegs (tHost.modSys fun y => { y with armed := [.hostUnsupported] }) [(1, 0x10008)]) with
     | .next t => t.st.sr.ecause == 7 && t.st.sr.eva == 0x10008 && t.reg 5 == 0
     | _ => false) = true := by decide +kernel

/-! ### Vector instructions at issue -/

/-- A waypoint of the tests, of the shape 4 by 1. -/
def tWp (id : Nat) (ty : Option Ty) : Waypoint := { (default : Waypoint) with id := id, ty := ty, vl := 4, vrows := 1, op := .mov }

/-- v1 and v2 name streams of i32, v3 and v4 of f32, v6 of e2m1's source f32; p1 and p2 name predicate streams; s1 holds 4 and s2 -8. -/
def tVec : State :=
  let s := tRegs (tBase .u) [(1, 4), (2, wd (2 ^ 64 - 8)), (3, 0x1000), (4, 7)]
  { s with st := { s.st with
    sr := { s.st.sr with vl := 4, vrows := 1 }
    wps := [tWp 0 (some .i32), tWp 1 (some .i32), tWp 2 (some .f32), tWp 3 (some .f32), tWp 4 none]
    vnames := [(1, 0), (2, 1), (3, 2), (4, 3)]
    pnames := [(1, 4), (2, 4)]
    nextWp := 5 } }

theorem tVec_named_int : tVec.named false 1 (tWp 0 (some .i32)) ∧ tVec.named false 2 (tWp 1 (some .i32)) := by
  unfold State.named; decide +kernel

theorem tVec_named_float : tVec.named false 3 (tWp 2 (some .f32)) ∧ tVec.named false 4 (tWp 3 (some .f32)) := by
  unfold State.named; decide +kernel

theorem tVec_named_pred : tVec.named true 1 (tWp 4 none) ∧ tVec.named true 2 (tWp 4 none) := by
  unfold State.named; decide +kernel

theorem tVec_may_issue (rs : List Reg) : tVec.mayIssue rs := by
  refine ⟨by decide, by decide, by decide, ?_⟩
  intro r _
  simp [State.pending, tVec, tRegs, tBase, loadStrand, Strand.fresh, Strand.set]

theorem tVec_unmasked (pred : Bool) (vd : Reg) (ty : Option Ty) : tVec.maskIs none none ∧ tVec.oldIs pred vd none ty none :=
  ⟨rfl, by simp [State.oldIs]⟩

/-- Masked by p1, with VD = v1 named of type i32: its old stream is captured. -/
theorem tVec_masked : tVec.maskIs (some 1) (some 4) ∧ tVec.oldIs false 1 (some 1) (some .i32) (some 0) := by
  refine ⟨⟨tWp 4 none, tVec_named_pred.1, rfl⟩, ?_⟩
  unfold State.oldIs
  rw [if_neg (by decide)]
  exact And.intro rfl (And.intro rfl (And.intro rfl rfl))

/-- Masked by p1, with VD = v9 not named: nothing is captured. -/
theorem tVec_masked_new : tVec.oldIs false 9 (some 1) (some .i32) none := by
  unfold State.oldIs
  rw [if_neg (by decide)]
  exact (rfl : (none : Option Nat) = none)

/-- With no pass, off an MCC, an unmasked instruction fits. -/
theorem fit_of {s : State} {pred : Bool} {vd : Reg} {rs : List Reg} {ty : Option Ty} (hp : s.st.passes = []) (hs : s.st.span ≠ .ctrl) :
    s.fit pred vd none rs ty none none := by
  refine ⟨⟨hs, ?_, ?_, fun r _ => ?_⟩, rfl, ?_⟩
  · simp [State.suspended, hp]
  · simp [State.unsettled, hp]
  · simp [State.pending, hp]
  · simp [State.oldIs]

theorem tVec_fit (pred : Bool) (vd : Reg) (rs : List Reg) (ty : Option Ty) : tVec.fit pred vd none rs ty none none := fit_of rfl (by decide)

/-- Room for a waypoint of each kind, and for a segment of two. -/
theorem tVec_room : tVec.room false [5] ([0, 1] ++ [] ++ []) 1 tVec.st.passes ∧ tVec.room false [1] ([0, 1] ++ [4] ++ [0]) 1 tVec.st.passes ∧
    tVec.room true [5] ([0, 1] ++ [] ++ []) 1 tVec.st.passes ∧
    tVec.room false ((List.range 2).map (5 + ·)) ([] ++ ([none, none] : List (Option Nat)).flatMap Option.toList) 2 tVec.st.passes := by
  unfold State.room; decide +kernel

/-- Sixty-four waypoints, and v1 that names the last: it reaches the others, each read by the next, or a pass in flight holds them. -/
def tChain (held : Bool) : State :=
  { tVec with st := { tVec.st with
    wps := (List.range 64).map fun i => { tWp i (some .i32) with srcs := if i = 0 ∨ (held ∧ i = 63) then [] else [i - 1] }
    vnames := [(1, 63)]
    pnames := []
    passes := if held then [{ tPass .running [] with wps := [{ tWp 62 (some .i32) with srcs := [61] }] }] else []
    nextWp := 64 } }

/-- No room, for a vector, a predicate, or a segment of two: with no pass in flight that would make any, and with one. -/
theorem tChain_full :
    (∀ pred, ¬ (tChain false).room pred [5] [63] 1 (tChain false).st.passes ∧ ¬ (tChain false).room pred [5] [63] 1 (tChain false).stopped) ∧
    (¬ (tChain false).room false [5, 6] [] 2 (tChain false).st.passes ∧ ¬ (tChain false).room false [5, 6] [] 2 (tChain false).stopped) ∧
    (∀ pred, ¬ (tChain true).room pred [5] [63] 1 (tChain true).st.passes ∧ (tChain true).room pred [5] [63] 1 (tChain true).stopped) ∧
    (¬ (tChain true).room false [5, 6] [] 2 (tChain true).st.passes ∧ (tChain true).room false [5, 6] [] 2 (tChain true).stopped) := by
  unfold State.room; decide +kernel

/-- An addition of v1 to itself may issue on either, but for the room. -/
theorem tChain_fit : (tChain false).named false 1 { tWp 63 (some .i32) with srcs := [62] } ∧ (tChain true).named false 1 (tWp 63 (some .i32)) ∧
    (∀ held, (tChain held).fit false 5 none [] (some .i32) none none) ∧ (encode (.vadd 5 1 1 none)).isSome = true := by
  refine ⟨by unfold State.named; decide +kernel, by unfold State.named; decide +kernel, fun held => ?_, by decide +kernel⟩
  refine ⟨⟨?_, ?_, ?_, fun r hr => absurd hr (by simp)⟩, rfl, by simp [State.oldIs]⟩ <;> cases held <;> decide +kernel

theorem test_hyps_VectorIntegerIssue :
    Ty.i32 ∈ intTypes ∧ tVec.named false 1 (tWp 0 (some .i32)) ∧ tVec.named false 2 (tWp 1 (some .i32)) ∧
    tVec.fit false 5 none [] (some .i32) none none ∧ tVec.fit false 5 none [1] (some .i32) none none ∧
    tVec.fit false 1 (some 1) [] (some .i32) (some 4) (some 0) :=
  ⟨by decide, tVec_named_int.1, tVec_named_int.2, tVec_fit _ _ _ _, tVec_fit _ _ _ _, tVec_may_issue _, tVec_masked.1, tVec_masked.2⟩

theorem test_hyps_VectorFloatIssue :
    Ty.f32 ∈ floatTypes ∧ tVec.named false 3 (tWp 2 (some .f32)) ∧ tVec.named false 4 (tWp 3 (some .f32)) ∧
    tVec.fit false 5 none [] (some .f32) none none ∧ tVec.fit false 5 none [1] (some .f32) none none :=
  ⟨by decide, tVec_named_float.1, tVec_named_float.2, tVec_fit _ _ _ _, tVec_fit _ _ _ _⟩

theorem test_hyps_VectorPredicateAndMoveIssue_compares :
    tVec.named true 1 (tWp 4 none) ∧ tVec.named true 2 (tWp 4 none) ∧ tVec.fit true 5 none [] none none none ∧
    tVec.fit true 5 none [1] none none none :=
  ⟨tVec_named_pred.1, tVec_named_pred.2, tVec_fit _ _ _ _, tVec_fit _ _ _ _⟩

/-- Conversions of each kind, a reinterpretation, a slide by 4 and by -8 (and 7, the last that is allowed), indices of i32. -/
theorem test_hyps_VectorPredicateAndMoveIssue_moves :
    cvtOk 0 .f32 .i32 = true ∧ cvtOk 1 .f32 .bf16 = true ∧ cvtOk 2 .f32 .i32 = true ∧ cvtOk 3 .f16 .e4m3 = true ∧
    tyBits .f32 = tyBits .i32 ∧ (-7 ≤ (tVec.reg 1).toInt ∧ (tVec.reg 1).toInt ≤ 7) ∧ (tVec.reg 4).toInt = 7 ∧
    ¬ (-7 ≤ (tVec.reg 2).toInt ∧ (tVec.reg 2).toInt ≤ 7) ∧
    tVec.fit false 5 none [] (some .e2m1) none none ∧ tVec.fit false 5 none [1] (some .f32) none none :=
  ⟨by decide, by decide, by decide, by decide, by decide, by decide +kernel, by decide +kernel, by decide +kernel, tVec_fit _ _ _ _,
    tVec_fit _ _ _ _⟩

/-- Two rows. -/
def tTall : State := tVec.modSr fun r => { r with vrows := 2 }

/-- A base and pitch that fit f32, and one that does not; a tensor register below and beyond 2^12; one row and two; a segment of two
fields. -/
theorem test_hyps_VectorLoadIssue :
    (tVec.reg 3).toNat % max 1 (tyBits .f32 / 8) = 0 ∧ (tVec.reg 4).toNat % max 1 (tyBits .f32 / 8) ≠ 0 ∧
    (tVec.reg 4).toNat < 2 ^ 12 ∧ 2 ^ 12 ≤ (tVec.reg 3).toNat ∧ tVec.st.sr.vrows = 1 ∧ tTall.st.sr.vrows ≠ 1 ∧
    (tTall.reg 3).toNat % max 1 (tyBits .f32 / 8) = 0 ∧ (encode (.vldFf 5 3 none .f32)).isSome = true := by
  decide +kernel

theorem test_hyps_VectorLoadIssue_fit :
    tTall.fit false 5 none [3] (some .f32) none none ∧ tVec.fit false 5 none [3] (some .f32) none none ∧
    tVec.fit false 5 none [3, 4] (some .f32) none none ∧ tVec.fit false 5 none [4] (some .f32) none none :=
  ⟨fit_of rfl (by decide), fit_of rfl (by decide), fit_of rfl (by decide), fit_of rfl (by decide)⟩

theorem test_hyps_VectorLoadIssue_segments :
    ([none, none] : List (Option Nat)).length = (2 : Reg).val ∧
    (∀ f o, ([none, none] : List (Option Nat))[f]? = some o → tVec.oldIs false (regPlus 5 f) none (some .f32) o) ∧
    tVec.room false ((List.range 2).map (5 + ·)) ([] ++ ([none, none] : List (Option Nat)).flatMap Option.toList) 2 tVec.st.passes := by
  refine ⟨rfl, ?_, tVec_room.2.2.2⟩
  intro f o h
  have : o = none := by
    match f, h with
    | 0, h => simpa using h.symm
    | 1, h => simpa using h.symm
  subst this
  exact (tVec_unmasked false _ _).2

/-- A pending register, an MCC, a suspended pass, an unsettled VL, an unnamed source, one of another shape. -/
theorem test_hyps_IssueWaitsAndFaults :
    (let s := tPasses (tBase .u) [tPass .running [tRed]]
     5 ∈ scalarsOf (.vstcmp 1 2 5 true none .f32) ∧ 5 ∈ scalarsOf (.strip 1 2 4 1 0) ∧ s.pending 5 = true ∧ s.st.span ≠ .ctrl ∧
     s.suspended = false) ∧
    (tMcc .u).st.span = .ctrl ∧ (tPasses tVec [tPass .suspended []]).suspended = true ∧
    (tPasses tVec [{ tPass .running [] with wps := [{ tWp 9 (some .i8) with op := .vld 1 0 0 .i8 }] }]).unsettled = true ∧
    (tVec.st.span ≠ .ctrl ∧ tVec.suspended = false ∧ tVec.unsettled = false ∧ tVec.st.sr.determ.toNat % 2 = 0) ∧
    streamsOf (.vadd 5 1 2 none) = some [(false, 1), (false, 2)] ∧
    streamsOf (.vstSeg 1 2 2 true (some 7) .f32) = some [(false, 1), (false, 2), (true, 7)] ∧
    encode (.vadd 5 1 2 none) = some 0x90A11000 := by decide +kernel

/-- A name that stands for nothing, and one of another shape; registers that a word names and none is pending. -/
theorem test_hyps_IssueWaitsAndFaults_misfits :
    tVec.misfit false 30 ∧ tVec.misfit true 7 ∧ (tVec.modSr fun r => { r with vl := 5 }).misfit false 1 ∧
    tVec.ready (scalarsOf (.vstcmp 1 2 5 true none .f32)) := by
  refine ⟨?_, ?_, ?_, (tVec_may_issue _).2.2.2⟩
  · intro id x h _
    have : afind tVec.st.vnames (30 : Reg).val = none := by decide +kernel
    exact absurd (this.symm.trans h) (by simp)
  · intro id x h _
    have : afind tVec.st.pnames (7 : Reg).val = none := by decide +kernel
    exact absurd (this.symm.trans h) (by simp)
  · intro id x h hx
    have h0 : id = 0 := by
      have : afind (tVec.modSr fun r => { r with vl := 5 }).st.vnames (1 : Reg).val = some 0 := by decide +kernel
      exact (Option.some.inj (this.symm.trans h)).symm
    subst h0
    have h1 : wpOf (tVec.modSr fun r => { r with vl := 5 }).st.wps 0 = some (tWp 0 (some .i32)) := by decide +kernel
    rw [h1] at hx
    obtain rfl := Option.some.inj hx
    left; decide +kernel

theorem test_hyps_LengthsAndStrips :
    tVec.st.span ≠ .ctrl ∧ tVec.suspended = false ∧ tVec.unsettled = false ∧
    tVec.ready (1 :: 2 :: (List.range ((3 : BitVec 2).toNat + 1)).map (regPlus 28)) := by
  refine ⟨by decide +kernel, by decide +kernel, by decide +kernel, ?_⟩
  unfold State.ready; decide +kernel

/-- Every operand at its least and its greatest value. -/
theorem test_hyps_IntegerAndCompareElements :
    8 ∈ [8, 16, 32, 64] ∧ 64 ∈ [8, 16, 32, 64] ∧ 2 ^ 8 - 1 < 2 ^ 8 ∧ 2 ^ 64 - 1 < 2 ^ 64 ∧ 0 < 2 ^ 8 ∧ fmtBf16 ∈ [fmtF64, fmtF32, fmtF16, fmtBf16] ∧
    (1 : Nat) < 2 := by decide

/-- 4.0, -0.5 and 3.0 in f32: each clause of the statement has operands. -/
theorem test_hyps_FloatElements :
    (decodeF fmtF32 0x40800000).finite ∧ (decodeF fmtF32 0xBF000000).finite ∧ (decodeF fmtF32 0x40800000).real = 4 ∧
    (decodeF fmtF32 0xBF000000).real ≠ 0 ∧ (decodeF fmtF32 0xBF000000).real < 0 ∧
    (decodeF fmtF32 0x40800000).real = (2 : ℝ) ^ (2 : ℤ) ∧ |(4 : ℤ)| < 2 ^ 19 := by
  have h4 : decodeF fmtF32 0x40800000 = .num false (2 ^ 23) (-21) false := by decide +kernel
  have hh : decodeF fmtF32 0xBF000000 = .num true (2 ^ 23) (-24) false := by decide +kernel
  rw [h4, hh]
  and_intros <;> first | rfl | decide | norm_num [FVal.real]

/-- Codes that are no number, a pair of types for each clause on conversions, a value whose neighbours are finite. -/
theorem test_hyps_FloatElements_special :
    (decodeF fmtF32 0x7FC00000).isNan = true ∧ (decodeF fmtF32 0x7F800000).isInf = true ∧ (decodeF fmtF32 0xFF800000).neg = true ∧
    0xFF800000 < 2 ^ fmtF32.width ∧ cvtOk 3 .i16 .i8 = true ∧ cvtOk 0 .f32 .i32 = true ∧ cvtOk 2 .f32 .i32 = true ∧
    cvtOk 0 .i32 .f32 = true ∧ cvtOk 1 .f32 .bf16 = true ∧ cvtOk 4 .f32 .e2m1 = true ∧ cvtOk 0 .f16 .f32 = true ∧
    0xFFFF < 2 ^ tyBits .i16 ∧ (roundF fmtE2m1 .rup false (.num false 5 0 false)).2 &&& flOF = 0 ∧
    (FVal.num false 5 0 false).finite ∧ (2 ^ 32 - 1 : Nat) < 2 ^ 32 := by
  and_intros <;> first | decide +kernel | rfl

/-- A strip of the first four elements of the tests, of four in all. -/
def tStrip (ds : List (Nat × List Byte)) : Strip :=
  { t := tVec.st, p := { tPass .running [] with wps := tVec.st.wps, descs := ds }, lo := 0, hi := 4, n := 4, lanes := #[(0, 0)] }

/-- Elements 1 to 4 of waypoint 0, indices 0, 1, -1 and 64 of waypoint 1, and a mask that lets every other one through. -/
def tRes : Res :=
  [(0, #[.ok 1, .ok 2, .ok 3, .ok 4]), (1, #[.ok 0, .ok 1, .ok 0xFFFFFFFF, .ok 64]), (4, #[.ok 1, .ok 0, .ok 1, .ok 0])]

theorem test_hyps_MoveElements :
    Ty.i32 ∈ intTypes ++ floatTypes ∧ (Elem.ok 5).bad = false ∧ (tStrip []).lo % 8 = 0 ∧ (tStrip []).lo ≤ 2 ∧ 2 < (tStrip []).hi ∧
    (tStrip []).hi ≤ (tStrip []).n ∧ (tStrip []).hi = (tStrip []).n ∧
    (∀ q < (tStrip []).hi - (tStrip []).lo, (tRes.at 0 q).bad = false) ∧ (tStrip []).p.wpTy 1 = .i32 ∧
    ((tRes.at 4 0).pad = false ∧ (tRes.at 4 0).val ≠ 0 ∧ (tRes.at 4 1).val = 0 ∧ (tRes.at 4 1).bad = false) ∧
    (∃ k ∈ ([7] : List Nat), (Res.at [(7, #[.padding])] k 0).pad = true) := by
  and_intros <;> decide +kernel

/-- A descriptor of 8 by 8 elements of f32 in the own core's scratchpad. -/
def tTile : List Byte := leBytes 64 (0x7FFF0000000000 + 32 * 2 ^ 192 + 8 * 2 ^ 256 + 8 * 2 ^ 288 + 6 * 2 ^ 464 + 2 ^ 511)

/-- Indices that lie outside the tensor; a header whose access and check go through; codes and levels that are numbers. -/
theorem test_hyps_LoadedElements :
    (∃ u, loadAt ((tStrip []).who 0) (tWin 8) 4 (tBase .u) = (.ok 0, u)) ∧
    (∃ u, loadAt ((tStrip []).who 0) (wd (2 ^ 55)) 4 (tBase .u) = (.error (.trap 0x1D 0 (wd (2 ^ 55))), u)) ∧
    (tRes.at 1 2).bad = false ∧ (BitVec.ofNat (tyBits ((tStrip [(3, tTile)]).p.wpTy 1)) (tRes.at 1 2).val).toInt < 0 ∧
    ((((tStrip [(3, tTile)]).p.desc 3).rows * ((tStrip [(3, tTile)]).p.desc 3).cols : Nat) : ℤ) ≤
      (BitVec.ofNat (tyBits ((tStrip [(3, tTile)]).p.wpTy 1)) (tRes.at 1 3).val).toInt ∧
    (decodeF fmtE2m1 7).finite ∧ (decodeF fmtE4m3 0x7F).isNan = true ∧ (decodeF fmtBf16 0x3F80).finite ∧
    (∃ u, checkHeader (deskWho tVec.st (tPass .running [])) (parseDesc tTile) 3 0x208000F5 (tWin 8) (tBase .u) = (.ok [], u)) := by
  and_intros <;> first | decide +kernel | rfl | exact first_part (by decide +kernel)

/-- A chunked tensor of four elements of f32 in one slot of the own core, and the machine with that chunk, whose data is a stored block. -/
def tZ : Desc := { (parseDesc tTile) with rows := 1, cols := 4, ce := 4, slot := 256, elembase := 0x7FFF0000005000 }
def tChunk (clen : Nat) (head : Byte) : State :=
  (tBase .u).winWrite 0x5000 (leBytes 4 clen ++ leBytes 4 16 ++ leBytes 8 0 ++ [head, 16, 0, 0xEF, 0xFF] ++ List.replicate 16 7)

/-- An index in the tensor, and one outside it; the tensor's type; an element that another element of the strip has read, or failed to
read; a chunk that is decoded, one held; a gather that reads, and one whose access fails. -/
theorem test_hyps_LoadedElements_places :
    (let d := (tStrip [(3, tTile)]).p.desc 3
     d.bits = tyBits .f32 ∧ d.rows * d.cols = 64 ∧ (BitVec.ofNat 32 (tRes.at 1 0).val).toInt = 0 ∧ (tRes.at 1 0).bad = false) ∧
    ((Ev.start []).shared.find? fun u => u.node == 2 && u.idx == 1) = none ∧
    ([⟨2, 1, some 5⟩, ⟨2, 3, none⟩] : List Shared).find? (fun u => u.node == 2 && u.idx == 1) = some ⟨2, 1, some 5⟩ ∧
    ([⟨2, 1, some 5⟩, ⟨2, 3, none⟩] : List Shared).find? (fun u => u.node == 2 && u.idx == 3) = some ⟨2, 3, none⟩ ∧
    (∃ u, translate (tMapped .s).who .load 0x10008 4 (tCached .s 0x18F) = (.ok (.hbm 0x10008 0), u)) ∧
    (∃ u, bywayRead (tMapped .s).who 0x10008 4 (tCached .s 0x18F) = (.ok 0, u)) ∧
    (∃ u, bywayRead (tMapped .s).who (wd (2 ^ 55)) 4 (tBase .s) = (.error (.trap 0x1D 0 (wd (2 ^ 55))), u)) := by
  and_intros <;> first | decide +kernel | exact first_part (by decide +kernel)

/-- Chunk 0: of lengths that fit, with a stored block and with a block of type 3, and one longer than its slot; that chunk as one that is
held; the data as stored blocks and as literals. -/
theorem test_hyps_LoadedElements_chunks :
    (0 < tZ.ce ∧ tZ.bits = tyBits .f32) ∧
    (∃ q u, readChunk (tBase .u).who 4 tZ 0 (tChunk 21 1) = (.ok q, u)) ∧
    (∃ h u, readSpan (tBase .u).who 4 (tZ.slotAddr 0) 16 2 (tChunk 21 1) = (.ok h, u)) ∧
    (∃ h u, readSpan (tBase .u).who 4 (tZ.slotAddr 0 + 16) 21 2 (tChunk 21 1) = (.ok h, u)) ∧
    (∃ u, readChunk (tBase .u).who 4 tZ 0 (tChunk 21 7) = (.error (.trap 0x11 3 (tZ.slotAddr 0)), u)) ∧
    (∃ u, readChunk (tBase .u).who 4 tZ 0 (tChunk 241 1) = (.error (.trap 0x11 10 (tZ.slotAddr 0)), u)) ∧
    (([⟨3, 0, 0, [7], true, 0⟩] : List ChunkUse).find? fun c => c.node = 3 ∧ c.j = 0) = some ⟨3, 0, 0, [7], true, 0⟩ ∧
    [7].length < 2 ^ 16 ∧ 5 + 6 ≠ 65535 ∧
    bitsOf [0x63, 0x05, 0x00] = [true, true, false] ++ [0x05].flatMap (fun b : Byte => (List.range 8).map fun i => (0x30 + b.toNat).testBit (7 - i)) ++
      List.replicate 7 false ++ [false, false, false, false, false, false] := by
  and_intros <;> first | decide +kernel | exact first_part (by decide +kernel) | exact ok_part (by decide +kernel)

/-- A strip of one element: of a tile before its tensor and in it, of a chunk past the tensor and in it. -/
theorem test_hyps_LoadedElements_padding :
    (let x : Strip := { tStrip [(3, tTile)] with hi := 1 }
     let w := tWp 7 (some .f32)
     x.hi = x.lo + 1 ∧ ((-1 : ℤ) + (x.lo / x.p.vl : Nat) < 0) ∧ ¬ ((0 : ℤ) + (x.lo / x.p.vl : Nat) < 0) ∧
     (x.p.desc 3).rows * (x.p.desc 3).cols ≤ 64 * 1 + x.lo ∧ w.id ≠ 8 ∧
     (match gateOf { w with op := .vldtd 0 0 3 .f32 } [] 0 with | .active ss => ss.length == 0 | _ => false) = true ∧
     ∃ y u, evalElem x 8 { w with op := .vld 0 0 (tWin 0x100) .f32 } [] 0 [] (Ev.start []) (tBase .u) = (.ok y, u)) := by
  and_intros <;> first | decide +kernel | exact ok_part (by decide +kernel)

/-- An addition of two streams that it does not take, whose types are known; one masked under the undisturbed policy that makes anew a name
of another type, and one of another shape. -/
theorem test_hyps_IssueWaitsAndFaults_types :
    (streamsOf (.vadd 5 3 4 none) = some [(false, 3), (false, 4)] ∧ tVec.typed [(false, 3), (false, 4)] [.f32, .f32] ∧
      ¬ accepts (.vadd 5 3 4 none) [.f32, .f32] ∧ (encode (.vadd 5 3 4 none)).isSome = true) ∧
    (streamsOf (.vadd 3 1 2 (some 1)) = some [(false, 1), (false, 2), (true, 1)] ∧
      tVec.typed [(false, 1), (false, 2), (true, 1)] [.i32, .i32] ∧ accepts (.vadd 3 1 2 (some 1)) [.i32, .i32] ∧
      produces (.vadd 3 1 2 (some 1)) [.i32, .i32] = some (false, [3], some 1, some .i32) ∧ tVec.st.sr.vpol.toNat % 2 = 0 ∧
      afind tVec.st.vnames (3 : Reg).val = some 2 ∧ wpOf tVec.st.wps 2 = some (tWp 2 (some .f32)) ∧ (tWp 2 (some .f32)).ty ≠ some .i32) ∧
    (let s : State := { tVec with st := { tVec.st with wps := { tWp 5 (some .i32) with vl := 3 } :: tVec.st.wps, vnames := (6, 5) :: tVec.st.vnames } }
     afind s.st.vnames (6 : Reg).val = some 5 ∧ wpOf s.st.wps 5 = some { tWp 5 (some .i32) with vl := 3 } ∧ (3 : Nat) ≠ s.st.sr.vl) := by
  have tw : ∀ r ∈ ([1, 2] : List Reg), ∃ x, tVec.named false r x ∧ x.ty = some .i32 := by
    intro r hr
    obtain rfl | rfl : r = 1 ∨ r = 2 := by simpa using hr
    · exact ⟨_, tVec_named_int.1, rfl⟩
    · exact ⟨_, tVec_named_int.2, rfl⟩
  refine ⟨⟨by decide +kernel, ?_, ?_, by decide +kernel⟩, ⟨by decide +kernel, ?_, ?_, by decide +kernel, by decide +kernel, by decide +kernel,
    by decide +kernel, by decide⟩, by decide +kernel⟩
  · exact .cons ⟨_, tVec_named_float.1, rfl⟩ (.cons ⟨_, tVec_named_float.2, rfl⟩ .nil)
  · simp only [accepts]; decide
  · exact .cons (tw 1 (by simp)) (.cons (tw 2 (by simp)) .nil)
  · simp only [accepts]; decide

/-- R131, third and fourth case: VADD of f32 streams, and a masked VADD into a v3 that names a stream of f32 under the undisturbed policy,
are stream faults with EVA the word; of i32 into a new name it issues. -/
theorem test_vadd_types :
    ([.vadd 5 3 4 none, .vadd 3 1 2 (some 1)] : List Instr).all (fun i =>
      match exec i tVec, encode i with
      | .next t, some w => t.st.sr.ecause == 8 && t.st.sr.eva == w.setWidth 64
      | _, _ => false) = true ∧
    (match exec (.vadd 9 1 2 (some 1)) tVec with | .next t => (afind t.st.vnames 9).isSome | _ => false) = true := by decide +kernel

/-- R332: VSTXADD of each floating-point type under DETERM = 1 raises 0x0C, also of the types that have no add. -/
theorem test_vstxadd_determ :
    ([.f32, .e4m3, .e5m2, .e2m1] : List Ty).all (fun ty =>
      match exec (.vstxadd 3 3 4 true none ty) (tVec.modSr fun r => { r with determ := 1 }) with
      | .next t => t.st.sr.ecause == 0x0C
      | _ => false) = true := by decide +kernel

/-- A waypoint of f32 and sources that are no padding; flags that trap and flags that do not. -/
theorem test_hyps_elements_of_waypoints :
    (tWp 2 (some .f32)).ty = some .f32 ∧ (Elem.ok 0x3F800000).bad = false ∧ tyFmt .f32 = some fmtF32 ∧
    ((0 : Word).toNat / 16 % 32 &&& flNV.toNat = 0 ∧ (wd 0x1F0).toNat / 16 % 32 &&& flNV.toNat ≠ 0 ∧ (Ev.start []).best = none) ∧
    (tStrip []).p.wpTy 2 = .f32 ∧ (tStrip []).p.wpTy 0 = .i32 := by
  and_intros <;> decide +kernel

/-- 0.75 and 3.0 in f32, of which neither the power nor the logarithm is exact; pairs of infinities, of zeros and of an infinity and a
zero; a signalling NaN beside an infinity times zero. -/
theorem test_hyps_FloatElements_operands :
    ((decodeF fmtF32 0x3F400000).finite ∧ |(decodeF fmtF32 0x3F400000).real| < 2 ^ 19 ∧
      (∀ n : ℤ, (decodeF fmtF32 0x3F400000).real ≠ n)) ∧
    ((decodeF fmtF32 0x40400000).finite ∧ 0 < (decodeF fmtF32 0x40400000).real ∧ ∀ n : ℤ, (decodeF fmtF32 0x40400000).real ≠ (2 : ℝ) ^ n) ∧
    ((decodeF fmtF32 0x7F800000).isInf = true ∧ (decodeF fmtF32 0xFF800000).isInf = true ∧ (decodeF fmtF32 0x7F800000).neg = false ∧
      (decodeF fmtF32 0xFF800000).neg = true) ∧
    ((decodeF fmtF32 0x80000000).finite ∧ (decodeF fmtF32 0x80000000).real = 0 ∧ (decodeF fmtF32 0x80000000).neg = true) ∧
    ((decodeF fmtF32 0x7F800001).isSnan = true ∧ (decodeF fmtF32 0x7FC00000).isSnan = false) ∧
    ((roundF fmtE2m1 .rup false (.num false 7 0 false)).2 &&& flOF ≠ 0 ∧ (FVal.num false 7 0 false).finite) := by
  have h3 : decodeF fmtF32 0x3F400000 = .num false (3 * 2 ^ 22) (-24) false := by decide +kernel
  have h4 : decodeF fmtF32 0x40400000 = .num false (3 * 2 ^ 22) (-22) false := by decide +kernel
  have hz : decodeF fmtF32 0x80000000 = .num true 0 (-149) false := by decide +kernel
  have r3 : (decodeF fmtF32 0x3F400000).real = 3 / 4 := by rw [h3]; norm_num [FVal.real]
  have r4 : (decodeF fmtF32 0x40400000).real = 3 := by rw [h4]; norm_num [FVal.real]
  refine ⟨⟨by rw [h3]; rfl, by rw [r3]; norm_num [abs_of_pos], fun n h => ?_⟩, ⟨by rw [h4]; rfl, by rw [r4]; norm_num, fun n h => ?_⟩,
    by decide +kernel, ⟨by rw [hz]; rfl, by rw [hz]; norm_num [FVal.real], by decide +kernel⟩, by decide +kernel, by decide +kernel, rfl⟩
  · rw [r3] at h
    have : (4 * n : ℤ) = 3 := by exact_mod_cast (by linarith : (4 : ℝ) * n = 3)
    omega
  · rw [r4] at h
    obtain ⟨k, rfl | rfl⟩ := n.eq_nat_or_neg
    · have h' : (3 : ℕ) = 2 ^ k := by exact_mod_cast h
      rcases k with _ | k
      · omega
      · rw [pow_succ] at h'; omega
    · rw [zpow_neg, zpow_natCast] at h
      have : (1 : ℝ) ≤ 2 ^ k := one_le_pow₀ (by norm_num)
      have : ((2 : ℝ) ^ k)⁻¹ ≤ 1 := inv_le_one_of_one_le₀ this
      linarith

/-- R206: the ordering compares raise NV for a quiet NaN, the others do not. -/
theorem test_compare_flags :
    cmpFOp .lt fmtF32 0x7FC00000 0 = (false, flNV) ∧ cmpFOp .eq fmtF32 0x7FC00000 0 = (false, flNone) ∧
    cmpFOp .un fmtF32 0x7F800001 0 = (true, flNV) := by decide +kernel

/-! ### Sinks, passes, barriers -/

theorem tVec_queue_fits (l : List Nat) (h : reachesQueuedRow tVec.st l = false) : tVec.queueFits l :=
  ⟨by decide, by intro k hk; exact absurd hk (by simp [tVec, tRegs, tBase, loadStrand, Strand.fresh, Strand.set]), h⟩

theorem test_hyps_VectorStoreIssue :
    tVec.named false 3 (tWp 2 (some .f32)) ∧ tVec.named false 1 (tWp 0 (some .i32)) ∧ tVec.queueFits ([2] ++ []) ∧
    tVec.queueFits ([2] ++ [0] ++ []) ∧ tVec.mayIssue [3, 4] ∧ (tVec.reg 3).toNat % max 1 (tyBits .f32 / 8) = 0 ∧
    (tVec.reg 4).toNat < 2 ^ 12 ∧ tVec.st.sr.determ.toNat % 2 = 0 ∧ Ty.f32 ∈ floatTypes ∧
    (tVec.st.passes.filter Pass.inFlight).length < 2 ∧ (∃ t, forceQueue (tVec.queued tRed false) = (.ok (), t)) ∧
    ([2, 3] : List Nat).length = (2 : Reg).val ∧
    (∀ f k, ([2, 3] : List Nat)[f]? = some k → ∃ z, tVec.named false (regPlus 3 f) z ∧ z.ty = some .f32 ∧ z.id = k) := by
  refine ⟨tVec_named_float.1, tVec_named_int.1, tVec_queue_fits _ (by decide +kernel), tVec_queue_fits _ (by decide +kernel),
    tVec_may_issue _, by decide +kernel, by decide +kernel, by decide +kernel, by decide, by decide +kernel,
    first_part (by decide +kernel), rfl, ?_⟩
  intro f k h
  match f, h with
  | 0, h => exact ⟨tWp 2 (some .f32), tVec_named_float.1, rfl, by simpa [tWp] using h⟩
  | 1, h => exact ⟨tWp 3 (some .f32), tVec_named_float.2, rfl, by simpa [tWp] using h⟩

/-- With DETERM = 1. -/
def tDet : State := tVec.modSr fun r => { r with determ := 1 }

/-- An element code of f32 stored as f16; a base or stride that is no multiple of 4; a tensor register with a bit above bit 11; DETERM = 1;
an index stream of f32; the words of each fault. -/
theorem test_hyps_VectorStoreIssue_faults :
    tVec.mayIssue [3, 4] ∧ tDet.mayIssue [3, 4] ∧ tDet.named false 3 (tWp 2 (some .f32)) ∧
    ((tWp 2 (some .f32)).ty ≠ some .f16 ∧ (tWp 0 (some .i32)).ty ≠ some .f32 ∧ (tWp 3 (some .f32)).ty ≠ some .i32) ∧
    ((tVec.reg 3).toNat % max 1 (tyBits .f32 / 8) = 0 ∧ (tVec.reg 4).toNat % max 1 (tyBits .f32 / 8) ≠ 0) ∧
    2 ^ 12 ≤ (tVec.reg 3).toNat ∧ tDet.st.sr.determ.toNat % 2 = 1 ∧ tVec.st.sr.determ.toNat % 2 = 0 ∧
    ([tWp 2 (some .f32), tWp 3 (some .f32)].length = (2 : Reg).val ∧
      ∀ f z, [tWp 2 (some .f32), tWp 3 (some .f32)][f]? = some z → tVec.named false (regPlus 3 f) z ∧ z.ty = some .f32) ∧
    (∀ i ∈ ([.vsts 3 3 4 true none .f16, .vst 3 3 true none .f16, .vsttd 3 3 4 true none .f16, .vstx 3 3 4 true none .f16,
      .vstxadd 3 3 4 true none .e4m3, .vstc 1 3 4 true none .f16, .vstSeg 3 3 2 true none .f16] : List Instr), (encode i).isSome = true) := by
  refine ⟨tVec_may_issue _, ⟨by decide, by decide +kernel, by decide +kernel, fun r _ => ?_⟩, by unfold State.named; decide +kernel, by decide,
    by decide +kernel, by decide +kernel, by decide +kernel, by decide +kernel, ⟨rfl, fun f z h => ?_⟩, by decide +kernel⟩
  · simp [State.pending, tDet, State.modSr, tVec, tRegs, tBase, loadStrand, Strand.fresh, Strand.set]
  · match f, h with
    | 0, h => obtain rfl : _ = z := by simpa using h
              exact ⟨tVec_named_float.1, rfl⟩
    | 1, h => obtain rfl : _ = z := by simpa using h
              exact ⟨tVec_named_float.2, rfl⟩

theorem test_hyps_ReductionIssue :
    tVec.named false 1 (tWp 0 (some .i32)) ∧ tVec.named true 1 (tWp 4 none) ∧ Ty.i32 ∈ intTypes ∧ tVec.queueFits ([0] ++ []) ∧
    tVec.mayIssue [5] ∧ tVec.st.sr.determ.toNat % 2 = 0 ∧ tVec.st.sr.vrows ≤ 128 ∧ tVec.room false [5] ([0] ++ []) 1 tVec.st.passes ∧
    (∃ old, tVec.oldIs false 5 none (some .i32) old) ∧
    (rowSlots (referenced tVec.st (tVec.st.vnames.filter fun p => p.1 ≠ 5) tVec.st.pnames tVec.st.passes ([0] ++ []))).length < 2 := by
  refine ⟨tVec_named_int.1, tVec_named_pred.1, by decide, tVec_queue_fits _ (by decide +kernel), tVec_may_issue _, by decide +kernel,
    by decide +kernel, ?_, ⟨none, (tVec_unmasked _ _ _).2⟩, by decide +kernel⟩
  unfold State.room; decide +kernel

/-- No room and no pass that makes any; no room, but for a pass in flight, and a slot. -/
theorem test_hyps_ReductionIssue_full :
    (¬ (tChain false).room false [5] [63] 1 (tChain false).st.passes ∧ ¬ (tChain false).room false [5] [63] 1 (tChain false).stopped) ∧
    (¬ (tChain true).room false [5] [63] 1 (tChain true).st.passes ∧ (tChain true).room false [5] [63] 1 (tChain true).stopped) ∧
    (rowSlots (referenced (tChain true).st ((tChain true).st.vnames.filter fun p => p.1 ≠ 5) [] (tChain true).stopped [63])).length < 2 ∧
    (tChain true).st.queue = [] ∧ (encode (.vredrow 5 1 none true)).isSome = true :=
  ⟨tChain_full.1 false, tChain_full.2.2.1 false, by decide +kernel, rfl, by decide +kernel⟩

/-- Too many rows; a mask under the undisturbed policy and a v3 that names a stream of f32; DETERM = 1; a stream of e2m1. -/
theorem test_hyps_ReductionIssue_faults :
    (128 < (tVec.modSr fun r => { r with vrows := 129 }).st.sr.vrows ∧ tVec.maskIs (some 1) (some 4) ∧ tVec.st.sr.vpol.toNat % 2 = 0) ∧
    (afind tVec.st.vnames (3 : Reg).val = some (tWp 2 (some .f32)).id ∧ wpOf tVec.st.wps 2 = some (tWp 2 (some .f32)) ∧
      (tWp 2 (some .f32)).ty ≠ some .i32) ∧ (encode (.vredrow 3 1 (some 1) true)).isSome = true ∧
    tDet.st.sr.determ.toNat % 2 = 1 ∧ tDet.mayIssue [3, 4] ∧
    (∀ t ∈ intTypes ++ floatTypes, (tWp 0 (some .e2m1)).ty ≠ some t) ∧ (∀ t ∈ intTypes, (tWp 2 (some .f32)).ty ≠ some t) ∧
    ({ tVec with st := { tVec.st with wps := [tWp 0 (some .e2m1)] } } : State).named false 1 (tWp 0 (some .e2m1)) :=
  ⟨⟨by decide +kernel, tVec_masked.1, by decide +kernel⟩, by decide +kernel, by decide +kernel, by decide +kernel,
    test_hyps_VectorStoreIssue_faults.2.1, by decide, by decide, by unfold State.named; decide +kernel⟩

/-- A fold of waypoint 0 under the mask of waypoint 4, with and without a partial sum from earlier strips. -/
theorem test_hyps_FoldedElements :
    (let k : Sink := { (default : Sink) with id := 5, op := .red 0 5, data := [0], mask := some 4 }
     k.data = [0] ∧ k.idx = none ∧ (tStrip []).p.wpTy 0 = .i32 ∧ (tStrip []).n ≤ (tStrip []).hi ∧
     (∀ j ∈ 0 :: k.mask.toList, ∀ i < (tStrip []).hi - (tStrip []).lo, (tRes.at j i).bad = false) ∧
     afind (partOf ([] : List Partial) k.id).accs 0 = none ∧ afind (partOf [⟨5, [(0, 9)], 0, []⟩] k.id).accs 0 = some 9) ∧
    Ty.i32 ∈ intTypes ++ floatTypes ∧ tyFmt .f32 = some fmtF32 := by
  and_intros <;> decide +kernel

/-- An access of the first element, through the translation cache of the strand. -/
def tAdd : Who := { (tStrip []).who 0 with tlb := 0 }

/-- A sink of waypoint 0 whose indices are waypoint 1: in the tensor, before it and past it; a whole tile. -/
theorem test_hyps_StoredElements :
    (let k : Sink := { (default : Sink) with id := 5, ty := some .i32, data := [0], idx := some 1 }
     let d := (tStrip [(3, tTile)]).p.desc 3
     k.ty = some .i32 ∧ k.data = [0] ∧ k.idx = some 1 ∧ d.bits = tyBits .i32 ∧ d.rows * d.cols = 64 ∧
     (tStrip [(3, tTile)]).p.wpTy 1 = .i32) ∧
    (∃ u, translate ((tStrip []).who 0) .store (tWin 8) 4 (tBase .u) = (.ok (.win 8), u)) ∧
    (∃ u, translate ((tStrip []).who 0) .store (wd (2 ^ 55)) 4 (tBase .u) = (.error (.trap 0x1D 0 (wd (2 ^ 55))), u)) ∧
    (Wr.bytes (tBase .u).who (.win 8) [1]).unordered = false ∧ (Wr.add (tBase .u).who (.win 8) .f32 1).unordered = true ∧
    tLine.seen 0 0 0x1000 = some 5 ∧ 0x1008 % 64 + tyBits .i64 / 8 ≤ 64 ∧
    (∀ l ∈ ((tMapped .s).cluRead 0 0 0x1000 8).1.cache 0, l.tag = 0x1000 / 64 → l.dirty = 0) ∧
    ((4 * (tyBits .i32 / 8) : Nat) : ℤ) ≤ (wd 32).toInt := by
  and_intros <;> first | decide +kernel | exact first_part (by decide +kernel)

/-- Targets of an add: a window word, a line of local HBM, a host page, an address that does not translate; a word that is poisoned no
more. A strip of one element, masked off, padding, or outside its tensor; the access of a segment's field that fails. -/
theorem test_hyps_StoredElements_targets :
    (∃ u, translate tAdd .atomic (tWin 8) 4 (tBase .u) = (.ok (.win 8), u)) ∧ (tBase .u).winPoisoned 8 4 = false ∧
    (∃ u, translate tAdd .atomic 0x10008 4 (tCached .s 0x18F) = (.ok (.hbm 0x10008 0), u)) ∧
    (∃ u, translate tAdd .atomic 0x10008 4 (tCached .s (0x18F + 2 ^ 46)) = (.ok (.host 0x10008), u)) ∧
    (∃ u, translate tAdd .atomic (wd (2 ^ 55)) 4 (tBase .u) = (.error (.trap 0x1D 0 (wd (2 ^ 55))), u)) ∧
    (let x : Strip := { tStrip [(3, tTile)] with lo := 1, hi := 2 }
     x.hi = x.lo + 1 ∧ tRed.isVstc = false ∧ (Res.at [(4, #[.ok 0])] 4 0).val ≠ 1 ∧ (Res.at [(0, #[.padding])] 0 0).pad = true ∧
     ((x.p.desc 3).rows : ℤ) ≤ 8 + (x.lo / x.p.vl : Nat) ∧ (-9 : ℤ) + (x.lo % x.p.vl : Nat) < 0) := by
  and_intros <;> first | decide +kernel | exact first_part (by decide +kernel)

/-- A sink of i32 under the agnostic policy, and one of e2m1: a row that ends before its pitch, one that does not, one of a descriptor
inside it and one outside; the last element of the row and one before; a tail that starts at a byte, at a nibble, at the last nibble. -/
theorem test_hyps_StoredElements_tails :
    (let k : Sink := { (default : Sink) with id := 5, ty := some .i32, data := [0], vpol := 2 }
     let x := tStrip [(3, tTile)]
     let aim (op : SOp) : Sink := { k with op := op }
     (default : Sink).vpol.toNat / 2 % 2 = 0 ∧ k.vpol.toNat / 2 % 2 = 1 ∧ x.p.vrows = 1 ∧ x.n = 4 ∧
     ((4 * 32 + 7) / 8 : Nat) ≤ (wd 32).toInt ∧ (wd 8).toInt < ((4 * 32 + 7) / 8 : Nat) ∧
     ((x.p.desc 3).rows = 8 ∧ (x.p.desc 3).cols = 8) ∧
     (tailOf x (aim (.vstt (tWin 0x100) 32)) 0).isSome = true ∧ tailOf x (aim (.vstt (tWin 0x100) 8)) 0 = none ∧
     (tailOf x (aim (.vsttd 0 0 3)) 0).isSome = true ∧ tailOf x (aim (.vsttd 8 0 3)) 0 = none ∧ (3 + 1) % 4 = 0 ∧ (2 + 1) % 4 ≠ 0 ∧
     (∃ r u, tailAfter x (aim (.vstt (tWin 0x100) 32)) 3 (Ev.start []) (tBase .u) = (.ok r, u))) ∧
    (∃ u, translate ((tStrip []).who 3) .store (tWin 0x110) 4 (tBase .u) = (.ok (.win 0x110), u)) ∧
    (∃ u, translate ((tStrip []).who 3) .store (wd (2 ^ 55)) 4 (tBase .u) = (.error (.trap 0x1D 0 (wd (2 ^ 55))), u)) ∧
    ((2 * 7 + 1 : ℤ) % 2 = 1 ∧ ((16 : ℤ) / 2 - (15 + 1) / 2).toNat = 0 ∧ 0 < ((128 : ℤ) / 2 - (15 + 1) / 2).toNat) := by
  and_intros <;> first | decide +kernel | exact first_part (by decide +kernel) | exact ok_part (by decide +kernel)

/-- A block with two finite elements, an infinity, a NaN and an inactive one, under every selector, with one level table. -/
def tBlock : List BlockElem :=
  [⟨0, 0x3F80, true, 0⟩, ⟨5, 0xC040, true, 0⟩, ⟨6, 0x7F80, true, 0⟩, ⟨7, 0x7FC0, true, 0⟩, ⟨31, 0x3F80, false, 0⟩]

theorem test_hyps_QuantisedBlocks :
    fmtBf16 ∈ [fmtF16, fmtBf16, fmtF32] ∧ (tBlock.map BlockElem.pos).Nodup ∧ (∀ b ∈ tBlock, b.pos < 32) ∧
    ([(7, List.replicate 16 0x3F80)] : List (Nat × List Nat)) ≠ [] ∧ 7 < 2 ^ 14 ∧ (List.replicate 16 0x3F80).length = 2 ^ 4 ∧
    (∀ l ∈ List.replicate 16 0x3F80, (decodeF fmtBf16 l).finite) ∧
    (tBlock.filter fun b => b.active && (decodeF fmtBf16 b.code).isFinite).length = 2 ∧
    (List.replicate 32 15).length = 32 ∧ ∀ c ∈ List.replicate 32 15, c < 2 ^ 4 := by
  have h : decodeF fmtBf16 0x3F80 = .num false 128 (-7) false := by decide +kernel
  have hf : (decodeF fmtBf16 0x3F80).finite := by rw [h]; rfl
  refine ⟨by decide, by decide +kernel, by decide +kernel, by decide, by decide, rfl, ?_, by decide +kernel, rfl, by decide +kernel⟩
  intro l hl
  rw [List.eq_of_mem_replicate hl]
  exact hf

/-- A queued reduction of v1. -/
def tQueued : State :=
  { tVec with st := { tVec.st with
    queue := [{ (default : Sink) with id := 5, major := 0x32, op := .red 0 5, vl := 4, vrows := 1, data := [0] }], nextWp := 6 } }

/-- An empty queue; a queue with none and with two passes in flight; a pass of elements whose descriptors are read. -/
theorem test_hyps_ForceConvoyVsyncVdrop :
    tVec.st.span ≠ .ctrl ∧ tVec.suspended = false ∧ tVec.st.queue = [] ∧ tVec.passesInFlight = false ∧
    tQueued.st.queue ≠ [] ∧ (tQueued.st.passes.filter Pass.inFlight).length < 2 ∧ tQueued.st.newPass.elems ≠ 0 ∧
    (∃ p df s, readDescs tQueued.st tQueued.st.newPass tQueued = (.ok (p, df), s)) ∧
    (let s := tPasses tQueued [tPass .running [], tPass .waiting []]
     2 ≤ (s.st.passes.filter Pass.inFlight).length ∧ s.passesInFlight = true) ∧
    (let s : State := { tQueued with st := { tQueued.st with queue := tQueued.st.queue.map fun k => { k with vl := 0 } } }
     s.st.queue ≠ [] ∧ s.st.newPass.elems = 0) := by
  refine ⟨by decide +kernel, by decide +kernel, by decide +kernel, by decide +kernel, by decide +kernel, by decide +kernel,
    by decide +kernel, ?_, by decide +kernel, by decide +kernel⟩
  have h : ∃ x, (readDescs tQueued.st tQueued.st.newPass tQueued).1 = .ok x := by
    cases e : (readDescs tQueued.st tQueued.st.newPass tQueued).1 with
    | ok x => exact ⟨x, rfl⟩
    | error y =>
      exact absurd e (by
        have : (match (readDescs tQueued.st tQueued.st.newPass tQueued).1 with | .ok _ => true | .error _ => false) = true := by
          decide +kernel
        intro h; rw [h] at this; cases this)
  obtain ⟨⟨p, df⟩, hx⟩ := h
  obtain ⟨t, ht⟩ := first_part hx
  exact ⟨p, df, t, ht⟩

/-- A force that goes through, of elements and of none, and one that waits; without a load that may trim it. -/
theorem test_hyps_ForceConvoyVsyncVdrop_waits :
    (∃ t, force tQueued = (.ok (), t)) ∧ ffLoads tQueued.st.newPass = [] ∧ tQueued.st.sr.wmsize.toNat % 2 ^ 32 = 0 ∧
    (∃ t, force { tQueued with st := { tQueued.st with queue := tQueued.st.queue.map fun k => { k with vl := 0 } } } = (.ok (), t)) ∧
    ∃ t, force (tPasses tQueued [tPass .running [], tPass .waiting []]) = (.error .wait, t) := by
  and_intros <;> first | decide +kernel | exact first_part (by decide +kernel)

/-- A pass of no element with a sum to s5 and a compacted store whose count goes to s6, beside an older pass in flight. -/
theorem test_hyps_ForceConvoyVsyncVdrop_empty :
    let sinks : List Sink := (tQueued.st.queue ++ [{ (default : Sink) with id := 6, major := 0x23, ty := some .i32, op := .vstcmp 0x100 6, data := [0] }]).map
      fun k : Sink => { k with vl := 0, vrows := 1 }
    let s : State := { tQueued with st := { tQueued.st with queue := sinks, serial := 9, passes := [tPass .running []] } }
    (s.st.queue ≠ [] ∧ (s.st.passes.filter Pass.inFlight).length < 2 ∧ s.st.newPass.elems = 0 ∧ s.st.sr.wmsize.toNat % 2 ^ 32 = 0 ∧
      (∀ p ∈ s.st.passes, p.serial ≠ s.st.serial) ∧ (∀ k ∈ s.st.queue, k.isVstc = false) ∧ s.st.newPass.wpTy 0 = .i32) ∧
    (sinks.map Sink.resultReg = [some 5, some 6] ∧ sinks.map Sink.data = [[0], [0]] ∧ Ty.i32 ∈ intTypes ++ floatTypes) ∧
    ∃ u, force s = (.ok (), u) := by
  refine ⟨by decide +kernel, by decide +kernel, first_part (by decide +kernel)⟩

/-- Slot 0 names entry 3, a group of two in phase 0; this strand has arrived `a` times. -/
def tGroup (a : Nat) : State :=
  let s := tBase .u
  { s with
    st := { s.st with sr := { s.st.sr with groups := wd (2 ^ 32 + 3) }, arrive := [a, 0, 0, 0] }
    sys := { s.sys with ctxs := [{ loadCtx with groups := [(3, ⟨1, 0, 0, 0, 0, 2⟩)] }] } }

/-- A slot that is open: at its first phase, one ahead, two ahead; a slot with no group. -/
theorem test_hyps_Barriers :
    (tGroup 0).suspended = false ∧ (tGroup 0).st.groupIdx 0 = some 3 ∧ (tGroup 0).st.groupIdx 1 = none ∧
    (∃ c, (tGroup 0).ctx? 0 = some c ∧ afind c.groups 3 = some ⟨1, 0, 0, 0, 0, 2⟩) ∧
    ((tGroup 0).arrivals 0 < 0 + 2 ∧ (tGroup 0).arrivals 0 + 1 < 2 ^ 32 ∧ (tGroup 0).st.queue = [] ∧
      (tGroup 0).arrivals 0 = (tGroup 0).arrivalsFrom 0) ∧
    (0 + 2 ≤ (tGroup 2).arrivals 0 ∧ (tGroup 2).arrivals 0 ≠ (tGroup 2).arrivalsFrom 0 ∧ 0 < (tGroup 2).arrivals 0) ∧
    (let s := { tGroup 1 with sys := { (tGroup 1).sys with ctxs := [{ loadCtx with groups := [(3, ⟨1, 1, 0, 0, 0, 2⟩)] }] } }
     s.arrivals 0 ≠ s.arrivalsFrom 0 ∧ s.arrivals 0 ≤ 1) ∧
    encode (.barWait 0) = some 0xD0000001 := by
  refine ⟨by decide +kernel, by decide +kernel, by decide +kernel, ⟨_, rfl, by decide +kernel⟩, by decide +kernel, by decide +kernel,
    by decide +kernel, by decide +kernel⟩

/-- Nothing queued and no pass, and then a pass in flight; a held write-back; with writes that are owed, and with none. -/
theorem test_hyps_BarriersFencesAndExit :
    tHeldDirty.holdsDirty tHeldDirty.st.cluster = true ∧ tHeldDirty.suspended = false ∧ tHeldDirty.st.queue = [] ∧
    tHeldDirty.passesInFlight = false ∧ tOwed.owedTo tOwed.who.owner ≠ [] ∧ tDirty.owedTo tDirty.who.owner = [] ∧
    tVec.suspended = false ∧ tVec.st.queue = [] ∧ tVec.passesInFlight = false ∧
    (tPasses tVec [tPass .running []]).passesInFlight = true ∧ (tPasses tVec [tPass .running []]).suspended = false := by
  decide +kernel

/-! ### The matrix engine -/

/-- A target mask at the last core and past it, a shape at both ends and past them, a slot entry at both ends and past them, a tensor
number at its end and past it, an operation of the strand's own. -/
theorem test_hyps_MatrixSetup :
    (tBase .u).st.span ≠ .ctrl ∧ (tMcc .s).st.span = .ctrl ∧ (tMcc .s).st.mode = .s ∧
    2 ^ 24 - 1 < 2 ^ min 24 ((tMcc .s).cluster 0).logical.length ∧ 2 ^ min 24 ((tMcc .s).cluster 0).logical.length ≤ 2 ^ 24 ∧
    (1 : Nat) ≤ 1 ∧ 256 ≤ 256 ∧ ¬ (1 ≤ 257 ∧ 257 ≤ 256) ∧ ¬ (1 ≤ 0) ∧ 15 ≤ 15 ∧ 2 ^ 17 - 1 < 2 ^ 17 ∧
    (slotAsids (aset ((tMcc .s).cluster 0).slots 15 (2 ^ 17 - 1))).length ≤ 8 ∧ (tMcc .s).mopsOf (tMcc .s).st = [] ∧
    8 < (slotAsids ((List.range 9).map fun k => (k, k + 2 ^ 16))).length ∧
    (let s := (tMcc .s).modCluster 0 fun c => { c with mops := [{ (default : MOp) with sid := 1 }] }
     s.mopsOf s.st ≠ []) ∧
    encode (.mtarget 1) = some 0xCC010003 := by decide +kernel

/-- The strip of the tests with a stream of f32 as waypoint 2, of which only the third element contributes: a signalling NaN. -/
def tLone : Res := [(2, #[.ok 0, .ok 0, .ok 0x7F800001, .ok 0]), (4, #[.ok 0, .ok 0, .ok 1, .ok 0])]
def tLoneSink (op : SOp) : Sink := { (default : Sink) with id := 5, op := op, data := [2], mask := some 4 }

theorem test_hyps_FoldedElements_lone :
    (tStrip []).p.wpTy 2 = .f32 ∧ (decodeF fmtF32 0x7F800001).isSnan = true ∧ (tStrip []).n ≤ (tStrip []).hi ∧
    (∀ j ∈ 2 :: [4], ∀ i < (tStrip []).hi - (tStrip []).lo, (tLone.at j i).bad = false) ∧
    ((List.range 4).filter fun i => (tLone.at 4 i).val == 1) = [2] ∧ min (tStrip []).n ((0 + 1) * max 1 (tStrip []).p.vl) ≤ (tStrip []).hi := by
  and_intros <;> decide +kernel

/-- R214: the only contributing element, a signalling NaN, leaves the canonical NaN and NV at that element: of a sum, a tree sum, a row. -/
theorem test_lone_nan :
    ([.red 0 5, .red 1 5, .rowred false 6 0] : List SOp).all (fun op =>
      match evalFold (tStrip []) (tLoneSink op) tLone (Ev.start []) tVec with
      | (.ok (_, v), _) => afind (partOf v.parts 5).accs 0 == some 0x7FC00000 && v.fl == [(2, 5, flNV)]
      | _ => false) = true := by decide +kernel

/-- A queue that EXIT makes a pass of, with a pass that is suspended and without; nothing queued and that pass in flight. -/
theorem test_hyps_BarriersFencesAndExit_queue :
    (let s := tPasses tQueued [tPass .suspended []]
     s.st.queue ≠ [] ∧ (s.st.passes.filter Pass.inFlight).length < 2 ∧ 0 < s.st.newPass.elems ∧ s.suspended = true ∧
     ∃ t, forceQueue s = (.ok (), t)) ∧
    (tQueued.st.queue ≠ [] ∧ (tQueued.st.passes.filter Pass.inFlight).length < 2 ∧ ∃ t, forceQueue tQueued = (.ok (), t)) := by
  and_intros <;> first | decide +kernel | exact first_part (by decide +kernel)

/-- R310: EXIT with a queue and a suspended pass waits for the pass that it forces. -/
theorem test_exit_forces :
    (match exec .exit (tPasses tQueued [tPass .suspended []]) with
     | .next t => t.passesInFlight && t.st.pc == tQueued.st.pc && t.st.stand == .resident && t.st.queue.isEmpty && t.st.passes.length == 2
     | _ => false) = true := by decide +kernel

/-! ### Descriptors, matrix operations -/

/-- A descriptor of 8 rows and 8 columns of f32. -/
def tDesc (base pitch : Nat) : List Byte :=
  leBytes 64 (base + pitch * 2 ^ 192 + 8 * 2 ^ 256 + 8 * 2 ^ 288 + 6 * 2 ^ 464 + 2 ^ 511)

/-- On an MCC, with target core 0 and a tile of 8 by 8; descriptors 1 to 3 are cached: A and B in core 0's scratchpad, C in the
accumulator store under the self alias. -/
def tMx : State :=
  let s := tRegs ((tMcc .s).modMem fun m => { m with
      descs := [(0, [⟨0, 1, none, tDesc (0x7FFF0000000000) 32⟩, ⟨0, 2, none, tDesc (0x7FFF0000001000) 32⟩,
        ⟨0, 3, none, tDesc (0x7FFF0000000000 + 31 * 2 ^ 24 + 0x800000) 64⟩])] })
    [(1, wd (1 + 2 * 2 ^ 12 + 3 * 2 ^ 24)), (2, 0), (3, 8), (4, wd (3 * 2 ^ 24))]
  { s with st := { s.st with mtarget := 1, mm := 8, mn := 8 } }

/-- The word is decided by what a list of plain facts says. -/
theorem tPlaced : operandPlaced 24 false (parseDesc (tDesc 0x7FFF0000000000 32)) ∧
    operandPlaced 24 true (parseDesc (tDesc (0x7FFF0000000000 + 31 * 2 ^ 24) 32)) ∧
    resultPlaced (parseDesc (tDesc (0x7FFF0000000000 + 31 * 2 ^ 24 + 0x800000) 64)) := by
  have h : (parseDesc (tDesc 0x7FFF0000000000 32)).poolbase = 0 ∧ (parseDesc (tDesc (0x7FFF0000000000 + 31 * 2 ^ 24) 32)).poolbase = 0 := by
    decide +kernel
  unfold operandPlaced resultPlaced ordinaryAddress
  rw [h.1, h.2]
  unfold inClusterWindow
  and_intros <;> first | decide +kernel | (intro i _ _; simp)

/-- A base past the scratchpad, a level table in the window, a result that is not under the self alias. -/
theorem tMisplaced : ¬ operandPlaced 24 false (parseDesc (tDesc 0x7FFF0000400000 32)) ∧
    ¬ operandPlaced 24 false { parseDesc (tDesc 0x7FFF0000000000 32) with poolbase := 0x7FFF0000000000 } ∧
    ¬ resultPlaced (parseDesc (tDesc (0x7FFF0000000000 + 0x800000) 64)) := by
  unfold operandPlaced resultPlaced ordinaryAddress inClusterWindow
  refine ⟨fun h => ?_, fun h => ?_, fun h => ?_⟩
  · exact absurd h.1.2.2 (by decide +kernel)
  · exact absurd h.2.2.1 (by decide +kernel)
  · exact absurd h.2.1 (by decide +kernel)

theorem test_hyps_MatrixOperations :
    tMx.st.span = .ctrl ∧ (tMx.reg 1).toNat < 2 ^ 38 ∧ (tMx.reg 2).toNat < 2 ^ 48 ∧ (tMx.reg 3).toNat < 2 ^ 48 ∧
    tMx.st.mtarget ≠ 0 ∧ (tMcc .s).st.mtarget = 0 ∧ 2 ^ 38 ≤ (wd (2 ^ 38)).toNat ∧
    (mxDesc 1 tMx).1 = .ok (tDesc 0x7FFF0000000000 32) ∧ (mxDesc 2 tMx).1 = .ok (tDesc 0x7FFF0000001000 32) ∧
    (mxDesc 3 tMx).1 = .ok (tDesc (0x7FFF0000000000 + 31 * 2 ^ 24 + 0x800000) 64) ∧
    (∃ t, mxDesc 1 (tMcc .s) = (.error (.trap 5 0 0x40040), t)) ∧
    (parseDesc (tDesc 0x7FFF0000000000 32)).ty = 6 ∧ (tMx.cluster 0).logical.length = 24 ∧
    (8 ≤ (parseDesc (tDesc 0 64)).rows ∧ 8 ≤ (parseDesc (tDesc 0 64)).cols ∧ ¬ 1 + 8 ≤ (parseDesc (tDesc 0 64)).rows) ∧
    (tMx.cluster 0).mops.length < 32 ∧
    32 ≤ ((tMx.modCluster 0 fun c => { c with mops := List.replicate 32 default }).cluster 0).mops.length ∧
    (tMx.reg 4).toNat % 2 ^ 24 = 0 ∧ (tMx.reg 4).toNat < 2 ^ 36 ∧ (tMx.reg 2).toNat % 2 ^ 16 = 0 ∧ 6 ∈ [2, 6, 7] ∧
    3 ∉ [2, 6, 7] := by
  and_intros <;> first | decide +kernel | exact trap_part (by decide +kernel)

theorem test_hyps_MatrixOperations_pairs : pairedTypes 6 6 6 ∧ pairedTypes 12 10 6 ∧ ¬ pairedTypes 6 7 6 := by
  refine ⟨⟨.f32, .f32, by decide, by decide, by decide⟩, ⟨.ch4, .e2m1, by decide, by decide, by decide⟩, ?_⟩
  rintro ⟨x, y, hx, hy, h⟩
  rw [show Ty.ofCode 6 = some .f32 by decide] at hx
  rw [show Ty.ofCode 7 = some .f64 by decide] at hy
  obtain rfl : x = .f32 := by simpa using hx.symm
  obtain rfl : y = .f64 := by simpa using hy.symm
  revert h
  decide

/-! ### Copy jobs, invalidations, launches -/

/-- Dwords of the strand's own core from an offset. -/
def tDwords (s : State) (off : Nat) (l : List Nat) : State := s.winWrite off (l.flatMap (leBytes 8))

/-- A fill of 64 bytes at offset 0x1000, its completion word at 0x2000 and its card at 0x40; a card at 0x80 whose kind is 15. -/
def tCard : State :=
  tDwords (tDwords (tRegs (tBase .u) [(1, tWin 0x40), (2, tWin 0x80), (3, tWin 0x2000), (4, tWin 0x2020), (5, tWin 0x41)]) 0x40
    [1 + 16 + 64 * 2 ^ 32, 0, (tWin 0x1000).toNat, 0, 0, (tWin 0x1000).toNat, 2 ^ 32, (tWin 0x2000).toNat]) 0x80
    [15, 0, 0, 0, 0, 0, 0, 0]

/-- The word as it stands, of each status. -/
def tWords : State := tDwords tCard 0x2020 [1]

/-- A job that has ended, of context 0, with a completion word that can be written, and one whose word cannot. -/
def tJob (cwa : Word) : Job :=
  { (default : Job) with handle := 7, order := 1, st := .ended, status := 1, card := [1 + 16, 0, 0, 0, 0, 0, 0, cwa] }

def tJobs (j : Job) : State := (tBase .u).modCluster 0 fun c => { c with jobs := [j] }

theorem test_hyps_CopyInstructions :
    (tCard.reg 5).toNat % 64 ≠ 0 ∧ (tCard.reg 1).toNat % 64 = 0 ∧
    (∃ ws t, loadDwords tCard.who (tCard.reg 1) 8 tCard = (.ok ws, t)) ∧ (∃ ws t, loadDwords tCard.who (tCard.reg 2) 8 tCard = (.ok ws, t)) ∧
    (match (loadDwords tCard.who (tCard.reg 1) 8 tCard).1 with
     | .ok ws => (parseCard ws).ok (parseDesc []) && (parseCard ws).kind == 1 && (parseCard ws).cwa == (tWin 0x2000).toNat
     | .error _ => false) = true ∧
    (match (loadDwords tCard.who (tCard.reg 2) 8 tCard).1 with | .ok ws => !(parseCard ws).ok (parseDesc []) | .error _ => false) = true ∧
    (∃ t, storeAt tCard.who (tWin 0x2000) 8 0 (tCard.share tCard.who.owner) = (.ok (), t)) ∧
    128 ≤ ((List.replicate 128 (tJob 0)).filter fun j => j.st ≠ .settled).length ∧
    ((tCard.cluster 0).jobs.filter fun j => j.st ≠ .settled).length < 128 ∧
    (∃ t, readCompletion (tWin 0x2000) tCard = (.ok 0, t)) ∧ (∃ t, readCompletion (tWin 0x2020) tWords = (.ok 1, t)) ∧
    (∃ t, readCompletion (tWin 0x2020) (tDwords tCard 0x2020 [3]) = (.ok 3, t)) ∧
    (∃ t, loadAt tCard.who (tWin 0x2028) 8 tCard = (.ok 0, t)) ∧
    (∀ c ∈ tCard.fab.clusters, ∀ j ∈ c.2.jobs, j.handle ≠ 5 ∨ j.ctx ≠ tCard.st.ctx) := by
  and_intros <;> first | decide +kernel | exact first_part (by decide +kernel) | exact ok_part (by decide +kernel)

/-- An XCOPY in progress at this word, before its completion word is written and after, and one at another word; a queue that is full; the
write of the word that goes through, that traps, and that must wait. -/
theorem test_hyps_CopyInstructions_waiting :
    (let c : Copying := ⟨tCard.st.pc, [], [], true, false⟩
     tCard.st.copying = none ∧ (tCard.copyingAs (some c)).st.copying = some c ∧ c.pc = tCard.st.pc ∧ c.released = true ∧ c.posted = false ∧
     ({ c with posted := true } : Copying).posted = true ∧ ({ c with pc := tCard.st.pc + 4 } : Copying).pc ≠ tCard.st.pc ∧
     (∃ t, storeAt tCard.who (tWin 0x2000) 8 0 (tCard.copyingAs (some c)) = (.ok (), t)) ∧
     (∃ t, storeAt tCard.who (wd (2 ^ 55)) 8 0 (tCard.copyingAs (some c)) = (.error (.trap 0x1D 0 (wd (2 ^ 55))), t))) ∧
    (let s := tCard.modCluster 0 fun c => { c with jobs := List.replicate 128 (tJob 0) }
     128 ≤ ((s.cluster s.st.cluster).jobs.filter fun j => j.st ≠ .settled).length) ∧
    ∃ t, storeAt (tCached .s 0x18F).who 0x10008 8 0 ((tCached .s 0x18F).modFab fun f => { f with stalled := some 0 }) = (.error .wait, t) := by
  and_intros <;> first | decide +kernel | exact first_part (by decide +kernel)

/-- A fill of 64 bytes at 0x1000 of the own core, not done yet. -/
def tStarting (st : JobSt) : Job :=
  { tJob (tWin 0x2000) with st := st, card := [1 + 16 + 64 * 2 ^ 32, 0, 0, 0, 0, tWin 0x1000, 2 ^ 32, tWin 0x2000] }

theorem test_hyps_cancel :
    ((tJobs (tJob (tWin 0x2000))).fab.clusters.find? fun c => (c.2.job? 7).any fun j => j.ctx = 0) =
      some (0, (tJobs (tJob (tWin 0x2000))).cluster 0) ∧
    ((tJobs (tJob (tWin 0x2000))).cluster 0).job? 7 = some (tJob (tWin 0x2000)) ∧
    ∃ t, completeJob 0 (tJob (tWin 0x2000)).cancelled ((tJob (tWin 0x2000)).who 0) (tJobs (tJob (tWin 0x2000))) = (.ok none, t) := by
  refine ⟨by decide +kernel, by decide +kernel, first_part (by decide +kernel)⟩

/-- A job that may start, one that runs, one that has ended and whose completion word can and cannot be written, one that waits for an
older one. -/
theorem test_hyps_CopyJobEvents :
    ((tJobs (tJob (tWin 0x2000))).cluster 0).job? (wd 7) = some (tJob (tWin 0x2000)) ∧ (tJob (tWin 0x2000)).st = .ended ∧
    (∃ t, writeCompletion 0 (tJob (tWin 0x2000)) ((tJob (tWin 0x2000)).who 0) (tJobs (tJob (tWin 0x2000))) = (.ok (), t)) ∧
    (∃ t, writeCompletion 0 (tJob (wd (2 ^ 55))) ((tJob (wd (2 ^ 55))).who 0) (tJobs (tJob (wd (2 ^ 55)))) =
      (.error (.trap 0x1D 0 (wd (2 ^ 55))), t)) ∧
    ((tJobs (tStarting .queued)).cluster 0).mayStart (tStarting .queued) = true ∧
    (∃ u, settleFor 0 (tStarting .queued) (tJobs (tStarting .queued)) = (.ok (), u)) ∧
    (∃ e t, moveJob 0 (tStarting .queued) (some 1) (tJobs (tStarting .queued)) = (.ok e, t)) ∧
    (∃ e t, moveJob 0 (tStarting .running) none (tJobs (tStarting .running)) = (.ok e, t)) ∧
    (((tBase .u).modCluster 0 fun c => { c with jobs := [{ tStarting .queued with handle := 8, order := 0 }, tStarting .queued] }).cluster 0
      |>.mayStart (tStarting .queued)) = false ∧
    (∃ u, endContext 0 0x15 0 (tBase .u) = (.ok (), u)) := by
  and_intros <;> first | decide +kernel | exact first_part (by decide +kernel) | exact ok_part (by decide +kernel)

/-- A page of a peer, in a domain; then with the write-back that was asked of it. -/
def tPeer : State := ((tCached .s (0x18F + 2 ^ 47 + 7 * 2 ^ 48)).modFab fun f => { f with domain := some 3 })
def tAsking : State := { tPeer with st := { tPeer.st with asks := [⟨7, 0x10000, 0x100, false⟩] } }

theorem test_hyps_InvalidationsAndWriteBack :
    2 ^ 12 ≤ (wd (2 ^ 12)).toNat ∧ (wd (2 ^ 12 - 1)).toNat < 2 ^ 12 ∧ (tBase .s).st.mode = .s ∧ (tBase .u).passesInFlight = false ∧
    (tPasses tVec [tPass .running []]).passesInFlight = true ∧
    (∃ c ∈ tHeldDirty.mem.caches, tHeldDirty.holdsDirty c.1 = true) ∧ (∀ c ∈ tDirty.mem.caches, tDirty.holdsDirty c.1 = false) ∧
    (tBase .s).reg 0 = 0 ∧ (tBase .s).st.asks = [] ∧
    (∃ t, writeBackPages (tMapped .s).who 0x10000 0x30000 4 (tMapped .s) = (.ok (), t)) ∧
    (∃ t, writeBackPages (tBase .s).who 0x10000 0x30000 4 (tBase .s) = (.error (.trap 5 0 0x10000), t)) ∧
    (∃ t, writeBackPages tPeer.who 0x10000 0x10100 2 tPeer = (.ok (), t)) ∧
    (∃ k ∈ tAsking.st.asks, k.peer = 7 ∧ k.pa = 0x10000 ∧ k.len = 0x100) ∧ tPeer.st.asks = [] ∧
    (peerFails 7 tPeer).1 = .ok false := by
  and_intros <;> first | decide +kernel | exact first_part (by decide +kernel)

/-- Entries that an invalidation names and does not name; a page of the cluster window, one that is not canonical, and pages whose leaf is
held: of local HBM, in a stalled window too, of a peer and of the host. -/
theorem test_hyps_InvalidationsAndWriteBack_pages :
    (let s := (tBase .s).modMem fun m => { m with
       tlbs := [(0, [⟨0, false, 0, 34, 0x18F⟩, ⟨3, false, 0, 34, 0x18F⟩, ⟨3, true, 0, 34, 0x18F⟩])] , walks := [(0, [⟨3, 1, 34, 0⟩])] }
     s.mem.tlbs ≠ [] ∧ s.mem.walks ≠ [] ∧ (∀ c ∈ s.mem.caches, s.holdsDirty c.1 = false) ∧ s.st.mode = .s) ∧
    (tLine.mem.sound ∧ 0 < 16 ∧ ∃ l ∈ tLine.cache 0, l.tag = 0x1000 / 64 ∧ l.dirtyAt (0x1000 % 64) ≠ 0) ∧
    (inClusterWindow (tWin 0x100).toNat ∧ ¬ inClusterWindow 0x10008 ∧ canonical (wd (2 ^ 55)) = false ∧ canonical (wd 0x10008) = true ∧
      (0x10008 : Nat) < 0x10100 ∧ 0x10100 ≤ 2 ^ 64) ∧
    (∃ q t, leafOf tLine.who .load (wd 0x10008) (tCached .s 0x18F) = (.ok q, t)) ∧
    (∃ t, leafOf tLine.who .load (wd 0x10008) (tBase .s) = (.error (.trap 5 0 0x10008), t)) ∧
    ((tCached .s 0x18F).isStalled 0x10008 = false ∧ ((tCached .s 0x18F).modFab fun f => { f with stalled := some 0 }).isStalled 0x10008 = true) ∧
    (lfMt 0x18F = 0 ∧ lfMt (0x18F + 2 ^ 46) = 1 ∧ lfMt (0x18F + 2 ^ 47) = 2) ∧
    ∃ u, askPeer tPeer.who 7 0x10008 0xF8 tPeer = (.ok (), u) := by
  unfold inClusterWindow Mem.sound
  and_intros <;> first | decide +kernel | exact first_part (by decide +kernel) | exact ok_part (by decide +kernel)

/-- A record at offset 0x100 that is accepted, and one at 0x180 whose entry is no multiple of 4. -/
def tRecord : State :=
  tDwords (tDwords (tRegs (tBase .u) [(1, tWin 0x100), (2, tWin 0x180), (3, tWin 0x101)]) 0x100
    [0x10000, 0, 0, 1 + 2 ^ 32, 1 + 2 ^ 32, 0, 0, (tWin 0x4000).toNat, 0xE4 * 2 ^ 24 + 2 ^ 32, 0, 0, 0, 0, 0, 0, 0]) 0x180
    [0x10002, 0, 0, 1 + 2 ^ 32, 1 + 2 ^ 32, 0, 0, (tWin 0x4000).toNat, 0xE4 * 2 ^ 24 + 2 ^ 32, 0, 0, 0, 0, 0, 0, 0]

theorem test_hyps_LaunchInstruction :
    (tRecord.reg 3).toNat % 128 ≠ 0 ∧ (tRecord.reg 1).toNat % 128 = 0 ∧ tRecord.ctx? 0 = some loadCtx ∧ tRecord.intakeFull = false ∧
    (tRecord.modSys fun y => { y with launches := List.replicate 2048 default }).intakeFull = true ∧
    tRecord.holdsDirty 0 = false ∧ tHeldDirty.holdsDirty 0 = true ∧
    (∃ ws t, loadDwords tRecord.who (tRecord.reg 1) 16 tRecord = (.ok ws, t)) ∧
    (match (loadDwords tRecord.who (tRecord.reg 1) 16 tRecord).1 with
     | .ok ws => !tRecord.rejects loadCtx (parseRec ws)
     | .error _ => false) = true ∧
    (match (loadDwords tRecord.who (tRecord.reg 2) 16 tRecord).1 with
     | .ok ws => tRecord.rejects loadCtx (parseRec ws)
     | .error _ => false) = true ∧
    (∃ t, rejectRec loadCtx (parseRec []) tRecord = (.ok (), t)) ∧
    ∃ t, loadDwords (tBase .u).who 0x80 16 (tBase .u) = (.error (.trap 5 0 0x80), t) := by
  and_intros <;> first | decide +kernel | exact first_part (by decide +kernel) | exact ok_part (by decide +kernel)

/-- A LAUNCH in progress at this word, before and after its release, and one at another word; a record's completion that must wait. -/
theorem test_hyps_LaunchInstruction_waiting :
    (let l : Launching := ⟨tRecord.st.pc, [], 0, true⟩
     (tRecord.launchingAs (some l)).st.launching = some l ∧ l.pc = tRecord.st.pc ∧ l.released = true ∧
     ({ l with released := false } : Launching).released = false ∧ ({ l with pc := tRecord.st.pc + 4 } : Launching).pc ≠ tRecord.st.pc) ∧
    tRecord.st.launching = none ∧
    ∃ t, rejectRec loadCtx (parseRec []) tHeldDirty = (.error .wait, t) := by
  and_intros <;> first | decide +kernel | exact wait_part (by decide +kernel)

/-- Four jobs that run; an older one of the context that conflicts. -/
theorem test_hyps_CopyJobEvents_engines :
    4 ≤ ((List.replicate 4 (tStarting .running)).filter fun k => k.st = .running).length ∧
    ∃ k ∈ [{ tStarting .queued with order := 0 }], k.ctx = (tStarting .queued).ctx ∧ k.order < (tStarting .queued).order ∧
      k.st ≠ .settled ∧ conflicts k.c (tStarting .queued).c = true := by
  decide +kernel

/-! ### Passes, deferred traps, interrupts -/

/-- A pass in flight that is done, or has `n` elements to go. -/
def tRun (st : PassSt) (checked : Bool) (next : Nat) (fault : Option PFault) (sinks : List Sink) : Pass :=
  { tPass st sinks with checked := checked, next := next, fault := fault, serial := 0 }

def tFault : PFault := { (default : PFault) with cause := 6, eva := 0x1234, blame := 0x100 }

/-- A load of four elements of f32 at an address, and its sum to s5. -/
def tLoads (va : Word) (st : PassSt) (checked : Bool) : Pass :=
  { tRun st checked 0 none [{ tRed with id := 8, data := [7] }] with
    wps := [{ tWp 7 (some .f32) with op := .vld 0 0 va .f32, major := 0x16 }] }

/-- A waiting pass; a running one whose checks are to be made, and whose strip goes through; one that faults as a whole; one that is
done. -/
theorem test_hyps_PassEvents :
    (tPasses tVec [tRun .waiting false 0 none []]).runs (tPasses tVec [tRun .waiting false 0 none []]).st = true ∧
    (tRun .running false 0 none []).st = .running ∧ (tRun .running false 0 none []).fault = none ∧
    (tRun .running false 0 none []).checked = false ∧ ffLoads (tRun .waiting false 0 none []) = [] ∧
    wholeFault tVec.st { tRun .running false 0 none [] with base := 0 } none = none ∧
    (∃ u, checkPass 0 (tRun .running false 0 none []) none (tPasses tVec [tRun .waiting false 0 none []]) = (.ok (), u)) ∧
    (∃ q u, readDescs tVec.st (tRun .running false 0 none []) tVec = (.ok q, u)) ∧
    (wholeFault tVec.st (tRun .running false 0 none []) (some tFault)).isSome = true ∧
    (tRun .running true 4 none [tRed]).remains = false ∧
    (∃ u, writeWaymarks (tRun .running true 4 none [tRed]) tVec = (.ok (), u)) ∧ tVec.st.sr.wmsize.toNat % 2 ^ 32 = 0 ∧
    (sinkResult (tRun .running true 4 none [tRed]) tRed).isSome = true ∧ tRed.isVstc = false := by
  and_intros <;> first | decide +kernel | exact first_part (by decide +kernel) | exact ok_part (by decide +kernel)

/-- A tile whose descriptor has not been read; a load whose strip goes through; one that waits at a stalled window, and one whose
access faults. -/
theorem test_hyps_PassEvents_strips :
    (let p : Pass := { tRun .waiting false 0 none [] with wps := [{ tWp 7 (some .f32) with op := .vldtd 0 0 3 .f32 }] }
     p.fault = none ∧ p.descs = [] ∧ ∃ x ∈ p.nodes, (x.tensor p.asked).isSome = true) ∧
    (tLoads (tWin 0x100) .running true).remains = true ∧
    (∃ u, stripTurn 0 (tLoads (tWin 0x100) .running true) (tPasses tVec [tLoads (tWin 0x100) .running true]) = (.ok (), u)) ∧
    (∃ u, runStrip 0 (tLoads (wd (2 ^ 55)) .running true) (tPasses tVec [tLoads (wd (2 ^ 55)) .running true]) = (.ok (), u)) ∧
    (∃ u, stripTurn 0 (tLoads 0x10000 .running true)
      ((tCached .s 0x18F).modFab fun f => { f with stalled := some 0 }) = (.error .wait, u)) := by
  and_intros <;> first | decide +kernel | exact first_part (by decide +kernel)

/-- A strand that takes interrupts of every source, and a queue with an event of each. -/
def tServe (f : Cluster → Cluster) : State :=
  ((tBase .u).modSr fun r => { r with istatus := 15 }).modCluster 0 f

theorem test_hyps_DeferredTrapsAndInterrupts :
    (tPasses tVec [tRun .running true 0 (some tFault) []]).runs (tPasses tVec [tRun .running true 0 (some tFault) []]).st = true ∧
    (tRun .running true 0 (some tFault) []).fault = some tFault ∧
    (let s : State := { tVec with st := { tVec.st with mtraps := [⟨0x12, 8, 0x10, 0x20⟩] } }
     s.st.faulted = none ∧ s.runs s.st = true) ∧
    tVec.st.deferred = false := by
  refine ⟨by decide +kernel, by decide +kernel, ?_, by decide +kernel⟩
  decide +kernel

def tServing : Strand := ((tBase .u).modSr fun r => { r with istatus := 15 }).st

theorem tServe_of (f : Cluster → Cluster) (x : Source) (h : ((f Cluster.fresh).queued x) = true) :
    (tServe f).queueFor x = some 0 := by
  have h0 : (tServe f).cluster 0 = f Cluster.fresh := by
    simp [tServe, State.cluster, State.modCluster, State.modFab, Fabric.cluster, Fabric.setCluster, aget, aset, tBase, State.reset,
      Fabric.fresh, State.modSr]
  have hs : (tServe f).strands = [(tServe f).st] := by
    simp [State.strands, tServe, State.modCluster, State.modFab, State.modSr, tBase, State.reset]
  have hv : ∀ y, tServing.serves y = true := by intro y; cases y <;> decide +kernel
  have ht : (tServe f).st = tServing := rfl
  have hq : (tServe f).serviceOf 0 x = some (tServe f).st := by
    simp only [State.serviceOf, hs]
    rw [List.filter_cons_of_pos (by simp [ht, hv x]; rfl)]
    simp
  have hc : (tServe f).st.cluster = 0 := rfl
  simp only [State.queueFor, hc, hq, h0, h]
  simp

/-- An event of each source waits in the strand's own cluster. -/
theorem test_hyps_interrupts :
    (tServe fun c => { c with bg := [⟨1, 2, 3⟩] }).queueFor .bgf = some 0 ∧
    (tServe fun c => { c with ras := [7] }).queueFor .ras = some 0 ∧
    (tServe fun c => { c with bells := 1 }).queueFor .mbx = some 0 ∧
    (tServe fun c => { c with notes := [⟨5, 1⟩] }).queueFor .note = some 0 :=
  ⟨tServe_of _ _ rfl, tServe_of _ _ rfl, tServe_of _ _ rfl, tServe_of _ _ rfl⟩

/-! ### Markers, the matrix engine, launches -/

theorem test_hyps_BlockSums :
    (∀ x ∈ ([(.num false 3 0 false, false)] : List (FVal × Bool)), x.1.finite) ∧
    ([(.num false 3 0 false, false)] : List (FVal × Bool)) ≠ [] ∧ (decodeF fmtF32 0x3F800000).finite ∧
    (∀ x ∈ ([(.num false 3 0 false, false)] : List (FVal × Bool)), ∃ n m, x.1 = .num n m 0 false) ∧
    (([(.num false 3 0 false, false)] : List (FVal × Bool)).map fun x => x.1.real).sum = ((3 : ℤ) : ℝ) := by
  have h : decodeF fmtF32 0x3F800000 = .num false (2 ^ 23) (-23) false := by decide +kernel
  rw [h]
  refine ⟨by simp [FVal.finite], by simp, rfl, ?_, by norm_num [FVal.real]⟩
  intro x hx
  exact ⟨false, 3, by simp at hx; rw [hx]⟩

/-- Terms that cancel, terms that are all -0, a NaN, infinities of both signs and of one; factors of each kind. -/
theorem test_hyps_BlockSums_special :
    (FVal.num true 1 0 false).real + (decodeF fmtF32 0x3F800000).real = 0 ∧
    ((FVal.num true 0 0 false).finite ∧ (FVal.num true 0 0 false).real = 0 ∧ (decodeF fmtF32 0x80000000).real = 0) ∧
    (FVal.nan false).isNan = true ∧ ((FVal.inf true).isInf = true ∧ (FVal.inf true).neg = true ∧ (FVal.inf false).neg = false) ∧
    ((FVal.num false 3 0 false).finite ∧ (FVal.num false 3 0 false).real ≠ 0) ∧ 6 ≠ 7 := by
  have h : decodeF fmtF32 0x3F800000 = .num false (2 ^ 23) (-23) false := by decide +kernel
  have hz : decodeF fmtF32 0x80000000 = .num true 0 (-149) false := by decide +kernel
  rw [h, hz]
  and_intros <;> first | rfl | decide | norm_num [FVal.real]

/-- An operation that has run no k-block yet, with a fresh accumulator for each place. -/
def tMop : MOp :=
  { (default : MOp) with
    id := 1, sid := 1, m := 8, n := 8, mask := 1, kcnt := 8
    descs := (tDesc 0x7FFF0000000000 32, tDesc 0x7FFF0000001000 32, tDesc (0x7FFF0000000000 + 31 * 2 ^ 24 + 0x800000) 64) }

def tStarted : MOp := { tMop with started := true, accs := List.replicate tMop.places.length default }

theorem test_hyps_BlockSums_blocks :
    tStarted.failed = 0 ∧ tStarted.accs.length = tStarted.places.length ∧ tStarted.places[0]? = some (0, 0, 0) ∧
    tStarted.accs[0]? = some default ∧ 0 < tStarted.rowsIn ∧ 0 < tStarted.colsIn ∧ 0 < tStarted.kb ∧ 0 < tStarted.kblocks := by
  decide +kernel

/-- A marker that may fire at the phase under way and at the next; one that is not due; one that waits for what is owed. -/
theorem test_hyps_markers :
    (let s := { tGroup 1 with st := { (tGroup 1).st with markers := [⟨0, 0, 0, []⟩] } }
     s.st.stand = .resident ∧ s.markerReady s.st ⟨0, 0, 0, []⟩ = true ∧ s.st.groupIdx 0 = some 3 ∧
     s.groupAt s.st.ctx 3 = some ⟨1, 0, 0, 0, 0, 2⟩ ∧ (1 + 0 < 2 ∧ 2 ≤ 2 + 0 ∧ 0 < 2 ∧ 0 + 0 < 2)) ∧
    (let s := tPasses { tGroup 1 with st := { (tGroup 1).st with markers := [⟨0, 0, 1, []⟩] } } [tRun .running true 0 none []]
     s.markerDue s.st ⟨0, 0, 1, []⟩ = false) ∧
    (∃ u, releaseAt 0 tOwed.who.owner .sys tOwed = (.error .wait, u)) := by
  and_intros <;> first | decide +kernel | exact wait_part (by decide +kernel)

/-- An MZERO and an MMA that are next, an MMA that has started, one that has run. -/
theorem test_hyps_MarkersAndMatrixEvents :
    (let o : MOp := { tMop with zero := true }
     let s := (tMcc .s).modCluster 0 fun c => { c with mops := [o] }
     ((s.latchSlot 0).cluster 0).nextMop = some o ∧ s.mem.wf = true) ∧
    (let s := (tMcc .s).modCluster 0 fun c => { c with mops := [tMop] }
     ((s.latchSlot 0).cluster 0).nextMop = some tMop ∧ ∃ hs u, tMop.hdrs.mapM (readHdr 0 tMop) (s.latchSlot 0) = (.ok hs, u)) ∧
    (let s := (tMcc .s).modCluster 0 fun c => { c with mops := [tStarted] }
     ((s.latchSlot 0).cluster 0).nextMop = some tStarted ∧ tStarted.zero = false ∧ tStarted.failed = 0 ∧ tStarted.kdone < tStarted.kblocks ∧
     tStarted.sid = s.st.sid ∧ s.st.stand ≠ .none ∧ 0 ∈ tStarted.targets ∧ (1 : BitVec 24).getLsbD 0 = true ∧ tStarted.hasSum = true) ∧
    (let o : MOp := { tMop with done := true }
     (((tMcc .s).modCluster 0 fun c => { c with mops := [o] }).cluster 0).mops.find? (fun o => o.done) = some o) := by
  refine ⟨by decide +kernel, ⟨by decide +kernel, ok_part (by decide +kernel)⟩, by decide +kernel, by decide +kernel⟩

/-- A launch of one iteration in context 0, for cluster 0. -/
def tLaunch : Launch :=
  { (default : Launch) with
    id := 4
    bounds := [1, 1, 1, 1]
    order := [0, 1, 2, 3]
    clmask := [0]
    eligible := true
    entry := 0x10000 }

def tCtx : Ctx := { loadCtx with saveCount := 4 }

/-- The device with that launch, on which no strand stands. -/
def tFree (l : Launch) : State :=
  { tBase .u with st := Strand.fresh, sys := { Sys.fresh with ctxs := [tCtx], launches := [l] } }

/-- A record in local HBM at 0x2000 of context 0, and one of context 5, which is not active. -/
def tPort : State :=
  ((tFree tLaunch).devWrite 0 0x2000 ([0x10000, 0, 0, 1 + 2 ^ 32, 1 + 2 ^ 32, 0, 0, 0, 0xE4 * 2 ^ 24 + 2 ^ 32].flatMap (leBytes 8))).devWrite
    0 0x2040 (leBytes 8 (0xE4 * 2 ^ 24 + 2 ^ 32))

def tAsked (s : State) (a : Nat) : Rec :=
  parseRec ((List.range 16).map fun i => wd (leNat (((s.devRead 0 a 128).drop (8 * i)).take 8)))

/-- The launch, done; and one whose condition is a dword at 0x3000 of local HBM, which its context maps. -/
def tOver : Launch := { tLaunch with placed := 1, exits := 1 }
def tWaits : Launch := { tLaunch with eligible := false, waitaddr := 0x3000 }
def tPolled : State := (tFree tWaits).devWrite 0 0x1000000 (leBytes 8 loadLeaf)

theorem test_hyps_LaunchEvents :
    (wd (384 * 2 ^ 31 - 128)).toNat % 128 = 0 ∧ (wd (384 * 2 ^ 31 - 128)).toNat + 128 ≤ tPort.capacity ∧
    tPort.capacity < (wd (384 * 2 ^ 31)).toNat + 128 ∧ (wd 1).toNat % 128 ≠ 0 ∧ tPort.intakeFull = false ∧
    tPort.linePoison (0x2000 / 64) = false ∧ tPort.linePoison (0x2000 / 64 + 1) = false ∧ tPort.ctx? (tAsked tPort 0x2000).ctxid = some tCtx ∧
    tPort.rejects tCtx (tAsked tPort 0x2000) = false ∧ tPort.rejects tCtx (tAsked tPort 0x4000) = true ∧ tPort.ctx? 5 = none ∧
    (∃ t, rejectRec tCtx (tAsked tPort 0x4000) tPort = (.ok (), t)) ∧ tPort.launch? 4 = some tLaunch ∧ tPort.launchDone tLaunch = false ∧
    tPort.kept tLaunch = true ∧
    (tFree tOver).launchDone tOver = true ∧ tOver.mtrap = none ∧ (tFree tOver).kept tOver = false ∧
    (∃ ok t, writeRecord tCtx tOver.cra tOver.handle 0 0 (tFree tOver) = (.ok ok, t)) ∧ tWaits.eligible = false ∧
    (∃ t, translate tCtx.who .load tWaits.waitaddr 8 tPolled = (.ok (.hbm 0x3000 0), t)) ∧
    ∃ v t, pointRead tCtx.who .sys tWaits.waitaddr (.hbm 0x3000 0) 8 tPolled = (.ok v, t) := by
  and_intros <;> first | decide +kernel | exact first_part (by decide +kernel) | exact ok_part (by decide +kernel)

/-- A port that is free, one behind a held access, one of an insecure link; a condition whose address does not translate. -/
theorem test_hyps_LaunchEvents_waits :
    (false ∉ tPort.host.insecure ∧ (∀ a ∈ tPort.sys.held, a.source ≠ some false) ∧ tPort.toll.recovery = false) ∧
    (∃ a ∈ (tPort.modSys fun y => { y with held := [.bar2Read false 0 8] }).sys.held, a.source = some false) ∧
    (∃ t, translate tCtx.who .load (wd 0x3000) 8 (tFree tLaunch) = (.error (.trap 5 0 (wd 0x3000)), t)) ∧
    (∃ u, endContext 0 0x15 (wd 0x3000) (tFree tLaunch) = (.ok (), u)) ∧
    tPort.isStalled 0x2000 = false := by
  and_intros <;> first | decide +kernel | exact first_part (by decide +kernel)

/-- A pass that is done and whose sum of f32 still holds a signalling NaN, with and without a trap for NV. -/
def tLate (fpctl : Word) : Pass :=
  { tRun .running true 4 none [{ tRed with id := 8, data := [7], fpctl := fpctl }] with
    wps := [{ tWp 7 (some .f32) with op := .mov }], parts := [⟨8, [(0, 0x7F800001)], 0, []⟩] }

theorem test_hyps_PassEvents_late :
    (tLate 0x100).fault = none ∧ (tLate 0x100).checked = true ∧ (tLate 0x100).remains = false ∧ (tLate 0x100).st = .running ∧
    afind (partOf (tLate 0x100).parts 8).accs 0 = some 0x7F800001 ∧ tyFmt ((tLate 0x100).wpTy 7) = some fmtF32 ∧
    (decodeF fmtF32 0x7F800001).isSnan = true ∧
    ((0x100 : Word).toNat / 16 % 32 &&& flNV.toNat ≠ 0 ∧ (0 : Word).toNat / 16 % 32 &&& flNV.toNat = 0) ∧
    (∃ u, writeWaymarks (tLate 0) (tPasses tVec [tLate 0]) = (.ok (), u)) := by
  and_intros <;> first | decide +kernel | exact first_part (by decide +kernel)

/-- R214: NV of such a sum reaches FPFLAGS when the pass completes, or is the trap of its sink. -/
theorem test_late_nan :
    (match exec .passComplete (tPasses tVec [tLate 0]) with
     | .next t => t.st.sr.fpflags == flNV.setWidth 64 && t.reg 5 == 0x7FC00000 && t.st.passes.isEmpty
     | _ => false) = true ∧
    (match exec .passComplete (tPasses tVec [tLate 0x100]) with
     | .next t => t.st.sr.fpflags == 0 && (t.st.passes.map fun p => (p.fault.map fun f => (f.elem, f.cause))) == [some (4, 0x0D)]
     | _ => false) = true := by decide +kernel

/-- A job of kind `k` of `n` bytes from a source to 0x1100 of the own core. -/
def tMoves (k n : Nat) (src : Word) : Card :=
  parseCard [wd (k + 16 + n * 2 ^ 32), src, tWin 0x1100, 0, tWin 0x1000, tWin 0x1000, wd (2 ^ 32 * 0x1000 + 0x1000), tWin 0x2000]

def tMover : Who := (tStarting .running).who 0

/-- A copy of two bytes from window to window, and its first unit: what it gathers and performs; a fill. -/
theorem test_hyps_CopyJobEvents_moves :
    ((tMoves 0 2 (tWin 0x1000)).kind = 0 ∧ (tMoves 0 2 (tWin 0x1000)).len = 2 ∧ 0 < (tMoves 0 2 (tWin 0x1000)).len ∧
      (tMoves 1 2 5).kind = 1) ∧
    (∀ i < 2, isWindow (wd ((tMoves 0 2 (tWin 0x1000)).src + i)) = true ∧ isWindow (wd ((tMoves 0 2 (tWin 0x1000)).dst + i)) = true ∧
      (windowKey tMover .load (wd ((tMoves 0 2 (tWin 0x1000)).src + i)) 1 (tBase .u)).1 = .ok (0x1000 + i) ∧
      (windowKey tMover .store (wd ((tMoves 0 2 (tWin 0x1000)).dst + i)) 1 (tBase .u)).1 = .ok (0x1100 + i)) ∧
    (0x1000 + 2 ≤ 0x1100 ∧ rangeSize (tMoves 0 2 (tWin 0x1000)).src 2 = 1 ∧ (tBase .u).mem.wf = true) ∧
    (∃ u, gatherRuns tMover (tMoves 0 2 (tWin 0x1000)) (jobSource tMover (tMoves 0 2 (tWin 0x1000))) 0 2 (tBase .u) =
      (.ok (.ok [⟨.win 0x1100, [0, 0], false⟩]), u)) ∧
    (∃ v, ([⟨.win 0x1100, [0, 0], false⟩] : List JobRun).reverse.forM (performRun tMover) (tBase .u) = (.ok (), v)) ∧
    (∃ u, jobSource tMover (tMoves 1 2 5) 0 (tBase .u) = (.ok (5, false), u)) ∧
    (∃ u, gatherRuns tMover (tMoves 0 2 (wd (2 ^ 55))) (jobSource tMover (tMoves 0 2 (wd (2 ^ 55)))) 0 2 (tBase .u) =
      (.ok (.error (.trap 0x1D 0 (wd (2 ^ 55)))), u)) ∧
    (∃ t, performRun tMover ⟨.win 0x1100, [0, 0], true⟩ (tBase .u) = (.ok (), t)) := by
  and_intros <;> first | decide +kernel | exact first_part (by decide +kernel) 

/-- A gather by the indices 1 and 0 that stand at 0x1800, its elements in its footprint and out of it. -/
def tGather (src : Word) : Card := { tMoves 2 8 src with esize := 2, aux := (tWin 0x1800).toNat }
def tIndexed : State := (tBase .u).winWrite 0x1800 (leBytes 4 1 ++ leBytes 4 0)

/-- That chunk with the CRC of its bytes. -/
def tGood : State := (tChunk 21 1).winWrite 0x5008 (leBytes 8 (crc64 (List.replicate 16 7)))

/-- An index that is read; the bytes of a window, of local HBM, of a host page; a source that must wait, one that faults, a destination that
faults; a poisoned run; a chunk that is decoded and one that is not. -/
theorem test_hyps_CopyJobEvents_sources :
    (let k := tGather (tWin 0x1000)
     k.kind = 2 ∧ k.size = 4 ∧ (∃ u, jobIndex tMover k 0 tIndexed = (.ok 1, u)) ∧
     within ((tWin 0x1004).toNat, (tWin 0x1004).toNat + 4) k.readFoot = true ∧
     within ((tWin 0xFFC).toNat, (tWin 0xFFC).toNat + 4) k.readFoot = false) ∧
    (∃ u, translate tMover .load (tWin 0x1000) 1 (tBase .u) = (.ok (.win 0x1000), u)) ∧
    (∃ u, translate { tMover with tlb := 0 } .load 0x10008 1 (tCached .s 0x19F) = (.ok (.hbm 0x10008 0), u)) ∧
    (∃ u, translate { tMover with tlb := 0, ctx := 0 } .load 0x10008 1 (tCached .s (0x19F + 2 ^ 46)) = (.ok (.host 0x10008), u)) ∧
    (∃ u, jobSource tMover (tMoves 0 2 (wd (2 ^ 55))) 0 (tBase .u) = (.error (.trap 0x1D 0 (wd (2 ^ 55))), u)) ∧
    (∃ u, translate tMover .store (wd (2 ^ 55)) 1 (tBase .u) = (.error (.trap 0x1D 0 (wd (2 ^ 55))), u)) ∧
    (∃ u, gatherRuns { tMover with tlb := 0 } (tMoves 0 2 0x10008) (jobSource { tMover with tlb := 0 } (tMoves 0 2 0x10008)) 0 2
      ((tCached .s 0x19F).modFab fun f => { f with stalled := some 0 }) = (.ok (.error .wait), u)) ∧
    (∃ bs u, jobChunk tMover (tMoves 3 16 0) tZ 0 16 tGood = (.ok bs, u)) ∧
    (∃ u, jobChunk tMover (tMoves 3 16 0) tZ 0 16 (tChunk 21 7) = (.error (.trap 0x11 3 (tZ.slotAddr 0)), u)) ∧
    (∃ v, gatherRuns tMover (tMoves 3 16 0) (fun a => pure (([] : List Byte).getD a 0, false)) 0 16 (tBase .u) =
      (.ok (.ok [⟨.win 0x1100, List.replicate 16 0, false⟩]), v)) := by
  and_intros <;> first | decide +kernel | exact first_part (by decide +kernel) | exact trap_part (by decide +kernel) | exact ok_part (by decide +kernel)

/-- R79, R83: a copy of 70 bytes from window to window: its first unit is 64 bytes, its second 6; what lies beside them stays. -/
theorem test_copy_moves :
    (let k := tMoves 0 70 (tWin 0x1000)
     let s := (tBase .u).winWrite 0x1000 ((List.range 70).map fun i => BitVec.ofNat 8 (i + 1))
     match moveBytes tMover k 0 1 s, moveBytes tMover k 64 1 s with
     | (.ok a, t), (.ok b, u) =>
       a == ⟨64, none⟩ && b == ⟨70, none⟩ && t.winRead 0x10FF 3 == [0, 1, 2] && t.winRead 0x113F 2 == [64, 0] &&
       u.winRead 0x113F 2 == [0, 65] && u.winRead 0x1145 2 == [70, 0]
     | _, _ => false) = true := by decide +kernel

/-! ### Strands placed, pre-empted and restored -/

/-- Lane group 0 of core 0, slot 0. -/
def tSpot : Spot := ⟨0, 0, 0, 1, false⟩

theorem tFree_ordered : (tFree tLaunch).ordered = [tLaunch] := by
  have h : (tFree tLaunch).sys.launches.filter (tFree tLaunch).kept = [tLaunch] := by decide +kernel
  unfold State.ordered
  rw [h]
  simp

theorem test_hyps_StrandPlacement :
    (tFree tLaunch).launch? 4 = some tLaunch ∧ (tFree tLaunch).ctx? tLaunch.ctx = some tCtx ∧
    tLaunch.gang = 1 ∧ (∃ f, (tFree tLaunch).firstUser tLaunch.span tSpot = some f ∧ f.id = tLaunch.id) ∧
    (∀ t ∈ (tFree tLaunch).savedOf tLaunch, (tFree tLaunch).spotBack tLaunch t tSpot = false) ∧
    (tFree tLaunch).mayBegin tLaunch = true ∧ (tFree tLaunch).spotNew tLaunch tSpot = true ∧
    (tFree tLaunch).holdsDirty tSpot.cluster = false ∧ tLaunch.order = [0, 1, 2, 3] ∧ ([0, 1, 2, 3] : List Nat).Perm [0, 1, 2, 3] ∧ tLaunch.bounds.length = 4 ∧ 0 < tLaunch.product := by
  refine ⟨by decide +kernel, by decide +kernel, by decide +kernel, ⟨tLaunch, ?_, rfl⟩, by decide +kernel, by decide +kernel, by decide +kernel, by decide +kernel, rfl,
    List.Perm.refl _, rfl, by decide +kernel⟩
  have hv : (tFree tLaunch).victims = [] := by
    unfold State.victims State.stuckLaunch
    rw [tFree_ordered]
    decide +kernel
  unfold State.firstUser State.bids
  rw [hv, tFree_ordered]
  decide +kernel

/-- A launch that places two iterations together, with a rule for slot 0 and none for slot 1, and one that its cluster has admitted. -/
theorem test_hyps_StrandPlacement_gang :
    [tSpot].length ≠ ({ tLaunch with cor := true, bounds := [2, 1, 1, 1], rules := [some ⟨1, 1, 2, 0⟩] } : Launch).gang ∧
    (let l : Launch := { tLaunch with rules := [some ⟨1, 1, 2, 0⟩] }
     l.rules.getD 0 none = some ⟨1, 1, 2, 0⟩ ∧ l.rules.getD 1 none = none) ∧
    4 ∉ ((tFree tLaunch).cluster 0).admitted ∧ 4 ∈ (((tFree tLaunch).admitTo 4 0).cluster 0).admitted := by decide +kernel

/-- A resident strand of a fenced core, whose save area at 0x20000 can be written. -/
def tFenced : State :=
  ((tMapped .s).modCore 0 0 fun k => { k with fenced := true }).modSr fun r => { r with savearea := 0x20000 }

/-- The launch's strand, saved; its area, all zeros but for a CRC and a format number, in core 5's scratchpad. -/
def tSaved (crc format : Nat) : State :=
  let s : State := { tFree { tLaunch with placed := 1 } with
    st := { Strand.fresh with
      sid := 1
      stand := .saved
      launch := 4
      saveAddr := tWin (5 * 2 ^ 24) } }
  tDwords s (5 * 2 ^ 24 + 0x340) [crc, format]

theorem tSaved_ordered (crc format : Nat) (h : (tSaved crc format).sys.launches.filter (tSaved crc format).kept = [{ tLaunch with placed := 1 }]) :
    (tSaved crc format).ordered = [{ tLaunch with placed := 1 }] := by
  unfold State.ordered
  rw [h]
  simp

/-- That strand stopped, with its release made. -/
def tStopped : State := (({ tFenced with st := tFenced.st.halt } : State).release 0 .dev).share tFenced.who.owner

theorem test_hyps_PreemptionAndRestore :
    tFenced.st.stand = .resident ∧ tFenced.onFenced tFenced.st = true ∧ tFenced.st.sr.savearea.toNat % 8192 = 0 ∧
    tFenced.holdsDirty tFenced.st.cluster = false ∧ tHeldDirty.holdsDirty tHeldDirty.st.cluster = true ∧
    ∃ x t, devStore { tStopped.who with user := false } 0x20000 (tStopped.saveBytes tStopped.free) 130
      { tStopped with free := tStopped.free + 1 } = (.ok x, t) := by
  and_intros <;> first | decide +kernel | exact ok_part (by decide +kernel)

theorem test_hyps_StrandRestore :
    (tSaved 0 0).launch? (tSaved 0 0).st.launch = some { tLaunch with placed := 1 } ∧
    (tSaved 0 0).ctx? (tSaved 0 0).st.ctx = some tCtx ∧ (tSaved 0 0).st.stand = .saved ∧
    (∃ f, (tSaved 0 0).firstUser (tSaved 0 0).st.span tSpot = some f ∧ f.id = 4) ∧
    (tSaved 0 0).spotBack { tLaunch with placed := 1 } (tSaved 0 0).st tSpot = true := by
  refine ⟨by decide +kernel, by decide +kernel, by decide +kernel, ⟨{ tLaunch with placed := 1 }, ?_, rfl⟩, by decide +kernel⟩
  have ho := tSaved_ordered 0 0 (by decide +kernel)
  have hv : (tSaved 0 0).victims = [] := by
    unfold State.victims State.stuckLaunch
    rw [ho]
    decide +kernel
  unfold State.firstUser State.bids
  rw [hv, ho]
  decide +kernel

/-- The state at which the area is read. -/
def tSeated (crc : Nat) : State :=
  let s := tSaved crc 1
  ((((s.takeSpot tSpot s.st.ctx s.st.span).admitTo 4 0).modLaunch 4 fun y =>
    { y with aged := 0, since := s.timer }).seat tSpot).acquire 0 .dev

set_option maxRecDepth 200000 in
/-- An area whose CRC fits. -/
theorem test_hyps_area_fits :
    (match (readArea { (tSeated 2445950224316220589).who with user := false } (tWin (5 * 2 ^ 24)) 128 (tSeated 2445950224316220589)).1 with
     | .ok bs => (tSeated 2445950224316220589).areaOk bs
     | .error _ => false) = true := by decide +kernel

/-- An area whose CRC does not, so that its context ends. -/
theorem test_hyps_area_does_not_fit :
    (∃ bs t, readArea { (tSeated 0).who with user := false } (tWin (5 * 2 ^ 24)) 128 (tSeated 0) = (.ok bs, t)) ∧
    (match (readArea { (tSeated 0).who with user := false } (tWin (5 * 2 ^ 24)) 128 (tSeated 0)).1 with
     | .ok bs => dwordAt bs 0x348 == 1 && dwordAt bs 0x340 == 0
     | .error _ => false) = true ∧ ∃ u, endContext 0 0xFE 0 (tSeated 0) = (.ok (), u) := by
  refine ⟨ok_part (by decide +kernel), by decide +kernel, first_part (by decide +kernel)⟩

/-! ### Parts and channels -/

/-- Core 3 of cluster 0 fenced, and the cluster draining; the cluster retired. -/
def tDraining : State :=
  ((tFree tLaunch).modCore 0 3 fun k => { k with fenced := true }).modCluster 0 fun c => { c with draining := true }
def tRetired : State := (tFree tLaunch).modCluster 0 fun c => { c with retired := true }

theorem test_hyps_FailingParts :
    (let q := tRun .running true 0 none []
     let s := tPasses tVec [q]
     s.st.passes[0]? = some q ∧ s.runs s.st = true ∧ q.checked = true ∧ q.next < q.elems ∧ (0, 0) ∈ s.st.laneGroups ∧
     0 < (s.fab.core 0 0).groups.length ∧ (s.st.sid, q.serial, q.next, 0 * 8 + 7) ∉ (s.fab.core 0 0).failed ∧
     7 ∉ ((s.fab.core 0 0).group 0).lost ∧ ((s.fab.core 0 0).group 0).lost = [] ∧ ((s.fab.core 0 0).group 0).spareUsed = false) ∧
    ((tDraining.cluster 0).draining = true ∧ (tDraining.cluster 0).retired = false ∧ tDraining.drained 0 = true ∧
     tDraining.mem.wf = true ∧ 3 ∈ (tDraining.cluster 0).logical ∧ (tDraining.fab.core 0 3).fenced = true) ∧
    ((tRetired.cluster 0).retired = true ∧ 0 ∈ tRetired.fab.logical ∧ tRetired.drained 0 = true ∧ tRetired.holdsDirty 0 = false) ∧
    (11 ∈ (tBase .u).fab.logical ∧ ((tBase .u).cluster 11).mccFailed = false ∧ ((tBase .u).cluster 11).retired = false) := by
  and_intros <;> decide +kernel

/-- Lane 7 fails again; with the spare in use; with a lane lost. -/
theorem test_hyps_lane_errors :
    (let s := (tBase .u).modCore 0 0 fun k => { k with failed := [(1, 0, 0, 7)] }
     (1, 0, 0, 0 * 8 + 7) ∈ (s.fab.core 0 0).failed) ∧
    (let s := (tBase .u).modCore 0 0 fun k => { k with groups := [{ LaneGroup.fresh with spareUsed := true, fails := [(7, 63)] }] }
     64 ≤ aget 0 ((s.fab.core 0 0).group 0).fails 7 + 1 ∧ ((s.fab.core 0 0).group 0).spareUsed = true) ∧
    (let s := (tBase .u).modCore 0 0 fun k => { k with groups := [{ LaneGroup.fresh with lost := [1] }] }
     ((s.fab.core 0 0).group 0).lost ≠ [] ∧ 7 ∉ ((s.fab.core 0 0).group 0).lost) := by decide +kernel

/-- A live core, its fifth failing bank of each store, a line of a cache in error, the debug port open and closed, an empty core, ports. -/
theorem test_hyps_FailingParts_hardware :
    23 ∈ ((tBase .u).cluster 0).logical ∧
    (4 < ((4 :: [0, 1, 2, 3] : List Nat).filter fun b => b < 32).length ∧
      4 < ((36 :: [32, 33, 34, 35] : List Nat).filter fun b => 32 ≤ b).length) ∧
    (∃ l ∈ (tLine.hwError (.cacheLine 0 (0x1000 / 64))).cache 0, l.tag = 0x1000 / 64) ∧
    ({ Toll.fresh with debugOpen := true } : Toll).debugOpen = true ∧ (tBase .u).toll.debugOpen = false ∧
    (tBase .u).onCore 0 1 = [] ∧ (tBase .u).onCore 0 0 ≠ [] ∧
    (((8, 6) : Nat × Nat) ∈ [(8, 6), (6, 4), (4, 0)] ∧ aget 8 (tBase .u).fab.ports 17 = 8 ∧ aget 8 [(17, 0)] 17 = 0) := by
  and_intros <;> decide +kernel

/-- Channel 31 of stack 11, the last of the table. -/
def tChannel (x : ChState) : Fabric := { Fabric.fresh with channels := [(31 * 16 + 11, x)] }

/-- The device with no strand and no work, and a fabric. -/
def tIdle (f : Fabric) : State := { State.reset with fab := f }

/-- A row of it that has reached its count, an activation that waits there, and one of another bank. -/
def tRow (bank row : Nat) : RowAct := ⟨11, 31, bank, row⟩
def tWorn : Fabric := { Fabric.fresh with rows := [(tRow 2 9, 4096)], waiting := [tRow 2 9, tRow 3 9] }

theorem test_hyps_ChannelEvents_rows :
    31 * 16 + 11 ∈ tWorn.liveTable ∧ (11, 31, 2) ∉ tWorn.alerted ∧ 4096 ≤ tWorn.rowCount (tRow 2 9) ∧ tWorn.rowCount (tRow 3 9) < 4096 ∧
    tWorn.bankHeld (tRow 2 9) = true ∧ Fabric.fresh.bankHeld (tRow 2 9) = false ∧ Fabric.fresh.waiting = [] ∧
    (let f := { Fabric.fresh with waiting := [⟨3, 0, 0, 0⟩, tRow 2 9, tRow 3 9] }
     f.waiting = [⟨3, 0, 0, 0⟩] ++ tRow 2 9 :: [tRow 3 9] ∧ (tRow 2 9).stack = 11 ∧ f.bankHeld (tRow 2 9) = false ∧
     ∀ o ∈ ([⟨3, 0, 0, 0⟩] : List RowAct), o.stack ≠ 11) ∧
    (let f := { Fabric.fresh with opened := [tRow 2 9] }
     (f.opened.filter fun o => o.stack = 11 ∧ o.ch = 31 ∧ o.bank = 2) = [tRow 2 9]) ∧
    (∀ q ∈ [tRow 2 9], q.stack = 11 → tWorn.bankHeld q = true) ∧ Fabric.fresh.modes = [(0, 0)] ∧
    ({ Fabric.fresh with modes := [(5, 1), (0, 0)] } : Fabric).modes = [(5, 1), (0, 0)] := by
  and_intros <;> decide +kernel

/-- A window that has room for one more activation, whenever it is, and one with 6,144 that has not. -/
theorem test_hyps_ChannelEvents_window (now n : Nat) (hf : 6144 ≤ n) :
    Fabric.fresh.mayActivate 11 now = true ∧
    ({ Fabric.fresh with activations := List.replicate n (11, now) } : Fabric).mayActivate 11 now = false := by
  have h : Fabric.fresh.modes = [(0, 0)] := by decide +kernel
  have ha : Fabric.fresh.activations = [] := by decide +kernel
  constructor
  · simp [Fabric.mayActivate, h, Fabric.windowsAllow, Fabric.actsSince, ha, allowance]
  · simp [Fabric.mayActivate, h, Fabric.windowsAllow, Fabric.actsSince, allowance, hf]

theorem test_hyps_ChannelEvents :
    (let k := 31 * 16 + 11
     k ∈ Fabric.fresh.liveTable ∧ aget .live Fabric.fresh.channels k = .live ∧
     aget .live (tChannel .predicted).channels k = .predicted ∧ aget .live (tChannel .failed).channels k = .failed ∧
     (tIdle (tChannel .failed)).isEmpty = true ∧ (tChannel .failed).retiring = none ∧ k ∈ (tChannel .failed).liveTable ∧
     (let f := { tChannel .predicted with retiring := some k, shed := 1 }
      f.retiring = some k ∧ f.stalled = none ∧ 0 < (f.live - f.shed) * 8 ∧ 0 ∉ f.moved) ∧
     (let f := { tChannel .predicted with retiring := some k, shed := 1, stalled := some 0 }
      (∀ p ∈ f.channels, p.2 ≠ .failed) ∧ f.moved.length + 1 < (f.live - f.shed) * 8) ∧
     (let f := { tChannel .predicted with retiring := some k, shed := 1, live := 2, stalled := some 0, moved := List.range' 1 7 }
      (f.live - f.shed) * 8 ≤ f.moved.length + 1)) := by decide +kernel

/-! ### The host, peers and Tollhouse -/

/-- The last byte of BAR2 and the first past it, the last byte below capacity and the first at it, a window that is held. -/
theorem test_hyps_HostAndPeerAccesses :
    (tBase .u).linkFree false ∧ (tBase .u).toll.recovery = false ∧ 2 ^ 30 - 1 + 1 ≤ 2 ^ aget 30 (tBase .u).host.bar2bits 0 ∧
    2 ^ aget 30 (tBase .u).host.bar2bits 0 < 2 ^ 30 + 1 ∧
    (tBase .u).host.bar2base.toNat + (2 ^ 30 - 1) + 1 ≤ (tBase .u).capacity ∧ (tBase .u).heldRange 0 8 = false ∧
    ((tBase .u).modFab fun f => { f with stalled := some 0 }).heldRange 0 8 = true ∧ (tBase .u).mem.wf = true ∧ 0x4001 % 8 ≠ 0 ∧
    0x4000 % 8 = 0 ∧ 0x7FF0 % 8 = 0 ∧ 0x7FF0 < 0x7FF8 := by
  unfold State.linkFree
  and_intros <;> decide +kernel

/-- STATUS before and after the boot, a mailbox area that has a place, offsets of the map's rows and beside them. -/
theorem test_hyps_HostAndPeerAccesses_registers :
    (tBase .u).toll.booted = true ∧ Toll.fresh.booted = false ∧ (tBase .u).toll.boots = 0 ∧ ({ Toll.fresh with boots := 1 } : Toll).boots ≠ 0 ∧
    (31 < 32 ∧ 63 < 64) ∧ (0x30 % 8 = 0 ∧ 0x30 ∉ [0, 8, 0x10, 0x20, 0x28] ∧ 0x30 ∉ [0x10, 0x18, 0x20, 0x1000] ∧ ¬ (0x4000 ≤ 0x30 ∧ 0x30 < 0x8000)) ∧
    (0x107FF8 % 8 = 0 ∧ 0x100000 ≤ 0x107FF8 ∧ 0x107FF8 < 0x108000 ∧ ¬ (0x100000 ≤ 0x108100 ∧ 0x108100 < 0x108100)) := by
  decide +kernel

/-- A link that is insecure, and one behind a held access; a device in no domain and one in a domain, with what was asked of peer 7. -/
theorem test_hyps_HostAndPeerAccesses_links :
    true ∈ ({ HostSide.fresh with insecure := [true] } : HostSide).insecure ∧
    (∃ h ∈ ((tBase .u).modSys fun y => { y with held := [.port true 0] }).sys.held, h.source = some true) ∧
    (tBase .u).fab.domain = none ∧
    (let s := (tBase .u).modFab fun f => { f with domain := some 3 }
     s.fab.domain ≠ none ∧ s.fab.portless = false ∧ s.toll.recovery = false ∧ s.heldRange (384 * 2 ^ 31 - 8) 8 = false ∧
     384 * 2 ^ 31 - 8 + 8 ≤ s.capacity ∧ s.capacity < 384 * 2 ^ 31 - 7 + 8 ∧ s.linePoison ((384 * 2 ^ 31 - 8) / 64) = false ∧
     (∀ ln ∈ [(384 * 2 ^ 31 - 8) / 64], s.linePoison ln = false) ∧ (384 * 2 ^ 31 - 8) % 8 = 0) ∧
    (∃ x ∈ tAsking.strands, ∃ k ∈ x.asks, k.peer = 7 ∧ k.acked = false) ∧ (∃ o ∈ tOwed.sys.owed, o.link = .peer 7) ∧
    ¬ (∃ x ∈ tPeer.strands, ∃ k ∈ x.asks, k.peer = 7 ∧ k.acked = false) ∧ ¬ (∃ o ∈ tPeer.sys.owed, o.link = .peer 7) := by
  and_intros <;> decide +kernel

/-- Context 1's entry, valid, at CTXTAB = 0; context 2's, not valid; context 0 is active. -/
def tEntries : State := (tBase .u).devWrite 0 127 [0x80]

theorem test_hyps_ContextsAndLinks :
    tEntries.linkFree false ∧ tEntries.toll.recovery = false ∧ tEntries.heldRange 64 64 = false ∧ tEntries.ctx? 0 ≠ none ∧
    tEntries.ctx? 1 = none ∧ (tEntries.modFab fun f => { f with stalled := some 0 }).heldRange 64 64 = true ∧
    tEntries.ctx? 2 = none ∧ 64 + 64 ≤ tEntries.capacity ∧ tEntries.linePoison (64 / 64) = false ∧
    leNat (tEntries.devRead 0 64 64) / 2 ^ 511 % 2 ^ 1 = 1 ∧ leNat (tEntries.devRead 0 64 64) / 2 ^ 429 % 2 ^ 82 = 0 ∧
    leNat (tEntries.devRead 0 64 64) / 2 ^ 404 % 2 ^ 12 = 0 ∧ leNat (tEntries.devRead 0 128 64) / 2 ^ 511 % 2 ^ 1 = 0 ∧
    (∃ t, endContext 0 0xFE 0 tEntries = (.ok (), t)) ∧
    (∃ p ∈ [(⟨2, 3, none⟩ : Nat × Nat × Option Nat)], p.2.2 = none) ∧
    (∀ q ∈ tEntries.host.ideKeys, q.1 ≠ true) ∧
    (∃ q ∈ ({ HostSide.fresh with ideKeys := [(true, 0)] } : HostSide).ideKeys, q.1 = true) := by
  unfold State.linkFree
  and_intros <;> first | decide +kernel | exact first_part (by decide +kernel)

/-- The end of a context that must wait: its record lies in a stalled window. -/
theorem test_hyps_ContextsAndLinks_waits :
    (let s := ((tFree { tLaunch with placed := 0, cra := 0x3000 }).devWrite 0 0x1000000 (leBytes 8 loadLeaf)).modFab fun f =>
      { f with stalled := some 0 }
     s.ctx? 0 ≠ none ∧ (endContext 0 0xFE 0 s).1 = .error .wait) := by decide +kernel

/-- The host has rung for a command with an argument, and Tollhouse runs. -/
def tAskedFor (code arg : Nat) : State :=
  { tFree tLaunch with
    host := { HostSide.fresh with mailbox := [(0x0000, BitVec.ofNat 8 arg), (0x3FF8, BitVec.ofNat 8 code)] }
    toll := { (tFree tLaunch).toll with queue := [(.host, code)] } }

theorem test_hyps_MailboxCommands :
    (∀ k ∈ List.range 10, k ≠ 0 → (tAskedFor k 0).called .host k = true) ∧ (tAskedFor 1 0).called .host 2 = false ∧
    ((∃ q ∈ (tAskedFor 1 0).toll.queue, q.1 = .host) ∧ ∀ q ∈ (tAskedFor 1 0).toll.queue, q.1 ≠ .supervisor) ∧
    ((tAskedFor 4 3).arg .host 0 = 3 ∧ (tAskedFor 4 4).arg .host 0 = 4) ∧
    ((tAskedFor 5 15).arg .host 0 = 15 ∧ (tAskedFor 5 16).arg .host 0 = 16 ∧ (∀ c ∈ (tAskedFor 5 15).sys.ctxs, c.tenant ≠ 15) ∧
      ∃ c ∈ (tAskedFor 5 0).sys.ctxs, c.tenant = 0) ∧
    ((tAskedFor 6 0).fab.retiring = none ∧ (tAskedFor 6 0).fab.predicted? = none ∧
      (tChannel .predicted).predicted? = some (31 * 16 + 11)) ∧
    ((tAskedFor 7 0).isEmpty = false ∧ (tIdle Fabric.fresh).isEmpty = true ∧ (tIdle Fabric.fresh).toll.life = .deployed) ∧
    ((tAskedFor 9 7).arg .host 0 = 7 ∧ (tAskedFor 9 3).arg .host 0 = 3 ∧ (tAskedFor 9 8).arg .host 0 = 8) := by
  and_intros <;> decide +kernel

/-- CTXACT of a context that is active and of one that is not, and of one whose entry lies in a stalled window. -/
theorem test_hyps_MailboxCommands_contexts :
    (tAskedFor 8 1).heldRange ((tAskedFor 8 1).host.ctxtab.toNat + 64 * ((tAskedFor 8 1).arg .host 0 % 256)) 64 = false ∧
    ((tAskedFor 8 1).modFab fun f => { f with stalled := some 0 }).heldRange 64 64 = true ∧
    (tAskedFor 8 1).arg .host 0 / 2 ^ 63 % 2 = 0 ∧ 2 ^ 63 / 2 ^ 63 % 2 = 1 ∧ (tAskedFor 8 1).ctx? 1 = none ∧
    (tAskedFor 8 0).ctx? 0 ≠ none ∧ (∃ t, deactivate 0 (tAskedFor 8 0) = (.ok (), t)) ∧
    (false ∉ (tAskedFor 8 0).host.insecure ∧ (tAskedFor 8 0).host.masked false 0 = true ∧
      ({ HostSide.fresh with msix := [(vectorKey false 0 * 2 + 1, 0)] } : HostSide).masked false 0 = false) := by
  and_intros <;> first | decide +kernel | exact first_part (by decide +kernel)

theorem test_hyps_ResetsAndLifecycle :
    ((∃ c ∈ (tBase .u).fab.logical, ((tBase .u).cluster c).retired = false) ∧ (tBase .u).fab.liveTable ≠ []) ∧
    ¬ ∃ c ∈ ({ Fabric.fresh with logical := [] } : Fabric).logical, True := by decide +kernel

theorem test_hyps_lifecycles :
    Toll.fresh.life ≠ .debug ∧ ({ Toll.fresh with life := .debug } : Toll).life = .debug ∧ Toll.fresh.milepost.length < 65535 ∧
    ({ Toll.fresh with life := .manufacture } : Toll).life = .manufacture ∧ Toll.fresh.life ≠ .manufacture := by decide

/-! ### The machine -/

theorem test_hyps_DecodeInvertsEncode :
    wellFormed (.vldSeg 24 2 8 (some 31) .e2m1) = true ∧ (encode (.vldSeg 24 2 8 (some 31) .e2m1)).isSome = true := by decide +kernel

/-- The state at which the step of a loaded program takes its turn. -/
def tBoundary : State :=
  let s := State.reset.withFetchWord 32 0x114B6000
  { s with sys := { s.sys with agenda := [] } }

/-- A fetch that fails: nothing is mapped. -/
def tUnmapped : State := { tBase .s with st := { (tBase .s).st with pc := 0x10000 } }

/-- A boundary at which the word ADD s10, s11, s12 is fetched, and one at which the fetch fails. -/
theorem test_hyps_StepRunsDecoded :
    (State.reset.withFetchWord 32 0x114B6000).sys.agenda = [⟨none, .boundary⟩] ∧ tBoundary.runs tBoundary.st = true ∧
    (tBoundary.strands.map Strand.sid).Nodup ∧ tBoundary.takeTurn.runs tBoundary.takeTurn.st = true ∧
    tBoundary.takeTurn.st.deferred = false ∧ tBoundary.takeTurn.interruptFor = none ∧
    (∃ t, fetch tBoundary.takeTurn = (.ok 0x114B6000, t)) ∧ decodeWord 0x114B6000 = .ok (.add 10 11 12) ∧
    (∃ t, fetch tUnmapped.takeTurn = (.error (.trap 5 0 0x10000), t)) ∧ (fetch tUnmapped.takeTurn).2.st.fetched = true := by
  and_intros <;> first | decide +kernel | exact first_part (by decide +kernel)

/-- A word of mode U that runs, and one that enters a trap. -/
theorem test_hyps_UserModeKeepsPrivilegedRegisters :
    (encode (.add 1 2 3)).isSome = true ∧ (encode .rte).isSome = true ∧ (tBase .u).st.mode = .u ∧
    (∃ t, exec (.add 1 2 3) (tBase .u) = .next t) ∧ ∃ t, exec .rte (tBase .u) = .next t :=
  ⟨by decide +kernel, by decide +kernel, by decide +kernel, ⟨_, rfl⟩, ⟨_, rfl⟩⟩

/-- Steps are taken: one of a loaded program, and the boot of the machine after reset; in both the invariants hold. -/
theorem test_hyps_StepKeepsMemorySound :
    (State.reset.withFetchWord 32 0x114B6000).mem.sound ∧ State.reset.mem.sound ∧ ∃ t, step State.reset = .next t := by
  refine ⟨⟨by decide +kernel, by decide +kernel⟩, ⟨by decide +kernel, by decide +kernel⟩, ?_⟩
  exact ⟨_, rfl⟩

theorem test_hyps_StepKeepsRegistersInRange :
    (∀ x ∈ (State.reset.withFetchWord 32 0x114B6000).strands, x.sr.inRange) ∧ ∀ x ∈ State.reset.strands, x.sr.inRange := by
  unfold SRegs.inRange
  decide +kernel

/-- A PC in the cluster window; a line of local HBM that the instruction cache holds, also poisoned, and one that it does not hold; a host
page; a page that may not be executed. -/
theorem test_hyps_StepRunsDecoded_fetch :
    (tWin 0x100).toNat / 2 ^ 29 = 0x7FFF0000000000 / 2 ^ 29 ∧
    (let s : State := { tCached .s 0x18F with st := { (tCached .s 0x18F).st with pc := 0x10008 } }
     let front := tlbScalar s.st.cluster (if s.st.span = .ctrl then Config.mccCore else s.st.core)
     let held (bad : Bool) : State := s.modMem fun m => { m with icaches := [(front, [⟨0x10008 / 64, 0, List.replicate 64 7, 0, bad⟩])] }
     s.fetchedLine front 0 (0x10008 / 64) = none ∧ (∃ u, translate s.who .fetch 0x10008 4 s = (.ok (.hbm 0x10008 0), u)) ∧
     (held true).fetchedLine front 0 (0x10008 / 64) = some ⟨0x10008 / 64, 0, List.replicate 64 7, 0, true⟩ ∧
     (held false).fetchedLine front 0 (0x10008 / 64) = some ⟨0x10008 / 64, 0, List.replicate 64 7, 0, false⟩ ∧
     (∃ u, fetch (held true) = (.error (.trap 0x13 0 0x10008), u)) ∧ ∃ u, fetch (held false) = (.ok 0x07070707, u)) ∧
    (∃ u, translate tHost.who .fetch 0x10008 4 tHost = (.ok (.host 0x10008), u)) ∧
    (∃ u, translate (tCached .s 0x187).who .fetch 0x10008 4 (tCached .s 0x187) = (.error (.trap 7 0 0x10008), u)) := by
  and_intros <;> first | decide +kernel | exact first_part (by decide +kernel)

/-! ### Reads, forces, strips -/

/-- With this device in the peer domain. -/
def tDomain : State := (tBase .u).modFab fun f => { f with domain := some 3 }

/-- A location that is read, and one that is not; words that are marked and that are not; a line that the cluster holds. -/
theorem test_hyps_reads :
    (tDomain.readable (.peer 7 0) ∧ tDomain.mem.sound ∧ ¬ (tBase .u).readable (.peer 7 0) ∧ (tBase .u).readable (.win 8)) ∧
    (tPoisoned.markedThere 0 (.win 8) 8 ∧ ¬ (tBase .u).markedThere 0 (.win 8) 8) ∧
    (tLine.bytesThere 0 (.hbm 0x1000 0) 8 = leBytes 8 5 ∧ tLine.bytesAt 0 .dev (.hbm 0x1000 0) 8 = leBytes 8 5) ∧ outer .dev := by
  unfold State.readable State.markedThere Mem.sound outer
  and_intros <;> decide +kernel

/-- Words of majors 0x24, 0x3F and 0x34, FORCE and VDROP, on an MCC and beside a suspended pass. -/
theorem test_hyps_IssueWaitsAndFaults_illegal :
    (encode (.vadd 5 1 2 none) = some 0x90A11000 ∧ (0x90A11000 : IWord).toNat / 2 ^ 26 = 0x24) ∧
    (encode (.barWait 0) = some 0xD0000001 ∧ (0xD0000001 : IWord).toNat / 2 ^ 26 = 0x34) ∧ (encode .force).isSome = true ∧
    (encode (.vdrop 3)).isSome = true ∧ (tMcc .u).st.span = .ctrl ∧ (tPasses tVec [tPass .suspended []]).suspended = true := by
  decide +kernel

/-- Queues of eight sinks, of another shape, and with a row sink whose result is reached; each is forced. -/
def tEight : State := { tQueued with st := { tQueued.st with queue := List.replicate 8 (tQueued.st.queue.headD default) } }
def tShaped : State := tQueued.modSr fun r => { r with vl := 5 }

theorem test_hyps_sinks_forced :
    (¬ tEight.queueFits [0] ∧ ∃ t, force tEight = (.ok (), t)) ∧ (¬ tShaped.queueFits [0] ∧ ∃ t, force tShaped = (.ok (), t)) ∧
    (¬ (tPasses tEight [tPass .running [], tPass .waiting []]).queueFits [0] ∧
      2 ≤ ((tPasses tEight [tPass .running [], tPass .waiting []]).st.passes.filter Pass.inFlight).length) ∧
    (match force tEight with | (.ok _, t) => !t.unsettled && t.pending 5 && !t.pending 6 | _ => false) = true := by
  unfold State.queueFits
  and_intros <;> first | (refine fun h => absurd h ?_; decide +kernel) | decide +kernel | exact first_part (by decide +kernel)

/-- Strips of four: a move of waypoint 0 under the mask of waypoint 4, a scan of it, a tile of which the fourth column lies outside; a row result.
Nodes in their order, one of them a segment load of two fields. -/
theorem test_hyps_MoveElements_strips :
    (let w : Waypoint := { tWp 7 (some .i32) with srcs := [0], mask := some 4 }
     (∃ q u, evalWp (tStrip []) 7 w tRes (Ev.start []) tVec = (.ok q, u)) ∧ tilePad (tStrip []) w 0 = false) ∧
    (match evalWp (tStrip []) 7 { tWp 7 (some .i32) with op := .scan, srcs := [0] } tRes (Ev.start []) tVec with
     | (.ok (es, _), _) => es.toList == [.ok 1, .ok 3, .ok 6, .ok 10] && es.all (fun a => !a.bad)
     | _ => false) = true ∧
    (let w : Waypoint := { tWp 7 (some .f32) with op := .vldtd 0 5 3 .f32 }
     tilePad (tStrip [(3, tTile)]) w 2 = false ∧ tilePad (tStrip [(3, tTile)]) w 3 = true ∧
     ∃ q u, evalWp (tStrip [(3, tTile)]) 7 w [] (Ev.start []) (tBase .u) = (.ok q, u)) ∧
    (let ns : List Node := [.wp { tWp 0 (some .i32) with op := .idx 0 1 } [], .wp { tWp 7 (some .i32) with srcs := [0] } [{ tWp 8 (some .i32) with srcs := [0] }], .sink tRed]
     ∃ q u, evalNodes (tStrip []) (fun _ => true) ns (Ev.start []) tVec = (.ok q, u)) := by
  and_intros <;> first | decide +kernel | exact ok_part (by decide +kernel)

/-- R219: the elements of a row take what its slot holds for it. -/
theorem test_row_result :
    (match evalWp { tStrip [] with t := { tVec.st with rows := [(1, [6, 10])] }, p := { (tStrip []).p with vl := 2, vrows := 2 } } 7
       { tWp 7 (some .i32) with op := .rowres 1 6 } [] (Ev.start []) tVec with
     | (.ok (es, _), _) => es.toList == [.ok 6, .ok 6, .ok 10, .ok 10]
     | _ => false) = true := by decide +kernel

/-- A store of the strip under a mask, a fold of it, and a tile store whose pass is to write its tail. -/
theorem test_hyps_StoredElements_strips :
    let k : Sink := { (default : Sink) with id := 5, ty := some .i32, data := [0], mask := some 4, op := .vst 1 (tWin 0x100) }
    let late : Strip := { tStrip [] with p := { (tStrip []).p with late := true }, lo := 4 }
    let tail : Sink := { (default : Sink) with id := 5, ty := some .i32, data := [0], op := .vstt (tWin 0x100) 32, vpol := 2 }
    (k.isVstc = false ∧ (∃ q u, evalStore (tStrip []) k tRes (Ev.start []) (tBase .u) = (.ok q, u)) ∧ (tStrip []).p.late = false) ∧
    (∃ q u, evalFold (tStrip []) { tRed with id := 5, data := [0] } tRes (Ev.start []) tVec = (.ok q, u)) ∧
    (late.p.late = true ∧ (tailOf late tail 0).isSome = true ∧ tailOf late k 0 = none ∧
      (∃ q u, evalStore late tail tRes (Ev.start []) (tBase .u) = (.ok q, u)) ∧
      ∃ q u, tailWrites late tail 3 (2 * (tWin 0x110).toNat, 2 * (tWin 0x120).toNat) (Ev.start []) (tBase .u) = (.ok q, u)) := by
  and_intros <;> first | decide +kernel | exact ok_part (by decide +kernel)

/-- The descriptor of a tile of 1 by 4 codes of 4 bits in the own core, its header at `h`, with selectors `sel` and `n` candidate tables; the
sink that writes it from the stream of waypoint 2. -/
def tQuant (h sel n : Nat) : List Byte :=
  leBytes 64 (0x7FFF0000000000 + h * 2 ^ 64 + 16 * 2 ^ 192 + 4 * 2 ^ 224 + 1 * 2 ^ 256 + 4 * 2 ^ 288 + n * 2 ^ 440 + 12 * 2 ^ 464 + sel * 2 ^ 468 + 2 ^ 511)
def tVstc : Sink := { (default : Sink) with id := 5, ty := some .ch4, data := [2], op := .vstc 0 0 3, fpctl := 0x100 }
def tBlocks : Res := [(2, #[.ok 0x3F800000, .ok 0x7FC00000, .ok 0x40000000, .ok 0])]

theorem test_hyps_QuantisedBlocks_writes :
    let x := tStrip [(3, tQuant (tWin 0x200).toNat 7 0)]
    let far := tStrip [(3, tQuant (2 ^ 55) 7 0)]
    let tables := tStrip [(3, tQuant (tWin 0x200).toNat 8 1)]
    let desk (x : Strip) := candTables (deskWho x.t x.p) (x.p.desc 3) 3 (tBase .u)
    ((x.p.desc 3).selmask / 8 % 2 = 0 ∧ (x.p.desc 3).bits = 4 ∧ (∃ u, desk x = (.ok [], u)) ∧ (tables.p.desc 3).selmask / 8 % 2 = 1 ∧
      ∃ u, desk tables = (.error (.trap 5 0 0), u)) ∧
    (∃ u, translate (x.who 3) .store (tWin 0) 1 (tBase .u) = (.ok (.win 0), u)) ∧
    (∃ u, translate (x.who 3) .store (tWin 0x200) 4 (tBase .u) = (.ok (.win 0x200), u)) ∧
    ((far.p.desc 3).hdrbase = 2 ^ 55 ∧ ∃ u, translate (x.who 3) .store (wd (2 ^ 55)) 4 (tBase .u) = (.error (.trap 0x1D 0 (wd (2 ^ 55))), u)) := by
  and_intros <;> first | decide +kernel | exact first_part (by decide +kernel)

/-- An element that joins the block, a NaN that traps, the last of the block, one outside the tensor; the strip of that store; the same when a
trim has left the block behind. -/
theorem test_hyps_QuantisedBlocks_elements :
    let x := tStrip [(3, tQuant (tWin 0x200).toNat 7 0)]
    let d := x.p.desc 3
    (tVstc.data = [2] ∧ (0 : ℤ) ≤ 0 ∧ d.rows = 1 ∧ d.cols = 4 ∧ x.p.vl = 4 ∧ x.p.vrows = 1 ∧ x.n = 4 ∧ tVstc.mask = none ∧
      (∀ i < 4, (tBlocks.at 2 i).pad = false ∧ (tBlocks.at 2 i).bad = false)) ∧
    (decodeF fmtF32 (tBlocks.at 2 1).val).isNan = true ∧ tVstc.fpctl.toNat / 2 ^ 8 % 2 = 1 ∧ tVstc.vpol.toNat / 4 % 2 = 0 ∧
    (∃ q u, evalStore x tVstc tBlocks (Ev.start []) (tBase .u) = (.ok q, u)) ∧
    (let late : Strip := { x with p := { x.p with late := true }, lo := 4 }
     let held : List Partial := [⟨5, [], 0, [((0, 0), [⟨0, 0x3F800000, true, 0⟩])]⟩]
     late.p.late = true ∧ (∃ q u, evalStore late tVstc tBlocks (Ev.start held) (tBase .u) = (.ok q, u)) ∧
     ∃ q u, writeBlock late tVstc 3 3 0 0 [⟨0, 0x3F800000, true, 0⟩] (Ev.start []) (tBase .u) = (.ok q, u)) := by
  and_intros <;> first | decide +kernel | exact ok_part (by decide +kernel)

/-- Candidates of every selector, with a draw; a block that no table fits. -/
theorem test_hyps_QuantisedBlocks_candidates :
    let ls := List.replicate 8 0x3F80 ++ List.replicate 8 0xBF80
    (candidates 4 15 [(7, ls)] (decodeF fmtBf16 0x3F80)).map Cand.sel = [0, 1, 2, 3] ∧
    ((candidates 4 8 [(7, List.replicate 16 1)] (decodeF fmtBf16 0x3F80)).map fun c => (c.sel, c.e, c.param)) = [(3, 254, 7)] ∧
    (decodeF fmtBf16 0x7F80).isInf = true ∧ (0 : Nat) < 2 ^ 32 ∧ ([(7, ls)].map fun q => q.1).Nodup := by
  decide +kernel

/-- R259, R261: MF takes a block of 24, 12 and 1.5 (spec/15, One block chosen); of two tables with equal errors the first; a level above it when
the draw lies below the part of the step that is gone, and the level below when it does not. -/
theorem test_block_chosen :
    (let els := (List.range 32).map fun i => (⟨i, if i = 0 then 0x41C00000 else if i < 16 then 0x41400000 else 0x3FC00000, true, 0⟩ : BlockElem)
     let z := quantBlock 4 fmtF32 false 7 [] els
     z.1 = 7 :: List.replicate 15 5 ++ List.replicate 16 1 ∧ z.2 = (0xA0400013, 0x4010000000000000)) ∧
    (let ls := List.replicate 8 0x3F80 ++ List.replicate 8 0xBF80
     (quantBlock 4 fmtF32 false 8 [(9, ls), (2, ls)] [⟨0, 0x3F800000, true, 0⟩]).2.1 / 2 ^ 8 % 2 ^ 14 = 9) ∧
    (let c : Cand := ⟨3, 127, 0, [0x0000, 0x3F80]⟩
     c.code 4 true 0x3FFFFFFF (decodeF fmtF32 0x3E800000) = 1 ∧ c.code 4 true 0x40000000 (decodeF fmtF32 0x3E800000) = 0) := by
  decide +kernel

/-- What traps, when only that is said. -/
theorem trap_some {α : Type} {p : Except Stop α × State} (h : (match p.1 with | .error (.trap _ _ _) => true | _ => false) = true) :
    ∃ c d v t, p = (.error (.trap c d v), t) := by
  obtain ⟨r, t⟩ := p
  rcases r with (⟨c, d, v⟩ | _) | _
  all_goals first | exact ⟨c, d, v, t, rfl⟩ | cases h

/-- A strip that evaluates its node, its sink and its chunks: without a fault, and with one. A row sink that has its values. -/
theorem test_hyps_PassEvents_results :
    (∃ u, runStrip 0 (tLoads (tWin 0x100) .running true) (tPasses tVec [tLoads (tWin 0x100) .running true]) = (.ok (), u)) ∧
    (let p : Pass := { tRun .running true 4 none [{ tRed with id := 8, data := [7], op := .rowred false 9 1 }] with
       wps := [{ tWp 7 (some .f32) with op := .mov }], parts := [⟨8, [(0, 0x40C00000)], 0, []⟩] }
     p.remains = false ∧ p.fault = none ∧ (p.sinks.map fun k => rowValues p k) = [some (1, [0x40C00000])] ∧
     (tLoads (tWin 0x100) .running true).sinks.all (fun k => rowValues (tLoads (tWin 0x100) .running true) k == none) = true ∧
     ∃ u, writeWaymarks p (tPasses tVec [p]) = (.ok (), u)) := by
  and_intros <;> first | decide +kernel | exact first_part (by decide +kernel)

/-- R219: the values of a row sink stand in its slot when its pass completes. -/
theorem test_rows_left :
    (let p : Pass := { tRun .running true 4 none [{ tRed with id := 8, data := [7], op := .rowred true 9 1 }] with
       wps := [{ tWp 7 (some .i32) with op := .mov }], parts := [⟨8, [(0, 6)], 0, []⟩], vl := 2, vrows := 2 }
     match exec .passComplete (tPasses tVec [p]) with
     | .next t => afind t.st.rows 1 == some [6, 0x80000000] && afind t.st.rows 0 == none
     | _ => false) = true := by decide +kernel

/-- A strand whose queued store must read its descriptor through a window that is stalled. -/
def tStuck : State :=
  let s := tQueued.modMem fun m => { m with tlbs := [(tlbScalar 0 0, [⟨0, false, 0, 34, wd 0x19F⟩])] }
  { s with
    st := { s.st with queue := [{ (default : Sink) with id := 5, major := 0x21, op := .vsttd 0 0 3, ty := some .i32, vl := 4, vrows := 1, data := [0] }] }
    fab := { s.fab with stalled := some 0 } }

theorem test_hyps_sinks_held :
    (∃ t, forceQueue tStuck = (.error .wait, t)) ∧ (∃ t, force tStuck = (.error .wait, t)) ∧ tStuck.st.queue ≠ [] ∧
    (tStuck.st.passes.filter Pass.inFlight).length < 2 := by
  and_intros <;> first | decide +kernel | exact wait_part (by decide +kernel)

/-- With the group of `tGroup`, a queue that goes through, one that waits, one beside two passes; at the bound of the count. -/
theorem test_hyps_BarriersFencesAndExit_arrivals :
    let with_ (s : State) : State := { s with
      st := { s.st with sr := { s.st.sr with groups := wd (2 ^ 32 + 3) } }, sys := (tGroup 0).sys }
    (∃ t, forceQueue (with_ tQueued) = (.ok (), t)) ∧ (∃ t, forceQueue (with_ tStuck) = (.error .wait, t)) ∧
    ((with_ tQueued).slotGroup 0 3 ⟨1, 0, 0, 0, 0, 2⟩ ∧ (with_ tQueued).arrivals 0 = 0 ∧ (with_ tQueued).suspended = false) ∧
    2 ≤ ((with_ (tPasses tQueued [tPass .running [], tPass .waiting []])).st.passes.filter Pass.inFlight).length ∧
    (let s := { tGroup (2 ^ 32 - 1) with sys := { (tGroup 0).sys with ctxs := [{ loadCtx with groups := [(3, ⟨1, 2 ^ 32 - 2, 0, 0, 0, 2⟩)] }] } }
     s.slotGroup 0 3 ⟨1, 2 ^ 32 - 2, 0, 0, 0, 2⟩ ∧ s.arrivals 0 + 1 = 2 ^ 32 ∧ s.arrivals 0 < 2 ^ 32 - 2 + 2 ∧
       encode (.barArrive 0) = some 0xD0000000) := by
  and_intros <;> first | decide +kernel | exact first_part (by decide +kernel)

/-- R276, R289: BAR.ARRIVE at the bound of the count is a barrier misuse. -/
theorem test_arrive_bound :
    (match exec (.barArrive 0) { tGroup (2 ^ 32 - 1) with sys := { (tGroup 0).sys with ctxs := [{ loadCtx with groups := [(3, ⟨1, 2 ^ 32 - 2, 0, 0, 0, 2⟩)] }] } } with
     | .next t => t.st.sr.ecause == 0x1A && t.st.sr.eva == 0xD0000000
     | _ => false) = true := by decide +kernel

/-- Exits of a strand with no marker: the last member, one of two, one that completes the phase; with a marker that is not ready: of what the
passes before it write, and of a pass that is gone. -/
def tLeaves (g : Group) : State := { tGroup 1 with sys := { (tGroup 1).sys with ctxs := [{ loadCtx with groups := [(3, g)] }] } }

theorem test_hyps_BarriersFencesAndExit_exits :
    ((tLeaves ⟨1, 0, 0, 0, 1, 2⟩).slotGroup 0 3 ⟨1, 0, 0, 0, 1, 2⟩ ∧ 2 ≤ 1 + 1) ∧
    ((tLeaves ⟨1, 0, 1, 0, 0, 2⟩).slotGroup 0 3 ⟨1, 0, 1, 0, 0, 2⟩ ∧ (1 - 1) + (0 + 1) < 2) ∧
    ((tLeaves ⟨1, 0, 2, 0, 0, 2⟩).slotGroup 0 3 ⟨1, 0, 2, 0, 0, 2⟩ ∧ 0 + 1 < 2 ∧ 2 ≤ (2 - 1) + (0 + 1)) ∧
    (∀ h : Fin 4, h ≠ 0 → (tGroup 1).st.groupIdx h.val ≠ some 3) ∧
    (let s := { (tLeaves ⟨3, 0, 0, 0, 0, 2⟩) with st := { (tGroup 1).st with markers := [⟨0, 0, 1, []⟩] } }
     let owes := s.modSys fun y => { y with owed := [⟨s.who.owner, .host false, false, false⟩] }
     owes.markerReady owes.st ⟨0, 0, 1, []⟩ = false ∧ owes.passesInFlight = false ∧ owes.st.queue = [] ∧
     (let t := tPasses s [{ tPass .suspended [] with serial := 0 }]
      t.markerReady t.st ⟨0, 0, 1, []⟩ = false ∧ t.passesInFlight = false ∧ ∃ p ∈ t.st.passes, p.serial < 1)) := by
  and_intros <;> decide +kernel

/-- R275: the exit of a strand whose marker waits for writes that it owes is counted only when the marker has fired. -/
theorem test_exit_after_marker :
    (let s := { (tLeaves ⟨3, 0, 0, 0, 0, 2⟩) with st := { (tGroup 1).st with markers := [⟨0, 0, 0, []⟩] } }
     let owes := s.modSys fun y => { y with owed := [⟨s.who.owner, .host false, false, false⟩] }
     match exec .exit owes with
     | .next t => t.st.stand == .none && t.st.markers.length == 1 && t.groupAt 0 3 == some ⟨3, 0, 0, 0, 0, 2⟩ &&
       (match exec .arrivalMarkerFire (t.modSys fun y => { y with owed := [] }) with
        | .next u => u.st.markers.isEmpty && u.groupAt 0 3 == some ⟨3, 0, 0, 0, 1, 2⟩
        | _ => false)
     | _ => false) = true := by decide +kernel

/-- A saved strand; one that is gone, with one marker and with two of the slot. -/
theorem test_hyps_markers_gone :
    let at_ (st : Where) (ms : List Marker) : State := { tGroup 1 with st := { (tGroup 1).st with markers := ms, stand := st } }
    ((at_ .saved [⟨0, 0, 0, []⟩]).st.stand = .saved) ∧
    ((at_ .none [⟨0, 0, 0, []⟩]).markerReady (at_ .none [⟨0, 0, 0, []⟩]).st ⟨0, 0, 0, []⟩ = true) ∧
    (at_ .none [⟨0, 0, 0, []⟩]).groupAt 0 3 = some ⟨1, 0, 0, 0, 0, 2⟩ ∧
    (∀ r ∈ ([] : List Marker), r.slot ≠ 0) ∧ ¬ (∀ r ∈ ([⟨0, 1, 0, []⟩] : List Marker), r.slot ≠ 0) ∧ 1 + 0 - 1 + (0 + 1) < 2 := by
  decide +kernel

/-- An MMA of codes of 4 bits whose first header fails its check: of a strand that stands, and of one that is gone. -/
def tHeaded : MOp := { tMop with descs := (tQuant (tWin 0x200).toNat 7 0, tDesc 0x7FFF0000001000 32, tDesc (0x7FFF0000000000 + 31 * 2 ^ 24 + 0x800000) 64) }
def tHeads : State := ((tMcc .s).winWrite 0x200 [1]).modCluster 0 fun c => { c with mops := [tHeaded] }

theorem test_hyps_MarkersAndMatrixEvents_headers :
    ((tHeads.latchSlot 0).cluster 0).nextMop = some tHeaded ∧ tHeaded.zero = false ∧ tHeaded.started = false ∧
    (∃ k d v u, tHeaded.hdrs.mapM (readHdr 0 tHeaded) (tHeads.latchSlot 0) = (.error (.trap k d v), u)) ∧
    tHeaded.sid = tHeads.st.sid ∧ tHeads.st.stand ≠ .none ∧
    ∀ x ∈ ({ tHeads with st := Strand.fresh } : State).strands, x.sid = 1 → x.stand = .none := by
  and_intros <;> first | decide +kernel | exact trap_some (by decide +kernel)

/-- R241: it writes nothing, leaves with the strand's later operations, and gives its strand the trap. -/
theorem test_header_fails :
    (match exec (.mmaExecute 0 ⟨0, none⟩) (tHeads.modCluster 0 fun c => { c with mops := [tHeaded, { tMop with id := 2 }, { tMop with id := 3, sid := 9 }] }) with
     | .next t => (t.cluster 0).mops.map MOp.id == [3] && t.st.mtraps.length == 1 && t.mem.win == tHeads.mem.win
     | _ => false) = true := by decide +kernel

/-- A tile of C whose elements lie apart, from the matrix accumulators and from zero; operands of i8, of f32 and of e2m1, and of a code
with its header. -/
theorem test_hyps_BlockSums_tiles :
    (let o := { tStarted with m := 2, n := 2, accs := List.replicate 4 default }
     let key (p : Nat × Nat × Nat) : Nat := 0 * 2 ^ 29 + (((tMcc .s).cluster 0).logical[p.1]?).getD 0 * 2 ^ 24 +
       (o.c.elembase % 2 ^ 24 + (o.crow0 + p.2.1) * o.c.pitch + (o.ccol0 + p.2.2) * 4)
     o.failed = 0 ∧ o.accs.length = o.places.length ∧ (tMcc .s).mem.wf = true ∧ o.c.bits / 8 = 4 ∧ (∀ p ∈ o.places, key p % 4 = 0) ∧
     (o.places.map key) = [0x800000, 0x800004, 0x800040, 0x800044]) ∧
    (Ty.ofCode 0 = some .i8 ∧ Ty.ofCode 10 = some .e2m1 ∧ Ty.ofCode 6 = some .f32 ∧ Ty.ofCode 12 = some .ch4 ∧
      (parseDesc (tDesc 0x7FFF0000000000 32)).ty = 6 ∧ (parseDesc (tDesc 0x7FFF0000000000 32)).bits = tyBits .f32) ∧
    ([⟨(0, 0, 1, 0), 0x208000F5, [], false⟩] : List MHdr).find? (fun h => h.key = (0, 0, 1, 5 / 32)) = some ⟨(0, 0, 1, 0), 0x208000F5, [], false⟩ := by
  decide +kernel

/-- Contexts that end by a fault and by no fault; one that the table does not hold. -/
theorem test_hyps_ContextsAndLinks_ends :
    tEntries.ctx? 0 ≠ none ∧ tEntries.ctx? 1 = none ∧ (∃ t, endContext 0 0x15 (wd 0x3000) tEntries = (.ok (), t)) ∧
    ∃ t, endContext 0 0xFE 0 tEntries = (.ok (), t) := by
  and_intros <;> first | decide +kernel | exact first_part (by decide +kernel)

/-- R79: a decompress that has moved a chunk of four bytes and the short last one of one byte goes on past both. -/
theorem test_chunks_done :
    ([0, 4, 5].map fun n => ({ tZ with rows := 1, cols := 5, ce := 4, ty := 0 } : Desc).chunksOf n) = [0, 1, 2] := by decide +kernel

/-- R138, R162: with a stride of 2^63 the third element falls on the first one's byte, so load and store are no exact pair; with one of 3
they are. -/
theorem test_strides_apart :
    apart .i8 (.stride (2 ^ 63)) 2 1 = true ∧ apart .i8 (.stride (2 ^ 63)) 3 1 = false ∧ apart .i8 (.stride (-3)) 4 1 = true ∧
    apart .i16 (.stride 1) 2 1 = false ∧ apart .f32 (.pitch 16) 4 3 = true ∧ apart .f32 (.pitch (2 ^ 63)) 4 3 = false := by
  decide +kernel

/-- R310: a trap at the word of a WAIT under way ends it, so that the handler's first word is not skipped. -/
theorem test_wait_ends :
    (let s : State := { tUnmapped with st := { tUnmapped.st with waiting := true } }
     let t := fetchFault 5 0 0x10000 s.takeTurn
     !t.st.waiting && t.st.sr.epc == 0x10000 && t.st.sr.ecause == 5) = true := by decide +kernel

/-- R220: a pass that EXIT forces beside a suspended one which holds its row sink waits behind it. -/
theorem test_exit_behind_rows :
    (let rows : Sink := { (default : Sink) with id := 20, major := 0x32, op := .rowred false 21 0, vl := 4, vrows := 1, data := [0] }
     let use : Waypoint := { tWp 21 (some .i32) with op := .rowres 0 20 }
     let s := tPasses { tQueued with st := { tQueued.st with
       wps := tQueued.st.wps ++ [use], queue := tQueued.st.queue.map fun k => { k with data := [21] } } } [tPass .suspended [rows]]
     match exec .exit s with
     | .next t => (t.st.passes.map fun p => p.st) == [.suspended, .waiting] && t.st.pc == s.st.pc
     | _ => false) = true := by decide +kernel

/-- A member of a launch with COR = 1 and SPILL = 1 that waits in BAR.WAIT on the one core of its cluster, and another launch with an unplaced
member of the same group. -/
def tRule : GRule := { (default : GRule) with gidx := 3, gsize := 2, shift := 0 }
def tSpill (other : Launch) : State :=
  let mine : Launch := { tLaunch with cor := true, spill := true, span := .wide, placed := 1, rules := [some tRule] }
  let s := (tCached .s 0x18F).devWrite 0 0x10000 (leBytes 4 0xD0000001)
  { (s.modCluster 0 fun c => { c with logical := [0] }) with
    st := { s.st with span := .wide, lgs := 15, launch := 4, cores := [0], sr := { s.st.sr with groups := wd (2 ^ 32 + 3) }, arrive := [1, 0, 0, 0] }
    sys := { s.sys with ctxs := [{ tCtx with groups := [(3, ⟨1, 0, 1, 0, 0, 2⟩)] }], launches := [mine, other] } }
def tOther : Launch := { tLaunch with id := 5, cor := true, spill := true, span := .wide, placed := 0, rules := [some tRule] }

/-- R289, R291: that member waits there for a phase, and the other launch, an unplaced member of whose group finds no place, is starved. -/
theorem test_spill_for_another_launch :
    (tSpill tOther).barred = some (0, 3) ∧ (tSpill tOther).starved 0 3 tOther = true ∧
    (tSpill tOther).starved 0 3 { tOther with placed := 1 } = false ∧ (tSpill tOther).starved 0 3 { tOther with ctx := 1 } = false ∧
    ((tSpill tOther).withoutBarred 0 3).st.spilled = some 0 := by decide +kernel

end Sys2Proof.Machine
end

section
/-!
What the memory operations leave alone: each of them changes the memory and its caches only.
-/

namespace Sys2Proof.Machine

/-- `t` is `s` but for the memory and its caches. -/
def State.OnlyMem (s t : State) : Prop := ∃ m, t = { s with mem := m }

theorem State.OnlyMem.refl (s : State) : s.OnlyMem s := ⟨s.mem, rfl⟩

theorem State.OnlyMem.trans {s t u : State} (h : s.OnlyMem t) (h' : t.OnlyMem u) : s.OnlyMem u := by
  obtain ⟨m, rfl⟩ := h
  obtain ⟨m', rfl⟩ := h'
  exact ⟨m', rfl⟩

theorem onlyMem_modMem (s : State) (f : Mem → Mem) : s.OnlyMem (s.modMem f) := ⟨f s.mem, rfl⟩

/-- What is made of a state that differs in memory only differs in memory only. -/
theorem State.OnlyMem.modMem {s t : State} (h : s.OnlyMem t) (f : Mem → Mem) : s.OnlyMem (t.modMem f) :=
  h.trans (onlyMem_modMem t f)

theorem State.OnlyMem.setCache {s t : State} (h : s.OnlyMem t) (c : Nat) (l : List Line) : s.OnlyMem (t.setCache c l) :=
  h.modMem _

theorem onlyMem_foldl {α : Type} {f : State → α → State} (hf : ∀ (s : State) x, s.OnlyMem (f s x)) (xs : List α) (s : State) :
    s.OnlyMem (xs.foldl f s) :=
  foldl_keeps s.OnlyMem xs f (fun t x h => h.trans (hf t x)) s (.refl s)

theorem onlyMem_touchLine (s : State) (ln : Nat) : s.OnlyMem (s.touchLine ln) := by
  have hdirty : s.OnlyMem (s.modMem fun m => { m with msc := ln :: m.msc }) := onlyMem_modMem s _
  unfold State.touchLine
  dsimp only
  split
  · exact .refl s
  · split
    · exact hdirty
    · split
      · exact hdirty
      · split
        · exact hdirty
        · exact hdirty.modMem _

theorem onlyMem_touchLines (s : State) (pa n : Nat) : s.OnlyMem (s.touchLines pa n) := by
  unfold State.touchLines
  split
  · exact .refl s
  · exact onlyMem_foldl (fun s i => onlyMem_touchLine s _) _ s

theorem onlyMem_devWriteByte (s : State) (ten pa : Nat) (b : Byte) : s.OnlyMem (s.devWriteByte ten pa b) := onlyMem_modMem s _

theorem onlyMem_devWrite (s : State) (ten pa : Nat) (bs : List Byte) : s.OnlyMem (s.devWrite ten pa bs) := by
  have hbytes := (onlyMem_touchLines s pa bs.length).trans
    (onlyMem_foldl (fun s (p : Byte × Nat) => onlyMem_devWriteByte s ten (pa + p.2) p.1) bs.zipIdx _)
  unfold State.devWrite
  dsimp only
  split
  · exact hbytes
  · exact hbytes.modMem _

theorem onlyMem_writeBackLine (s : State) (l : Line) : s.OnlyMem (s.writeBackLine l) := by
  have hbyte : ∀ (s : State) (p : Byte × Nat), s.OnlyMem (if l.dirtyAt p.2 = 0 then s
      else s.devWriteByte l.tenant (l.tag * 64 + p.2) (mergeNibbles (l.dirtyAt p.2) p.1 (s.devByte l.tenant (l.tag * 64 + p.2)))) := by
    intro s p
    split
    · exact .refl s
    · exact onlyMem_devWriteByte s _ _ _
  have hbytes := (onlyMem_touchLine s l.tag).trans (onlyMem_foldl hbyte l.bytes.zipIdx _)
  unfold State.writeBackLine
  dsimp only
  split
  · exact .refl s
  · split
    · exact hbytes.modMem _
    · split
      · exact hbytes.modMem _
      · exact hbytes

theorem onlyMem_writeBackAll (s : State) (c : Nat) : s.OnlyMem (s.writeBackAll c) := by
  unfold State.writeBackAll
  exact ((onlyMem_foldl onlyMem_writeBackLine (s.cache c) s).setCache c _).modMem _

theorem onlyMem_cleanLines (s : State) (c : Nat) (p : Nat → Bool) : s.OnlyMem (s.cleanLines c p) := by
  unfold State.cleanLines
  dsimp only
  split
  · refine (onlyMem_foldl (fun s l => ?_) (s.cache c) s).setCache c _
    split
    · exact onlyMem_writeBackLine s l
    · exact .refl s
  · exact .refl s

theorem onlyMem_flushLine (s : State) (c ln : Nat) : s.OnlyMem (s.flushLine c ln) := by
  unfold State.flushLine
  split
  · exact .refl s
  · exact (onlyMem_writeBackLine s _).setCache c _

theorem onlyMem_makeRoom (s : State) (c : Nat) : s.OnlyMem (s.makeRoom c) := by
  unfold State.makeRoom
  dsimp only
  split
  · exact .refl s
  · split
    · exact .refl s
    · exact onlyMem_flushLine s c _

theorem onlyMem_fillLine (s : State) (c ten ln : Nat) : s.OnlyMem (s.fillLine c ten ln).1 := by
  unfold State.fillLine
  split
  · split
    · exact .refl s
    · exact (onlyMem_flushLine s c ln).setCache c _
  · exact (onlyMem_makeRoom s c).setCache c _

theorem onlyMem_cluRead (s : State) (c ten pa n : Nat) : s.OnlyMem (s.cluRead c ten pa n).1 := onlyMem_fillLine s c ten (pa / 64)

theorem onlyMem_cluWrite (s : State) (c ten pa : Nat) (bs : List Byte) : s.OnlyMem (s.cluWrite c ten pa bs) :=
  (onlyMem_fillLine s c ten (pa / 64)).setCache c _

theorem onlyMem_dropCache (s : State) (c : Nat) : s.OnlyMem (s.dropCache c) := (onlyMem_writeBackAll s c).setCache c []

theorem onlyMem_release (s : State) (c : Nat) (sc : Scope) : s.OnlyMem (s.release c sc) := by
  cases sc with
  | core | clu => exact .refl s
  | dev | sys => exact onlyMem_writeBackAll s c

theorem onlyMem_acquire (s : State) (c : Nat) (sc : Scope) : s.OnlyMem (s.acquire c sc) := by
  cases sc with
  | core | clu => exact .refl s
  | dev | sys => exact onlyMem_dropCache s c

theorem onlyMem_releaseAll (s : State) : s.OnlyMem s.releaseAll := onlyMem_foldl (fun s _ => onlyMem_release s _ .sys) _ s

theorem onlyMem_refetch (s : State) (l : Loc) : s.OnlyMem (s.refetch l) := by
  cases l with
  | hbm pa ten => exact onlyMem_flushLine s _ _
  | _ => exact .refl s

theorem onlyMem_writeToArray (s : State) (c pa n : Nat) : s.OnlyMem (s.writeToArray c pa n) := by
  unfold State.writeToArray
  exact (onlyMem_cleanLines s c _).modMem _

end Sys2Proof.Machine
end

section
/-!
Accesses, translation, releases and acquires keep every property that asks nothing of memory, link and Tollhouse, and of a
cluster only its matrix slots.
-/

namespace Sys2Proof.Machine

/-- A property of the state that asks nothing of the memory, the system's queues, the host, Tollhouse and the free values, and of a
cluster nothing but its matrix slots. -/
structure Lax (P : State → Prop) : Prop where
  mem : ∀ {s : State} (m : Mem), P s → P { s with mem := m }
  sys : ∀ {s : State} (y : Sys), P s → P { s with sys := y }
  host : ∀ {s : State} (x : HostSide), P s → P { s with host := x }
  toll : ∀ {s : State} (x : Toll), P s → P { s with toll := x }
  free : ∀ {s : State} (n : Nat), P s → P { s with free := n }
  cluster : ∀ {s : State} (c : Nat) (g : Cluster → Cluster), (∀ x, (g x).slots = x.slots) → P s → P (s.modCluster c g)

theorem Lax.onlyMem {P : State → Prop} (hP : Lax P) {s t : State} (h : s.OnlyMem t) (hs : P s) : P t := by
  obtain ⟨m, rfl⟩ := h
  exact hP.mem m hs

/-! ### Composition -/

/-- A guard that may stop short, and what follows it. -/
theorem keeps_guard {α : Type} {P : State → Prop} {c : Prop} [Decidable c] {m : M PUnit} {f : PUnit → M α} (hm : Keeps P m)
    (hf : Keeps P (f ⟨⟩)) : Keeps P (if c then m >>= f else f ⟨⟩) :=
  keeps_ite (keeps_bind hm fun _ => hf) hf

/-- A property that holds of a state of the strand before and of the rest after survives a meaning whose wait undoes the strand. -/
theorem keeps_heldStrand_of {α : Type} {P : State → Prop} {m : M α} (hm : Keeps P m)
    (hst : ∀ s t, P s → P t → P { t with st := s.st }) : Keeps P (heldStrand m) := by
  intro s hs
  have hm := hm s hs
  unfold heldStrand
  split
  · rename_i t heq
    rw [heq] at hm
    exact hst s t hs hm
  · exact hm

theorem keeps_whole_lax {α : Type} {P : State → Prop} (hP : Lax P) {m : M α} (hm : Keeps P m) : Keeps P (whole m) :=
  keeps_whole hm fun _ _ hs => hP.sys _ hs

theorem keeps_foldlM {α β : Type} {P : State → Prop} {f : β → α → M β} (h : ∀ b a, Keeps P (f b a)) (l : List α) (b : β) :
    Keeps P (l.foldlM f b) := by
  induction l generalizing b with
  | nil => exact keeps_pure b
  | cons a r ih =>
    rw [List.foldlM_cons]
    exact keeps_bind (h b a) fun b => ih b

theorem keeps_filterMapM {α β : Type} {P : State → Prop} {f : α → M (Option β)} (h : ∀ a, Keeps P (f a)) (l : List α) :
    Keeps P (l.filterMapM f) := by
  have loop : ∀ (l : List α) (acc : List β), Keeps P (List.filterMapM.loop f l acc) := by
    intro l
    induction l with
    | nil => intro acc; exact keeps_pure _
    | cons a r ih =>
      intro acc
      refine keeps_bind (h a) fun b => ?_
      cases b with
      | none => exact ih acc
      | some b => exact ih (b :: acc)
  exact loop l []

section Accesses

variable {P : State → Prop} (hP : Lax P)
include hP

theorem keeps_modMem (f : Mem → Mem) : Keeps P (modify fun s => s.modMem f : M PUnit) := keeps_modify fun _ hs => hP.mem _ hs
theorem keeps_modSys (f : Sys → Sys) : Keeps P (modify fun s => s.modSys f : M PUnit) := keeps_modify fun _ hs => hP.sys _ hs

theorem keeps_onlyMem {f : State → State} (h : ∀ s : State, s.OnlyMem (f s)) : Keeps P (modify f : M PUnit) :=
  keeps_modify fun s hs => hP.onlyMem (h s) hs

/-! ### What is owed, and the small effects -/

theorem lax_owe {s : State} (o : Nat) (k : Link) (hs : P s) : P (s.owe o k) := by
  unfold State.owe
  split
  · exact hs
  · exact hP.sys _ hs

theorem lax_share {s : State} (o : Nat) (hs : P s) : P (s.share o) := by
  unfold State.share
  split
  · exact hs
  · exact hP.sys _ hs

theorem lax_signalVector {s : State} (fn : Bool) (v : Nat) (hs : P s) : P (s.signalVector fn v) := by
  unfold State.signalVector
  split
  · exact hs
  · split
    · exact hP.host _ hs
    · exact hP.sys _ hs

theorem lax_signalBoth {s : State} (v : Nat) (hs : P s) : P (s.signalBoth v) :=
  lax_signalVector hP true v (lax_signalVector hP false v hs)

theorem lax_milepost {s : State} (kind new old object count : Nat) (hs : P s) : P (s.milepost kind new old object count) :=
  hP.toll _ hs

theorem lax_rasEvent {s : State} (c : Nat) (hs : P s) : P (s.rasEvent c) :=
  lax_signalBoth hP 1 (hP.cluster c _ (fun _ => rfl) hs)

/-! ### Releases and acquires -/

theorem keeps_settle (o : Nat) : Keeps P (settle o) :=
  keeps_bind keeps_get fun _ => keeps_ite (keeps_pure _) (keeps_bind (keeps_modSys hP _) fun _ => keeps_wait)

omit hP in
theorem keeps_holdDirty (c : Nat) (sc : Scope) : Keeps P (holdDirty c sc) :=
  keeps_bind keeps_get fun _ => keeps_ite keeps_wait (keeps_pure _)

theorem keeps_releaseAt (c o : Nat) (sc : Scope) : Keeps P (releaseAt c o sc) :=
  keeps_bind (keeps_holdDirty c sc) fun _ =>
    keeps_bind (keeps_modify fun s hs => lax_share hP o (hP.onlyMem (onlyMem_release s c sc) hs)) fun _ =>
      keeps_ite (keeps_settle hP o) (keeps_pure _)

theorem keeps_acquireAt (c : Nat) (sc : Scope) : Keeps P (acquireAt c sc) :=
  keeps_bind (keeps_holdDirty c sc) fun _ => keeps_onlyMem hP fun s => onlyMem_acquire s c sc

/-! ### Translation -/

omit hP in
theorem keeps_holdIfStalled (pa : Nat) : Keeps P (holdIfStalled pa) :=
  keeps_bind keeps_get fun _ => keeps_ite keeps_wait (keeps_pure _)

omit hP in
theorem keeps_holdIfFull (c : Nat) : Keeps P (holdIfFull c) :=
  keeps_bind keeps_get fun _ => keeps_ite keeps_wait (keeps_pure _)

omit hP in
theorem keeps_readEntry (pa : Nat) : Keeps P (readEntry pa) :=
  keeps_bind (keeps_holdIfStalled pa) fun _ => keeps_bind keeps_get fun _ => keeps_guard (keeps_raise _ _ _) (keeps_pure _)

omit hP in
theorem keeps_walkFrom (w : Who) (a : Acc) (va : Word) (level table fuel : Nat) : Keeps P (walkFrom w a va level table fuel) := by
  induction fuel generalizing level table with
  | zero => exact keeps_raise _ _ _
  | succ fuel ih =>
    refine keeps_bind keeps_get fun s => keeps_guard (keeps_raise _ _ _) (keeps_bind (keeps_readEntry _) fun e => ?_)
    refine keeps_guard (keeps_raise _ _ _) (keeps_ite ?_ ?_)
    · exact keeps_guard (keeps_raise _ _ _) (keeps_bind (ih _ _) fun _ => keeps_pure _)
    · exact keeps_guard (keeps_raise _ _ _) (keeps_pure _)

theorem keeps_walk (w : Who) (a : Acc) (va : Word) : Keeps P (walk w a va) := by
  unfold walk
  refine keeps_bind keeps_get fun s => keeps_bind ?_ fun r => keeps_ite (keeps_pure _)
    (keeps_bind (keeps_modMem hP _) fun _ => keeps_pure _)
  split
  · exact keeps_walkFrom w a va _ _ _
  · split
    · exact keeps_walkFrom w a va _ _ _
    · exact keeps_walkFrom w a va _ _ _

omit hP in
theorem keeps_checkLeaf (w : Who) (a : Acc) (bits leaf : Nat) (va : Word) : Keeps P (checkLeaf w a bits leaf va) :=
  keeps_bind keeps_get fun _ => keeps_guard (keeps_raise _ _ _) (keeps_guard (keeps_raise _ _ _) (keeps_pure _))

theorem keeps_walkLeaf (w : Who) (a : Acc) (va : Word) : Keeps P (walkLeaf w a va) :=
  keeps_bind (keeps_walk hP w a va) fun _ => keeps_bind (keeps_checkLeaf w a _ _ va) fun _ =>
    keeps_guard (keeps_onlyMem hP fun s => onlyMem_devWrite s _ _ _)
      (keeps_ite (keeps_pure _) (keeps_bind (keeps_modMem hP _) fun _ => keeps_pure _))

theorem keeps_leafOf (w : Who) (a : Acc) (va : Word) : Keeps P (leafOf w a va) := by
  refine keeps_bind keeps_get fun s => ?_
  split
  · exact keeps_ite (keeps_walkLeaf hP w a va) (keeps_bind (keeps_checkLeaf w a _ _ va) fun _ => keeps_pure _)
  · exact keeps_walkLeaf hP w a va

omit hP in
theorem keeps_windowKey (w : Who) (a : Acc) (va : Word) (n : Nat) : Keeps P (windowKey w a va n) := by
  refine keeps_bind keeps_get fun s => keeps_ite (keeps_raise _ _ _) (keeps_ite (keeps_raise _ _ _)
    (keeps_ite (keeps_raise _ _ _) (keeps_ite ?_ ?_)))
  all_goals
    split
    · exact keeps_raise _ _ _
    · exact keeps_pure _

omit hP in
theorem keeps_linkOpen (w : Who) (va : Word) : Keeps P (linkOpen w va) := by
  refine keeps_bind keeps_get fun s => ?_
  split
  · exact keeps_ite (keeps_ite (keeps_raise _ _ _) keeps_wait) (keeps_pure _)
  · exact keeps_pure _

theorem keeps_atsPage (w : Who) (a : Acc) (va : Word) (pa : Nat) : Keeps P (atsPage w a va pa) := by
  refine keeps_bind keeps_get fun s => ?_
  split
  · refine keeps_ite (keeps_pure _) ?_
    split
    · exact keeps_pure _
    · split
      · exact keeps_bind (keeps_modSys hP _) fun _ => keeps_wait
      · split
        · exact keeps_wait
        · refine keeps_bind (keeps_modSys hP _) fun _ => ?_
          split
          · exact keeps_raise _ _ _
          · exact keeps_bind (keeps_modMem hP _) fun _ => keeps_pure _
  · exact keeps_pure _

theorem keeps_translateFull (w : Who) (a : Acc) (va : Word) (n : Nat) : Keeps P (translateFull w a va n) := by
  refine keeps_ite (keeps_bind (keeps_windowKey w a va n) fun _ => keeps_pure _) (keeps_ite (keeps_raise _ _ _) ?_)
  refine keeps_bind (keeps_leafOf hP w a va) fun ⟨bits, leaf⟩ => ?_
  dsimp only
  split
  · exact keeps_bind (keeps_holdIfStalled _) fun _ => keeps_bind (keeps_holdIfFull _) fun _ => keeps_pure _
  · exact keeps_bind (keeps_linkOpen w va) fun _ => keeps_bind (keeps_atsPage hP w a va _) fun _ => keeps_pure _
  · exact keeps_pure _

theorem keeps_translate (w : Who) (a : Acc) (va : Word) (n : Nat) : Keeps P (translate w a va n) :=
  keeps_bind (keeps_translateFull hP w a va n) fun _ => keeps_pure _

/-! ### Reads and writes at a location -/

theorem keeps_peerFails (d : Nat) : Keeps P (peerFails d) :=
  keeps_bind keeps_get fun _ => keeps_ite (keeps_pure _) (keeps_ite (keeps_bind (keeps_modSys hP _) fun _ => keeps_pure _) (keeps_pure _))

theorem keeps_readLoc (w : Who) (va : Word) (l : Loc) (n : Nat) : Keeps P (readLoc w va l n) := by
  cases l with
  | hbm pa ten => exact fun s hs => hP.onlyMem (onlyMem_cluRead s w.cluster ten pa n) hs
  | win key => exact keeps_bind keeps_get fun _ => keeps_pure _
  | host pa => exact keeps_bind keeps_get fun _ => keeps_pure _
  | peer d pa =>
    exact keeps_bind (keeps_peerFails hP d) fun _ => keeps_guard (keeps_raise _ _ _) (keeps_bind keeps_get fun _ => keeps_pure _)

theorem keeps_writeLoc (w : Who) (l : Loc) (bs : List Byte) : Keeps P (writeLoc w l bs) := by
  cases l with
  | hbm pa ten => exact keeps_onlyMem hP fun s => onlyMem_cluWrite s w.cluster ten pa bs
  | win key => exact keeps_modify fun s hs => hP.mem _ hs
  | host pa => exact keeps_modify fun s hs => lax_owe hP _ _ (hP.mem _ hs)
  | peer d pa =>
    exact keeps_bind (keeps_peerFails hP d) fun _ => keeps_ite
      (keeps_modify fun s hs => lax_rasEvent hP _ (lax_milepost hP _ _ _ _ _ hs))
      (keeps_modify fun s hs => lax_owe hP _ _ (hP.mem _ hs))

/-- What every read ends with: poisoned data stops it. -/
theorem keeps_readClean {α : Type} (w : Who) (va : Word) (l : Loc) (n : Nat) (f : List Byte → α) :
    Keeps P (do
      let (bs, p) ← readLoc w va l n
      if p then raise 0x13 0 ((← get).poisonedWord va l n)
      pure (f bs)) :=
  keeps_bind (keeps_readLoc hP w va l n) fun _ =>
    keeps_ite (keeps_bind keeps_get fun _ => keeps_bind (keeps_raise _ _ _) fun _ => keeps_pure _) (keeps_pure _)

theorem keeps_loadAt (w : Who) (va : Word) (n : Nat) : Keeps P (loadAt w va n) :=
  keeps_bind (keeps_translate hP w .load va n) fun l => keeps_readClean hP w va l n _

theorem keeps_storeAt (w : Who) (va : Word) (n v : Nat) : Keeps P (storeAt w va n v) :=
  keeps_bind (keeps_translate hP w .store va n) fun l => keeps_writeLoc hP w l _

theorem keeps_loadDwords (w : Who) (va : Word) (k : Nat) : Keeps P (loadDwords w va k) :=
  keeps_mapM _ fun _ => keeps_bind (keeps_loadAt hP w _ 8) fun _ => keeps_pure _

omit hP in
theorem keeps_aligned (va : Word) (n : Nat) : Keeps P (aligned va n) := keeps_ite (keeps_pure _) (keeps_raise _ _ _)

/-! ### The point of a scope, and host requests -/

theorem keeps_pointRead (w : Who) (sc : Scope) (ea : Word) (l : Loc) (n : Nat) : Keeps P (pointRead w sc ea l n) := by
  cases l with
  | hbm pa ten =>
    exact keeps_ite (keeps_bind (keeps_onlyMem hP fun s => onlyMem_flushLine s _ _) fun _ =>
      keeps_bind keeps_get fun _ => keeps_guard (keeps_raise _ _ _) (keeps_pure _)) (keeps_readClean hP w ea _ n _)
  | _ => exact keeps_readClean hP w ea _ n _

theorem keeps_pointWrite (w : Who) (sc : Scope) (l : Loc) (n v : Nat) : Keeps P (pointWrite w sc l n v) := by
  cases l with
  | hbm pa ten =>
    exact keeps_ite (keeps_bind (keeps_onlyMem hP fun s => onlyMem_flushLine s _ _) fun _ =>
      keeps_onlyMem hP fun s => onlyMem_devWrite s _ _ _) (keeps_writeLoc hP w _ _)
  | _ => exact keeps_writeLoc hP w _ _

theorem keeps_metUnsupported (ea : Word) : Keeps P (metUnsupported ea) :=
  keeps_bind keeps_get fun _ => keeps_ite (keeps_bind (keeps_modSys hP _) fun _ => keeps_raise _ _ _) (keeps_pure _)

theorem keeps_hostLoad (ea : Word) (l : Loc) : Keeps P (hostLoad ea l) := by
  cases l with
  | host pa => exact keeps_metUnsupported hP ea
  | _ => exact keeps_pure _

theorem keeps_hostAtomic (fn : Bool) (op : AmoOp) (ea : Word) (l : Loc) : Keeps P (hostAtomic fn op ea l) := by
  cases l with
  | host pa =>
    cases op with
    | swap | add | cas => exact keeps_bind (keeps_metUnsupported hP ea) fun _ => keeps_modSys hP _
    | _ => exact keeps_raise _ _ _
  | _ => exact keeps_pure _

theorem lax_mbxWrite {s : State} (side : Side) (off : Nat) (bs : List Byte) (hs : P s) : P (s.mbxWrite side off bs) := by
  cases side with
  | host => exact hP.host _ hs
  | supervisor => exact hP.onlyMem (onlyMem_devWrite s _ _ _) hs

theorem lax_doorbell {s : State} (side : Side) (hs : P s) : P (s.doorbell side) := by
  cases side with
  | host => exact lax_signalBoth hP 0 hs
  | supervisor => exact hP.cluster Config.deviceQueue (fun c => { c with bells := c.bells + 1 }) (fun _ => rfl) hs

theorem lax_ring {s : State} (side : Side) (code : Nat) (hs : P s) : P (s.ring side code) := by
  unfold State.ring
  split
  · exact hs
  · split
    · exact lax_doorbell hP side (lax_mbxWrite hP side _ _ (lax_mbxWrite hP side _ _ hs))
    · exact hP.toll _ hs

theorem lax_ringBy {s : State} (op : AmoOp) (sc : Scope) (l : Loc) (hs : P s) : P (s.ringBy op sc l) := by
  unfold State.ringBy
  split
  · exact lax_ring hP .supervisor _ hs
  · exact hs

/-! ### Descriptors and level tables -/

theorem keeps_devLoad (w : Who) (va : Word) (n : Nat) : Keeps P (devLoad w va n) := by
  refine keeps_bind (keeps_translate hP w .load va _) fun l => ?_
  cases l with
  | hbm pa ten =>
    refine keeps_bind keeps_get fun s => ?_
    split
    · exact keeps_raise _ _ _
    · exact keeps_pure _
  | _ => exact keeps_readClean hP w va _ n id

theorem keeps_cachedRead (w : Who) (tid : Nat) (table : Option (Nat × Nat)) (va : Word) (n : Nat) :
    Keeps P (cachedRead w tid table va n) := by
  refine keeps_bind keeps_get fun s => ?_
  split
  · exact keeps_pure _
  · exact keeps_bind (keeps_devLoad hP w va n) fun _ => keeps_bind (keeps_modMem hP _) fun _ => keeps_pure _

theorem keeps_readDesc (w : Who) (tdt : Word) (tid : Nat) : Keeps P (readDesc w tdt tid) := keeps_cachedRead hP w tid none _ 64

theorem keeps_readTable (w : Who) (d : Desc) (tid k : Nat) : Keeps P (readTable w d tid k) :=
  keeps_bind (keeps_cachedRead hP w tid _ _ _) fun _ => keeps_pure _

theorem keeps_checkHeader (w : Who) (d : Desc) (tid h : Nat) (va : Word) : Keeps P (checkHeader w d tid h va) :=
  keeps_guard (keeps_raise _ _ _) (keeps_ite (keeps_bind (keeps_readTable hP w d tid _) fun _ =>
    keeps_guard (keeps_raise _ _ _) (keeps_pure _)) (keeps_pure _))

end Accesses

end Sys2Proof.Machine
end

section
/-!
The evaluation of the elements of a pass keeps every property that asks nothing of memory and link.
-/

namespace Sys2Proof.Machine

/-- An evaluation keeps the property `P` of the state, whatever it has gathered. -/
def KeepsE {α : Type} (P : State → Prop) (m : E α) : Prop := ∀ v, Keeps P (m v)

section Composition

variable {P : State → Prop} {α β : Type}

theorem keepsE_pure (a : α) : KeepsE P (pure a : E α) := fun _ => keeps_pure _
theorem keepsE_get : KeepsE P (get : E Ev) := fun _ => keeps_pure _
theorem keepsE_modify (f : Ev → Ev) : KeepsE P (modify f : E PUnit) := fun _ => keeps_pure _
theorem keepsE_throw (e : Stop) : KeepsE P (throw e : E α) := fun _ => keeps_throw e

theorem keepsE_lift {m : M α} (hm : Keeps P m) : KeepsE P (liftM m : E α) := fun _ => keeps_bind hm fun _ => keeps_pure _

theorem keepsE_bind {m : E α} {f : α → E β} (hm : KeepsE P m) (hf : ∀ a, KeepsE P (f a)) : KeepsE P (m >>= f) :=
  fun v => keeps_bind (hm v) fun r => hf r.1 r.2

theorem keepsE_ite {c : Prop} [Decidable c] {a b : E α} (ha : KeepsE P a) (hb : KeepsE P b) : KeepsE P (if c then a else b) := by
  split
  · exact ha
  · exact hb

theorem keepsE_guard {c : Prop} [Decidable c] {m : E PUnit} {f : PUnit → E α} (hm : KeepsE P m) (hf : KeepsE P (f ⟨⟩)) :
    KeepsE P (if c then m >>= f else f ⟨⟩) :=
  keepsE_ite (keepsE_bind hm fun _ => hf) hf

theorem keepsE_foldlM {f : β → α → E β} (h : ∀ b a, KeepsE P (f b a)) (l : List α) (b : β) : KeepsE P (l.foldlM f b) := by
  induction l generalizing b with
  | nil => exact keepsE_pure b
  | cons a r ih =>
    rw [List.foldlM_cons]
    exact keepsE_bind (h b a) fun b => ih b

end Composition

section Evaluation

variable {P : State → Prop} (hP : Lax P)
include hP

/-! ### What an evaluation gathers -/

omit hP in
theorem keepsE_noteFault (e node c d : Nat) (v b : Word) : KeepsE P (noteFault e node c d v b) := keepsE_modify _

omit hP in
theorem keepsE_noteFlags (e node : Nat) (b fpctl : Word) (f : FFlags) : KeepsE P (noteFlags e node b fpctl f) :=
  keepsE_ite (keepsE_pure _) (keepsE_bind (keepsE_modify _) fun _ => keepsE_ite (keepsE_noteFault _ _ _ _ _ _) (keepsE_pure _))

omit hP in
theorem keepsE_touch (node : Nat) (va : Word) (n : Nat) : KeepsE P (touch node va n) := keepsE_modify _

omit hP in
theorem keepsE_countActive (node : Nat) : KeepsE P (countActive node) := keepsE_modify _

omit hP in
theorem keepsE_flagged (w : Waypoint) (node e : Nat) (r : Nat × FFlags) : KeepsE P (flagged w node e r) :=
  keepsE_bind (keepsE_noteFlags _ _ _ _ _) fun _ => keepsE_pure _

omit hP in
theorem keepsE_valueOr {ss : List Elem} {k : E Nat} (hk : KeepsE P k) : KeepsE P (valueOr ss k) :=
  keepsE_ite (keepsE_pure _) (keepsE_bind hk fun _ => keepsE_pure _)

omit hP in
theorem keepsE_scanElem (x : Strip) (w : Waypoint) (node e v : Nat) : KeepsE P (scanElem x w node e v) :=
  keepsE_bind keepsE_get fun _ => keepsE_bind (keepsE_modify _) fun _ => keepsE_flagged _ _ _ _

omit hP in
theorem keepsE_scanLost (w : Waypoint) (row : Nat) : KeepsE P (scanLost w row) := by
  unfold scanLost
  split
  · exact keepsE_bind keepsE_get fun _ => keepsE_pure _
  · exact keepsE_pure _

omit hP in
theorem keepsE_scanLose (w : Waypoint) (row : Nat) (v : Elem) : KeepsE P (scanLose w row v) := by
  unfold scanLose
  split
  · exact keepsE_ite (keepsE_modify _) (keepsE_pure _)
  · exact keepsE_pure _

/-! ### Accesses of an element -/

omit hP in
theorem keepsE_atElem {α : Type} (e node : Nat) (b : Word) {m : M α} (hm : Keeps P m) : KeepsE P (atElem e node b m) := by
  refine keepsE_bind (keepsE_lift (keeps_attempt hm)) fun r => ?_
  split
  · exact keepsE_pure _
  · exact keepsE_throw _
  · exact keepsE_bind (keepsE_noteFault _ _ _ _ _ _) fun _ => keepsE_pure _

theorem keeps_bywayRead (w : Who) (va : Word) (n : Nat) : Keeps P (bywayRead w va n) := by
  refine keeps_bind (keeps_translate hP w .load va n) fun l => ?_
  cases l with
  | hbm pa ten =>
    exact keeps_bind (keeps_onlyMem hP fun s => onlyMem_cleanLines s _ _) fun _ => keeps_bind keeps_get fun _ =>
      keeps_guard (keeps_raise _ _ _) (keeps_pure _)
  | _ => exact keeps_readClean hP w va _ n _

theorem keeps_readSpan (w : Who) (size : Nat) (va : Word) (n fuel : Nat) : Keeps P (readSpan w size va n fuel) := by
  induction fuel generalizing va n with
  | zero => exact keeps_pure _
  | succ fuel ih =>
    refine keeps_ite (keeps_pure _) (keeps_bind (keeps_translate hP w .load va size) fun l => ?_)
    refine keeps_bind (keeps_readLoc hP w va l _) fun r => ?_
    have hrest : ∀ va n, Keeps P (readSpan w size va n fuel >>= fun r' => pure (r.1 ++ r')) :=
      fun va n => keeps_bind (ih va n) fun _ => keeps_pure _
    exact keeps_ite (keeps_bind keeps_get fun _ => keeps_bind (keeps_raise _ _ _) fun _ => hrest _ _) (hrest _ _)

theorem keeps_readChunk (w : Who) (size : Nat) (d : Desc) (j : Nat) : Keeps P (readChunk w size d j) := by
  refine keeps_bind (keeps_readSpan hP w size _ 16 2) fun h => keeps_guard (keeps_raise _ _ _)
    (keeps_bind (keeps_readSpan hP w size _ _ _) fun data => ?_)
  split
  · exact keeps_raise _ _ _
  · exact keeps_pure _

theorem keepsE_chunkFor (x : Strip) (node e : Nat) (b : Word) (d : Desc) (j : Nat) : KeepsE P (chunkFor x node e b d j) := by
  refine keepsE_bind keepsE_get fun v => ?_
  split
  · exact keepsE_bind (keepsE_modify _) fun _ => keepsE_pure _
  · refine keepsE_bind (keepsE_atElem e node b (keeps_readChunk hP _ _ d j)) fun r => ?_
    split
    · exact keepsE_pure _
    · exact keepsE_bind (keepsE_touch _ _ _) fun _ => keepsE_bind (keepsE_modify _) fun _ => keepsE_pure _

theorem keepsE_chanterElem (x : Strip) (w : Waypoint) (node e : Nat) (d : Desc) (tid row col : Nat) {code : E (Option Nat)}
    (hcode : KeepsE P code) : KeepsE P (chanterElem x w node e d tid row col code) := by
  refine keepsE_bind (keepsE_touch _ _ _) fun _ =>
    keepsE_bind (keepsE_atElem e node w.pc (keeps_loadAt hP _ _ 4)) fun h => ?_
  split
  · exact keepsE_pure _
  · refine keepsE_bind (keepsE_atElem e node w.pc (keeps_checkHeader hP _ d tid _ _)) fun ls => ?_
    split
    · exact keepsE_pure _
    · refine keepsE_bind hcode fun c => ?_
      split
      · exact keepsE_pure _
      · exact keepsE_bind (keepsE_noteFlags _ _ _ _ _) fun _ => keepsE_pure _

omit hP in
/-- An element that a read gives, or that is lost. -/
theorem keepsE_orLost {m : E (Option Nat)} (hm : KeepsE P m) (f : Nat → Elem) :
    KeepsE P (do
      match ← m with
      | none => pure .lost
      | some c => pure (f c)) := by
  refine keepsE_bind hm fun r => ?_
  cases r with
  | none => exact keepsE_pure _
  | some c => exact keepsE_pure _

theorem keepsE_tensorElem (x : Strip) (w : Waypoint) (node e : Nat) (t : Ty) (tid row col : Nat) (gather : Bool) :
    KeepsE P (tensorElem x w node e t tid row col gather) := by
  have hread : ∀ w va n, Keeps P ((if gather then bywayRead else loadAt) w va n) := by
    cases gather with
    | true => exact keeps_bywayRead hP
    | false => exact keeps_loadAt hP
  have htouch : ∀ va, KeepsE P (touch node va (szOf t)) := fun va => keepsE_touch node va (szOf t)
  have hrd := fun va nib => keepsE_bind (htouch va) fun _ =>
    keepsE_bind (keepsE_atElem e node w.pc (hread (x.who e) va (szOf t))) fun r =>
      keepsE_pure (r.map fun raw => pickCode t raw nib)
  exact keepsE_ite (keepsE_chanterElem hP x w node e _ tid row col (hrd _ _)) (keepsE_orLost (hrd _ _) _)

theorem keepsE_chunkElem (x : Strip) (w : Waypoint) (node e : Nat) (t : Ty) (tid i : Nat) :
    KeepsE P (chunkElem x w node e t tid i) := by
  have hrd : ∀ j (f : List Byte → Nat), KeepsE P (do
      match ← chunkFor x node e w.pc (x.p.desc tid) j with
      | none => pure none
      | some bs => pure (some (f bs))) := by
    intro j f
    refine keepsE_bind (keepsE_chunkFor hP x node e w.pc _ j) fun r => ?_
    cases r with
    | none => exact keepsE_pure _
    | some bs => exact keepsE_pure _
  exact keepsE_ite (keepsE_chanterElem hP x w node e _ tid _ _ (hrd _ _)) (keepsE_orLost (hrd _ _) _)

theorem keepsE_directRead (x : Strip) (node e : Nat) (b : Word) (f : Form) (va : Word) (n : Nat) :
    KeepsE P (directRead x node e b f va n) := by
  refine keepsE_bind (keepsE_touch _ _ _) fun _ => ?_
  split
  · exact keepsE_atElem e node b (keeps_loadAt hP _ va n)
  · refine keepsE_bind keepsE_get fun v => ?_
    split
    · exact keepsE_pure _
    · exact keepsE_bind (keepsE_atElem e node b (keeps_loadAt hP _ va n)) fun _ =>
        keepsE_bind (keepsE_modify _) fun _ => keepsE_pure _

/-! ### The elements of a pass -/

omit hP in
/-- A float operation of an element: a type that is none of the formats gives zero. -/
theorem keepsE_ofFmt (w : Waypoint) (node e : Nat) (o : Option Fmt) (f : Fmt → Nat × FFlags) :
    KeepsE P (match o with
      | none => pure 0
      | some g => flagged w node e (f g)) := by
  cases o with
  | none => exact keepsE_pure _
  | some g => exact keepsE_flagged _ _ _ _

theorem keepsE_evalElem (x : Strip) (node : Nat) (w : Waypoint) (r : Res) (e : Nat) (ss : List Elem) :
    KeepsE P (evalElem x node w r e ss) := by
  unfold evalElem
  generalize w.op = op
  cases op with
  | vld | vlds | vldt =>
    dsimp only [WOp.direct]
    exact keepsE_orLost (keepsE_directRead hP x node e w.pc _ _ _) _
  | vldx tid mt =>
    refine keepsE_ite (keepsE_pure _) (keepsE_ite ?_ (keepsE_tensorElem hP x w node e mt tid _ _ true))
    exact keepsE_bind (keepsE_noteFault _ _ _ _ _ _) fun _ => keepsE_pure _
  | vldtd => exact keepsE_tensorElem hP x w node e _ _ _ _ false
  | vldz => exact keepsE_chunkElem hP x w node e _ _ _
  | vfp | fma | cmpF => exact keepsE_valueOr (keepsE_ofFmt w node e _ _)
  | cvt => exact keepsE_valueOr (keepsE_flagged _ _ _ _)
  | scan => exact keepsE_valueOr (keepsE_scanElem _ _ _ _ _)
  | vint | cmpI | pred | mov | reint => exact keepsE_valueOr (keepsE_pure _)
  | sel =>
    dsimp only
    split
    · exact keepsE_ite (keepsE_pure _) (keepsE_pure _)
    · exact keepsE_pure _
  | perm => exact keepsE_ite (keepsE_pure _) (keepsE_pure _)
  | bcast | slide | rand | randf | idx | rowres => exact keepsE_pure _

theorem keepsE_evalWp (x : Strip) (node : Nat) (w : Waypoint) (r : Res) : KeepsE P (evalWp x node w r) := by
  refine keepsE_foldlM (fun acc i => keepsE_ite (keepsE_pure _) ?_) _ _
  split
  · exact keepsE_guard (keepsE_scanLose _ _ _) (keepsE_pure _)
  · refine keepsE_bind (keepsE_scanLost _ _) fun _ => keepsE_ite (keepsE_pure _) ?_
    exact keepsE_bind (keepsE_evalElem hP x node w r _ _) fun _ => keepsE_bind (keepsE_scanLose _ _ _) fun _ =>
      keepsE_guard (keepsE_countActive _) (keepsE_pure _)

theorem keepsE_evalNodes (x : Strip) (want : Nat → Bool) (ns : List Node) : KeepsE P (evalNodes x want ns) := by
  refine keepsE_foldlM (fun r n => ?_) _ _
  cases n with
  | sink k => exact keepsE_pure _
  | wp w more =>
    exact keepsE_foldlM (fun r v => keepsE_ite (keepsE_bind (keepsE_evalWp hP x _ v r) fun _ => keepsE_pure _) (keepsE_pure _)) _ _

theorem keeps_evalAhead (x : Strip) (roots : List Nat) (parts : List Partial) : Keeps P (evalAhead x roots parts) := by
  have hpure : ∀ r : Res × Ev, Keeps P (pure (r.1, r.2.best)) := fun r => keeps_pure (r.1, r.2.best)
  have hgo := fun y want ns => keeps_bind (keepsE_evalNodes hP y want ns (Ev.start parts)) hpure
  refine keeps_bind (keeps_probe _) fun r => ?_
  split
  · exact keeps_pure _
  · exact hgo _ _ _

end Evaluation

end Sys2Proof.Machine
end

section
/-!
What words of mode U leave alone (R31, R290, R296): the mode, the privileged state registers, the partition and the pin of every core and the
slots of every matrix engine. Forcing a pass, arrivals and exits, copy jobs and launches keep them.
-/

namespace Sys2Proof.Machine

/-! ### Tables with a key -/

@[simp] theorem aget_aset {α : Type} (d : α) (l : List (Nat × α)) (k : Nat) (v : α) (j : Nat) :
    aget d (aset l k v) j = if k = j then v else aget d l j := by
  induction l with
  | nil => rfl
  | cons p r ih =>
    obtain ⟨a, x⟩ := p
    by_cases hak : a = k
    · subst hak
      by_cases haj : a = j <;> simp [aset, aget, haj]
    · by_cases hlt : k < a
      · simp [aset, aget, hak, hlt]
      · by_cases haj : a = j
        · subst haj
          simp [aset, aget, hak, hlt, Ne.symm hak]
        · simp [aset, aget, hak, hlt, haj, ih]

/-- What a change of every entry leaves of an entry, it leaves of the entry found. -/
theorem aget_map_eq {α β : Type} (d : α) (l : List (Nat × α)) (g : α → α) (f : α → β) (h : ∀ x, f (g x) = f x) (k : Nat) :
    f (aget d (l.map fun p => (p.1, g p.2)) k) = f (aget d l k) := by
  induction l with
  | nil => rfl
  | cons p r ih =>
    obtain ⟨a, x⟩ := p
    by_cases hak : a = k <;> simp [aget, hak, h, ih]

/-! ### The shielded part of the state -/

/-- What only mode S and a trap change of a strand: its mode, the registers that only mode S writes, and those that a trap writes. -/
def Strand.shield (t : Strand) : Mode × List Word :=
  (t.mode, [t.sr.tvec, t.sr.escratch, t.sr.context, t.sr.ptbase, t.sr.wmbase, t.sr.wmsize, t.sr.savearea,
    t.sr.epc, t.sr.ecause, t.sr.eva, t.sr.eblame, t.sr.eforce, t.sr.estatus, t.sr.istatus])

/-- `t` has the shielded part of the strand, the partitions and pins, and the matrix slots, of `s`. -/
structure State.Kept (s t : State) : Prop where
  shield : t.st.shield = s.st.shield
  part : ∀ c k, (t.fab.core c k).part = (s.fab.core c k).part ∧ (t.fab.core c k).pin = (s.fab.core c k).pin
  slots : ∀ c, (t.cluster c).slots = (s.cluster c).slots

theorem State.Kept.refl (s : State) : s.Kept s := ⟨rfl, fun _ _ => ⟨rfl, rfl⟩, fun _ => rfl⟩

@[simp] theorem cluster_modCluster (s : State) (c : Nat) (g : Cluster → Cluster) (j : Nat) :
    (s.modCluster c g).cluster j = if c = j then g (s.cluster c) else s.cluster j :=
  aget_aset Cluster.fresh s.fab.clusters c _ j

theorem kept_lax (s : State) : Lax s.Kept where
  mem _ h := ⟨h.shield, h.part, h.slots⟩
  sys _ h := ⟨h.shield, h.part, h.slots⟩
  host _ h := ⟨h.shield, h.part, h.slots⟩
  toll _ h := ⟨h.shield, h.part, h.slots⟩
  free _ h := ⟨h.shield, h.part, h.slots⟩
  cluster := by
    intro t c g hg h
    refine ⟨h.shield, h.part, fun j => ?_⟩
    rw [cluster_modCluster]
    split
    · next hcj => rw [hg, hcj, h.slots]
    · exact h.slots j

section Changes

variable {s t : State}

/-- A change of the strand that leaves its shielded part. -/
theorem State.Kept.setSt (h : s.Kept t) {x : Strand} (hx : x.shield = t.st.shield) : s.Kept { t with st := x } :=
  ⟨hx.trans h.shield, h.part, h.slots⟩

theorem State.Kept.mapStrands (h : s.Kept t) {f : Strand → Strand} (hf : ∀ x, (f x).shield = x.shield) :
    s.Kept (t.mapStrands f) :=
  ⟨(hf t.st).trans h.shield, h.part, h.slots⟩

theorem State.Kept.modSys (h : s.Kept t) (f : Sys → Sys) : s.Kept (t.modSys f) := (kept_lax s).sys _ h

theorem State.Kept.modCluster (h : s.Kept t) (c : Nat) {g : Cluster → Cluster} (hg : ∀ x, (g x).slots = x.slots) :
    s.Kept (t.modCluster c g) :=
  (kept_lax s).cluster c g hg h

theorem State.Kept.mapClusters (h : s.Kept t) {g : Cluster → Cluster} (hg : ∀ x, (g x).slots = x.slots) :
    s.Kept (t.modFab fun f => { f with clusters := f.clusters.map fun c => (c.1, g c.2) }) :=
  ⟨h.shield, h.part, fun c => (aget_map_eq Cluster.fresh t.fab.clusters g Cluster.slots hg c).trans (h.slots c)⟩

theorem State.Kept.adv (h : s.Kept t) : s.Kept t.adv := h.setSt rfl

theorem State.Kept.setReg (h : s.Kept t) (d : Reg) (v : Word) : s.Kept (t.setReg d v) :=
  h.setSt (by simp [Strand.shield])

theorem State.Kept.put (h : s.Kept t) (d : Reg) (v : Word) : s.Kept (t.put d v) := (h.setReg d v).adv

end Changes

/-- A meaning that changes the strand only, and leaves its shielded part. -/
theorem keeps_strand {s : State} {f : Strand → Strand} (hf : ∀ x, (f x).shield = x.shield) :
    Keeps s.Kept (modify fun t => { t with st := f t.st } : M PUnit) :=
  keeps_modify fun _ h => h.setSt (hf _)

theorem keeps_adv {s : State} : Keeps s.Kept (modify State.adv : M PUnit) := keeps_modify fun _ h => h.adv

theorem keeps_put {s : State} (d : Reg) (v : Word) : Keeps s.Kept (modify fun t => t.put d v : M PUnit) :=
  keeps_modify fun _ h => h.put d v

theorem keeps_heldStrand_kept {α : Type} {s : State} {m : M α} (hm : Keeps s.Kept m) : Keeps s.Kept (heldStrand m) :=
  keeps_heldStrand_of hm fun _ _ h h' => h'.setSt (h.shield.trans h'.shield.symm)

/-! ### The checks of a pass -/

section Checks

variable {P : State → Prop} (hP : Lax P)
include hP

theorem keeps_candTables (w : Who) (d : Desc) (tid : Nat) : Keeps P (candTables w d tid) :=
  keeps_ite (keeps_mapM _ fun k => keeps_bind (keeps_readTable hP w d tid k) fun _ => keeps_pure _) (keeps_pure _)

theorem keeps_openDesc (w : Who) (tdt : Word) (tid : Nat) (u : Use) (ty : Option Ty) : Keeps P (openDesc w tdt tid u ty) := by
  refine keeps_bind (keeps_readDesc hP w tdt tid) fun bs => keeps_guard (keeps_raise _ _ _) ?_
  cases u with
  | quant col0 vl =>
    exact keeps_bind (keeps_candTables hP w _ tid) fun _ => keeps_guard (keeps_raise _ _ _) (keeps_pure _)
  | _ => exact keeps_pure _

theorem keeps_readDescs (t : Strand) (p : Pass) : Keeps P (readDescs t p) := by
  refine keeps_foldlM (fun a x => ?_) _ _
  split
  · exact keeps_pure _
  · refine keeps_bind (keeps_attempt (keeps_openDesc hP _ _ _ _ _)) fun r => ?_
    split
    · exact keeps_pure _
    · exact keeps_throw _
    · exact keeps_pure _

theorem keeps_ffStops (x : Strip) (w : Waypoint) (e : Nat) : Keeps P (ffStops x w e) := by
  unfold ffStops
  split
  · exact keeps_pure _
  · refine keeps_bind (keeps_probe _) fun r => ?_
    split
    · exact keeps_bind (keeps_translateFull hP _ _ _ _) fun _ => keeps_throw _
    · exact keeps_pure _
    · exact keeps_pure _
    · exact keeps_pure _

theorem keeps_ffTrimOf (x : Strip) (r : Res) (w : Waypoint) : Keeps P (ffTrimOf x r w) := by
  refine keeps_foldlM (fun a i => keeps_ite (keeps_pure _) ?_) _ _
  exact keeps_bind (keeps_ffStops hP x w _) fun _ => keeps_ite (keeps_pure _) (keeps_pure _)

theorem keeps_ffTrim (x : Strip) (parts : List Partial) (fuel : Nat) (k : Option Nat) : Keeps P (ffTrim x parts fuel k) := by
  induction fuel generalizing x k with
  | zero => exact keeps_pure _
  | succ fuel ih =>
    unfold ffTrim
    refine keeps_bind (keeps_ite (keeps_pure _) (keeps_evalAhead hP x _ parts)) fun r =>
      keeps_bind (keeps_filterMapM (keeps_ffTrimOf hP x r.1) _) fun ks => ?_
    split
    · exact keeps_pure _
    · exact keeps_ite (keeps_pure _) (keeps_ite (keeps_pure _) (ih _ _))

/-! ### The writes of a record -/

theorem keeps_devTargets (w : Who) (va : Word) (bs : List Byte) (fuel : Nat) : Keeps P (devTargets w va bs fuel) := by
  induction fuel generalizing va bs with
  | zero => exact keeps_pure _
  | succ fuel ih =>
    exact keeps_ite (keeps_pure _) (keeps_bind (keeps_translate hP w .store va _) fun _ => keeps_bind (ih _ _) fun _ => keeps_pure _)

theorem keeps_devStore (w : Who) (va : Word) (bs : List Byte) (fuel : Nat) : Keeps P (devStore w va bs fuel) := by
  refine keeps_bind (keeps_devTargets hP w va bs fuel) fun ts => keeps_forM ts fun q => ?_
  split
  · exact keeps_onlyMem hP fun s => (onlyMem_flushLine s _ _).trans (onlyMem_devWrite _ _ _ _)
  · exact keeps_writeLoc hP w _ _

theorem keeps_writeWaymarks (p : Pass) : Keeps P (writeWaymarks p) := by
  refine keeps_bind keeps_get fun s => ?_
  dsimp only
  split
  · exact keeps_pure _
  · refine keeps_ite (keeps_pure _) (keeps_bind (keeps_modSys hP _) fun _ => keeps_forM _ fun q => ?_)
    refine keeps_bind (keeps_attempt (keeps_devStore hP _ _ _ _)) fun r => ?_
    split
    · exact keeps_throw _
    · exact keeps_pure _

end Checks

/-! ### Forcing -/

section Forcing

variable {s : State}

theorem keeps_checkPass (i : Nat) (p : Pass) (df : Option PFault) : Keeps s.Kept (checkPass i p df) := by
  refine keeps_bind keeps_get fun u => keeps_bind (keeps_ite (keeps_pure _) (keeps_ffTrim (kept_lax s) _ _ _ _)) fun trim => ?_
  refine keeps_modify fun t h => h.setSt ?_
  cases trim <;> rfl

/-- A sink's results in the strand as its pass completes: its register, and its row results. -/
def Strand.takeResults (p : Pass) (t : Strand) (k : Sink) : Strand :=
  let t := match sinkResult p k with | none => t | some (d, v) => t.set d v
  match rowValues p k with | none => t | some (slot, vs) => { t with rows := aset t.rows slot vs }

theorem shield_takeResults (p : Pass) (t : Strand) (k : Sink) : (Strand.takeResults p t k).shield = t.shield := by
  unfold Strand.takeResults
  dsimp only
  split <;> split <;> simp [Strand.shield]

theorem shield_finish (t : Strand) (p : Pass) : (t.finish p).shield = t.shield :=
  foldl_keeps (fun x : Strand => x.shield = t.shield) p.sinks (Strand.takeResults p)
    (fun x k hx => (shield_takeResults p x k).trans hx) t rfl

theorem keeps_completePass (p : Pass) : Keeps s.Kept (completePass p) := by
  unfold completePass
  split
  · exact keeps_modify fun _ h => h.setSt rfl
  · exact keeps_bind (keeps_writeWaymarks (kept_lax s) p) fun _ => keeps_strand fun x => shield_finish x p

theorem keeps_forceEmpty (p : Pass) : Keeps s.Kept (forceEmpty p) :=
  keeps_bind (keeps_modify fun _ h => h.setSt rfl) fun _ => keeps_whole_lax (kept_lax s) (keeps_completePass p)

theorem keeps_forceSome (p : Pass) : Keeps s.Kept (forceSome p) :=
  keeps_bind keeps_get fun t => keeps_bind (keeps_readDescs (kept_lax s) t.st p) fun _ => keeps_bind keeps_get fun _ =>
    keeps_bind (keeps_modify fun _ h => h.setSt rfl) fun _ => keeps_ite (keeps_checkPass _ _ _) (keeps_pure _)

theorem keeps_forceQueue : Keeps s.Kept forceQueue :=
  keeps_bind keeps_get fun _ => keeps_ite (keeps_pure _)
    (keeps_bind (keeps_modify fun _ h => h.setSt rfl) fun _ => keeps_ite (keeps_forceEmpty _) (keeps_forceSome _))

theorem keeps_force : Keeps s.Kept force :=
  keeps_heldStrand_kept (keeps_bind keeps_get fun _ => keeps_ite (keeps_pure _) (keeps_ite keeps_wait keeps_forceQueue))

theorem keeps_queueSink (q : Bool) (regs : List Reg) (roots : List Nat) {make : Strand → Strand}
    (hmake : ∀ x, (make x).shield = x.shield) : Keeps s.Kept (queueSink q regs roots make) := by
  have hjoin : Keeps s.Kept (heldStrand do
      modify fun s => { s with st := make s.st }
      if q then pure ()
      else if ((← get).st.passes.filter Pass.inFlight).length ≥ 2 then waitHere
      else forceQueue
      modify fun s => State.adv { s with st := s.st.reclaim }) := by
    have hend : Keeps s.Kept (modify fun s => State.adv { s with st := s.st.reclaim } : M PUnit) :=
      keeps_modify fun t h => State.Kept.adv (h.setSt (show t.st.reclaim.shield = t.st.shield from rfl))
    exact keeps_heldStrand_kept (keeps_bind (keeps_strand hmake) fun _ => keeps_ite hend
      (keeps_bind keeps_get fun _ => keeps_ite (keeps_bind keeps_wait fun _ => hend) (keeps_bind keeps_forceQueue fun _ => hend)))
  have hready : Keeps s.Kept (stillReady regs) := keeps_bind keeps_get fun _ => keeps_ite keeps_wait (keeps_pure _)
  exact keeps_bind keeps_get fun _ => keeps_ite (keeps_bind keeps_force fun _ => keeps_bind hready fun _ => hjoin) hjoin

end Forcing

/-! ### Groups, markers and the exit of a strand -/

section Groups

variable {s t : State}

theorem State.Kept.onlyMem {u : State} (h : s.Kept t) (hu : t.OnlyMem u) : s.Kept u := (kept_lax s).onlyMem hu h

theorem State.Kept.share (h : s.Kept t) (o : Nat) : s.Kept (t.share o) := lax_share (kept_lax s) o h

theorem State.Kept.wake (h : s.Kept t) (who : Strand → Bool) : s.Kept (t.wake who) :=
  h.mapStrands fun x => by split <;> rfl

theorem State.Kept.setGroup (h : s.Kept t) (ctx idx : Nat) (g : Group) : s.Kept (t.setGroup ctx idx g) := by
  unfold State.setGroup
  dsimp only
  split
  · exact h.modSys _
  · exact State.Kept.wake (h.modSys _) _

theorem State.Kept.fireMarker (h : s.Kept t) : s.Kept t.fireMarker := by
  unfold State.fireMarker
  split
  · exact h
  · have hrest : ∀ ms, s.Kept { t with st := { t.st with markers := ms } } := fun _ => h.setSt rfl
    dsimp only
    split
    · exact hrest _
    · split
      · exact hrest _
      · exact (((hrest _).onlyMem (onlyMem_release _ _ _)).share _).setGroup _ _ _

theorem State.Kept.fireReady (h : s.Kept t) (fuel : Nat) : s.Kept (t.fireReady fuel) := by
  induction fuel generalizing t with
  | zero => exact h
  | succ fuel ih =>
    unfold State.fireReady
    split
    · exact h
    · split
      · exact ih h.fireMarker
      · exact h

theorem State.Kept.exitGroups (h : s.Kept t) : s.Kept t.exitGroups := by
  refine foldl_keeps s.Kept _ _ (fun u g hu => ?_) t h
  split
  · exact hu
  · split
    · exact hu
    · split
      · exact hu
      · exact hu.setGroup _ _ _

theorem State.Kept.exitStrand (h : s.Kept t) : s.Kept t.exitStrand := by
  unfold State.exitStrand
  refine State.Kept.share (State.Kept.setSt (((h.fireReady 9).exitGroups.modSys _).modSys _) ?_) _
  rfl

end Groups

/-! ### Copy jobs -/

section Jobs

variable {s t : State}

theorem State.Kept.dropJob (h : s.Kept t) (c : Nat) (j : Job) : s.Kept (t.dropJob c j) := by
  unfold State.dropJob
  exact State.Kept.wake (h.modCluster c (by exact fun _ => rfl)) _

theorem keeps_writeCompletion (c : Nat) (j : Job) (w : Who) : Keeps s.Kept (writeCompletion c j w) := by
  have hput : ∀ off v, Keeps s.Kept (do
      let l ← translate w .store (BitVec.ofNat 64 (j.c.cwa + off)) 8
      pointWrite w (jobScope j.c.scope) l 8 v) := fun off v =>
    keeps_bind (keeps_translate (kept_lax s) w .store _ 8) fun _ => keeps_pointWrite (kept_lax s) w _ _ 8 v
  exact keeps_bind (keeps_releaseAt (kept_lax s) c _ _) fun _ =>
    keeps_ite (keeps_bind (hput 8 _) fun _ => keeps_bind (hput 16 _) fun _ => hput 0 _) (hput 0 _)

theorem keeps_completeJob (c : Nat) (j : Job) (w : Who) : Keeps s.Kept (completeJob c j w) := by
  have hdrop : ∀ r : Option Word, Keeps s.Kept (do modify fun s => s.dropJob c j; pure r : M (Option Word)) := fun _ =>
    keeps_bind (keeps_modify fun t h => h.dropJob c j) fun _ => keeps_pure _
  refine keeps_bind (keeps_attempt (keeps_writeCompletion c j w)) fun r => ?_
  split
  · exact keeps_throw _
  · exact hdrop none
  · exact hdrop (some _)

theorem keeps_readCard (w : Who) (tdt va : Word) : Keeps s.Kept (readCard w tdt va) :=
  keeps_bind (keeps_aligned va 64) fun _ => keeps_bind (keeps_loadDwords (kept_lax s) w va 8) fun _ =>
    keeps_bind (keeps_ite (keeps_readDesc (kept_lax s) w tdt _) (keeps_pure _)) fun _ => keeps_guard (keeps_raise _ _ _) (keeps_pure _)

theorem keeps_setCopying (c : Option Copying) : Keeps s.Kept (modify fun t => t.setCopying c : M PUnit) :=
  keeps_modify fun _ h => h.setSt rfl

theorem keeps_beginCopy (va : Word) : Keeps s.Kept (beginCopy va) := by
  refine keeps_bind keeps_get fun u => ?_
  have hrest : ∀ c : Copying, Keeps s.Kept (do
      if !c.released then do
        releaseAt u.st.cluster u.who.owner .clu
        modify fun t => t.setCopying (some { c with released := true })
      if !c.posted then do
        storeAt u.who (BitVec.ofNat 64 (parseCard c.card).cwa) 8 0
        modify fun t => t.setCopying (some { c with released := true, posted := true })
      pure c) := by
    intro c
    have hpost : Keeps s.Kept (do
        if !c.posted then do
          storeAt u.who (BitVec.ofNat 64 (parseCard c.card).cwa) 8 0
          modify fun t => t.setCopying (some { c with released := true, posted := true })
        pure c) :=
      keeps_ite (keeps_bind (keeps_storeAt (kept_lax s) _ _ _ _) fun _ => keeps_bind (keeps_setCopying _) fun _ => keeps_pure _)
        (keeps_pure _)
    exact keeps_ite (keeps_bind (keeps_releaseAt (kept_lax s) _ _ _) fun _ => keeps_bind (keeps_setCopying _) fun _ => hpost) hpost
  refine keeps_bind ?_ hrest
  split
  · exact keeps_pure _
  · exact keeps_bind (keeps_readCard _ _ _) fun _ => keeps_bind (keeps_setCopying _) fun _ => keeps_pure _

theorem State.Kept.acceptJob (h : s.Kept t) (va : Word) (ws : List Word) (d : List Byte) : s.Kept (t.acceptJob va ws d) := by
  unfold State.acceptJob
  exact State.Kept.modCluster (h.modSys _) _ (by exact fun _ => rfl)

theorem keeps_readCompletion (va : Word) : Keeps s.Kept (readCompletion va) := by
  refine keeps_bind (keeps_aligned va 32) fun _ => keeps_bind keeps_get fun _ => keeps_bind (keeps_loadAt (kept_lax s) _ va 8) fun w =>
    keeps_ite ?_ ?_
  · exact keeps_bind keeps_get fun _ => keeps_bind (keeps_translate (kept_lax s) _ _ va 8) fun _ =>
      keeps_bind (keeps_onlyMem (kept_lax s) fun u => onlyMem_refetch u _) fun _ => keeps_pure _
  · exact keeps_bind keeps_get fun _ => keeps_bind (keeps_acquireAt (kept_lax s) _ _) fun _ => keeps_pure _

end Jobs

/-! ### Completion records, the end of a context, launches -/

section Launches

variable {s t : State}

theorem keeps_releaseEverywhere : Keeps s.Kept releaseEverywhere :=
  keeps_bind keeps_get fun _ => keeps_guard keeps_wait
    (keeps_bind (keeps_onlyMem (kept_lax s) onlyMem_releaseAll) fun _ => keeps_settle (kept_lax s) 0)

theorem keeps_writeRecord (c : Ctx) (cra handle : Word) (status : Nat) (va : Word) :
    Keeps s.Kept (writeRecord c cra handle status va) := by
  have hput : ∀ off v, Keeps s.Kept (do
      let l ← translate c.who .store (cra + BitVec.ofNat 64 off) 8
      pointWrite c.who .sys l 8 v) := fun off v =>
    keeps_bind (keeps_translate (kept_lax s) _ _ _ 8) fun _ => keeps_pointWrite (kept_lax s) _ _ _ 8 v
  refine keeps_bind keeps_releaseEverywhere fun _ => keeps_bind (keeps_attempt (keeps_guard (keeps_raise _ _ _) ?_)) fun r => ?_
  · exact keeps_bind (hput 8 _) fun _ => keeps_bind (hput 16 _) fun _ => keeps_bind (hput 24 _) fun _ =>
      keeps_bind (keeps_translate (kept_lax s) _ _ _ 8) fun _ => keeps_bind (keeps_hostAtomic (kept_lax s) _ _ _ _) fun _ =>
        keeps_bind (keeps_pointRead (kept_lax s) _ _ _ _ 8) fun _ => keeps_pointWrite (kept_lax s) _ _ _ 8 _
  · split
    · refine keeps_bind (keeps_modify fun u h => ?_) fun _ => keeps_pure _
      unfold State.signal
      split
      · exact h
      · exact lax_signalVector (kept_lax s) _ _ h
    · exact keeps_throw _
    · exact keeps_pure _

theorem keeps_logUnless (ok : Bool) : Keeps s.Kept (logUnless ok) := keeps_ite (keeps_pure _) (keeps_modSys (kept_lax s) _)

theorem keeps_finishLaunch (l : Launch) (status : Nat) (va : Word) : Keeps s.Kept (finishLaunch l status va) := by
  have hend : Keeps s.Kept (modify fun s => (s.modSys fun y =>
      { y with launches := y.launches.filter fun x => x.id ≠ l.id }).wake fun t => t.ctx == l.ctx : M PUnit) :=
    keeps_modify fun u h => State.Kept.wake (h.modSys _) _
  refine keeps_bind keeps_get fun u => ?_
  split
  · exact hend
  · exact keeps_bind (keeps_writeRecord _ _ _ _ _) fun ok => keeps_bind (keeps_logUnless ok) fun _ => hend

theorem keeps_cancelJobs (n : Nat) : Keeps s.Kept (cancelJobs n) :=
  keeps_bind keeps_get fun _ => keeps_forM _ fun _ => keeps_forM _ fun _ => keeps_bind (keeps_completeJob _ _ _) fun _ => keeps_pure _

/-- A cluster as the end of a context leaves it: without the context's matrix operations and jobs. -/
def Cluster.dropCtx (n : Nat) (x : Cluster) : Cluster :=
  { x with mops := x.mops.filter fun o => o.ctx ≠ n, jobs := x.jobs.filter fun j => j.ctx ≠ n }

theorem keeps_endContext (n status : Nat) (va : Word) : Keeps s.Kept (endContext n status va) := by
  refine keeps_bind (keeps_cancelJobs n) fun _ => keeps_bind (keeps_modify fun u h => ?_) fun _ => ?_
  · have hshare : s.Kept (u.strands.foldl (fun s1 t => if t.ctx = n ∧ t.stand ≠ .none then s1.share (2 * t.sid) else s1) u) := by
      refine foldl_keeps s.Kept _ _ (fun u x hu => ?_) u h
      split
      · exact hu.share _
      · exact hu
    have hgone : ∀ x : Strand, (if x.ctx = n ∧ x.stand ≠ .none then x.gone [] else x).shield = x.shield := fun x => by
      split <;> rfl
    have hdrop : ∀ x : Cluster, (Cluster.dropCtx n x).slots = x.slots := fun _ => rfl
    exact (hshare.mapStrands hgone).mapClusters hdrop
  · exact keeps_bind keeps_get fun _ => keeps_bind (keeps_forM _ fun l => keeps_finishLaunch l status va) fun _ =>
      keeps_modify fun u h => (h.modSys _).modSys _

theorem keeps_rejectRec (c : Ctx) (r : Rec) : Keeps s.Kept (rejectRec c r) :=
  keeps_bind (keeps_writeRecord _ _ _ _ _) fun ok => keeps_logUnless ok

theorem keeps_setLaunching (l : Option Launching) : Keeps s.Kept (modify fun t => t.setLaunching l : M PUnit) :=
  keeps_modify fun _ h => h.setSt rfl

theorem keeps_beginLaunch (va : Word) : Keeps s.Kept (beginLaunch va) := by
  refine keeps_bind keeps_get fun u => keeps_bind ?_ fun l => keeps_ite (keeps_pure _)
    (keeps_bind (keeps_releaseAt (kept_lax s) _ _ _) fun _ => keeps_bind (keeps_setLaunching _) fun _ => keeps_pure _)
  split
  · exact keeps_pure _
  · exact keeps_bind (keeps_aligned va 128) fun _ => keeps_bind (keeps_loadDwords (kept_lax s) _ va 16) fun _ =>
      keeps_bind (keeps_modify fun _ h => h.setSt rfl) fun _ => keeps_pure _

theorem State.Kept.accept (h : s.Kept t) (c : Ctx) (r : Rec) (base : Word) : s.Kept (t.accept c r base) := by
  unfold State.accept
  exact State.Kept.modSys (h.modSys _) _

end Launches

end Sys2Proof.Machine
end

section
/-!
Every word of mode U keeps the shielded part of the state, or takes a trap (R31, R296).
-/

namespace Sys2Proof.Machine

theorem State.Kept.setPc {s t : State} (h : s.Kept t) (v : Word) : s.Kept (t.setPc v) := h.setSt rfl

/-! ### What a word may come to -/

/-- `t` keeps what `s` shields, or a trap was taken in a state that keeps it. -/
def State.Confined (s t : State) : Prop :=
  s.Kept t ∨ ∃ c d v pc b f sp u, s.Kept u ∧ t = takeTrap c d v pc b f sp u

/-- Every next state of an outcome is confined. -/
def ConfinedOut (s : State) (o : Out) : Prop := KeepsOut s.Confined o

section Outcomes

variable {s t : State}

theorem confined_next (h : s.Kept t) : ConfinedOut s (.next t) := by
  rintro u ⟨⟩
  exact .inl h

theorem confined_takeTrap (h : s.Kept t) (c d : Nat) (v pc b f : Word) (sp : Bool) : ConfinedOut s (.next (takeTrap c d v pc b f sp t)) := by
  rintro u ⟨⟩
  exact .inr ⟨c, d, v, pc, b, f, sp, t, h, rfl⟩

theorem confined_trapHere (h : s.Kept t) (c d : Nat) (v : Word) : ConfinedOut s (.next (trapHere c d v t)) :=
  confined_takeTrap h c d v _ 0 0 false

theorem confined_self : ConfinedOut s (.next s) := confined_next (.refl s)
theorem confined_trapWord (c d w : Nat) : ConfinedOut s (trapWord c d w s) := confined_trapHere (.refl s) c d _

variable {o o' : Out}

theorem confined_ite {c : Prop} [Decidable c] (h : ConfinedOut s o) (h' : ConfinedOut s o') : ConfinedOut s (if c then o else o') := by
  split
  · exact h
  · exact h'

theorem confined_whenReady (rs : List Reg) (h : ConfinedOut s o) : ConfinedOut s (whenReady rs s o) := confined_ite confined_self h
theorem confined_vectorWord (w : Nat) (h : ConfinedOut s o) : ConfinedOut s (vectorWord w s o) := confined_ite (confined_trapWord _ _ _) h
theorem confined_syncWord (w : Nat) (h : ConfinedOut s o) : ConfinedOut s (syncWord w s o) := confined_ite (confined_trapWord _ _ _) h
theorem confined_matrixWord (w : Nat) (h : ConfinedOut s o) : ConfinedOut s (matrixWord w s o) := confined_ite h (confined_trapWord _ _ _)

/-- A privileged word of mode U is a trap, whatever it would do. -/
theorem confined_privileged (hu : s.st.mode = .u) (w : Nat) (o : Out) : ConfinedOut s (privileged w s o) := by
  unfold privileged
  rw [if_pos hu]
  exact confined_trapWord _ _ _

/-- A meaning that keeps what is shielded is confined, also when it traps. -/
theorem confined_runM {m : M Unit} (hm : Keeps s.Kept m) : ConfinedOut s (runM m s) := by
  have h := hm s (.refl s)
  unfold runM
  split
  all_goals
    rename_i heq
    rw [heq] at h
  · exact confined_next h
  · exact confined_next h
  · exact confined_trapHere (h.setPc _) _ _ _

theorem confined_runE {m : M Unit} (hm : Keeps s.Kept m) : ConfinedOut s (runE m s) := by
  have h := hm s (.refl s)
  unfold runE
  split
  · rename_i heq
    rw [heq] at h
    exact confined_next h
  · exact confined_next ((kept_lax s).sys _ (.refl s))

end Outcomes

/-! ### Scalar words -/

section Scalar

variable {s : State}

theorem State.Kept.modSr {t : State} (h : s.Kept t) {f : SRegs → SRegs}
    (hf : ({ t.st with sr := f t.st.sr } : Strand).shield = t.st.shield) : s.Kept (t.modSr f) := h.setSt hf

theorem confined_alu2 (d a b : Reg) (f : Word → Word → Word) : ConfinedOut s (alu2 d a b f s) :=
  confined_whenReady _ (confined_next ((State.Kept.refl s).put _ _))

theorem confined_alu1 (d a : Reg) (f : Word → Word) : ConfinedOut s (alu1 d a f s) :=
  confined_whenReady _ (confined_next ((State.Kept.refl s).put _ _))

theorem confined_branch {n : Nat} (rs : List Reg) (taken : Bool) (off : BitVec n) : ConfinedOut s (branch rs taken off s) := by
  refine confined_whenReady _ (confined_next ?_)
  cases taken with
  | true => exact (State.Kept.refl s).setSt rfl
  | false => exact (State.Kept.refl s).adv

theorem confined_jumpReg (a : Reg) {link : State → State} (h : s.Kept (link s)) : ConfinedOut s (jumpReg a link s) :=
  confined_ite (confined_trapHere (.refl s) _ _ _) (confined_next (h.setSt rfl))

theorem confined_fpResult (d : Reg) (v : Nat) (f : FFlags) : ConfinedOut s (fpResult d v f s) := by
  have hflags : s.Kept (s.modSr fun r => r.addFlags f) := (State.Kept.refl s).modSr rfl
  exact confined_ite (confined_trapHere hflags _ _ _) (confined_next (hflags.put _ _))

theorem confined_fpReady (rs : List Reg) (d : Reg) (v : Nat) (f : FFlags) : ConfinedOut s (whenReady rs s (fpResult d v f s)) :=
  confined_whenReady rs (confined_fpResult d v f)

theorem confined_scalarLoad (d a : Reg) (i : BitVec 13) (n : Nat) (ext : Nat → Word) : ConfinedOut s (scalarLoad d a i n ext s) :=
  confined_whenReady _ (confined_runM (keeps_bind (keeps_aligned _ n) fun _ => keeps_bind (keeps_loadAt (kept_lax s) _ _ n) fun _ =>
    keeps_put _ _))

theorem confined_scalarStore (d a : Reg) (i : BitVec 13) (n : Nat) : ConfinedOut s (scalarStore d a i n s) :=
  confined_whenReady _ (confined_runM (keeps_bind (keeps_aligned _ n) fun _ => keeps_bind (keeps_storeAt (kept_lax s) _ _ n _) fun _ =>
    keeps_adv))

theorem confined_mfs (hu : s.st.mode = .u) (d : Reg) (n : BitVec 11) : ConfinedOut s (execMfs d n s) :=
  confined_ite (confined_privileged hu _ _)
    (confined_ite confined_self (confined_whenReady _ (confined_next ((State.Kept.refl s).put _ _))))

/-- The state registers below 0x100 are not shielded (R31). -/
theorem kept_stateWrite (n : Nat) (hn : n < 256) (v : Word) : s.Kept (stateWrite n v s) := by
  unfold stateWrite
  split
  case h_1 | h_2 | h_3 | h_4 | h_5 | h_6 => exact (State.Kept.refl s).modSr rfl
  case h_23 => exact .refl s
  all_goals omega

theorem confined_mts (hu : s.st.mode = .u) (a : Reg) (n : BitVec 11) : ConfinedOut s (execMts a n s) := by
  unfold execMts
  dsimp only
  split
  · exact confined_privileged hu _ _
  · next hn =>
    have hlow : n.toNat < 256 := by simpa [privilegedState] using hn
    exact confined_ite confined_self (confined_whenReady _ (confined_next (kept_stateWrite _ hlow _).adv))

theorem confined_atomic (op : AmoOp) (d a b : Reg) (sc : Scope) (o : Order) (z : Size) (w : Nat) :
    ConfinedOut s (atomic op d a b sc o z w s) := by
  have hP := kept_lax s
  refine confined_whenReady _ (confined_runM (keeps_bind (keeps_aligned _ _) fun _ => keeps_guard (keeps_raise _ _ _)
    (keeps_guard (keeps_holdDirty _ _) (keeps_guard (keeps_releaseAt hP _ _ _) ?_))))
  refine keeps_bind (keeps_translate hP _ _ _ _) fun l => keeps_bind (keeps_hostAtomic hP _ _ _ l) fun _ =>
    keeps_bind (keeps_pointRead hP _ _ _ l _) fun m => keeps_bind (keeps_pointWrite hP _ _ l _ _) fun _ =>
      keeps_bind (keeps_modify fun t h => lax_ringBy hP op _ l h) fun _ => ?_
  exact keeps_guard (keeps_acquireAt hP _ _) (keeps_put _ _)

theorem confined_lda (d a : Reg) (sc : Scope) (o : Order) (z : Size) : ConfinedOut s (execLda d a sc o z s) := by
  have hP := kept_lax s
  refine confined_whenReady _ (confined_runM (keeps_bind (keeps_aligned _ _) fun _ => keeps_guard (keeps_holdDirty _ _) ?_))
  exact keeps_bind (keeps_translate hP _ _ _ _) fun l => keeps_bind (keeps_hostLoad hP _ l) fun _ =>
    keeps_bind (keeps_pointRead hP _ _ _ l _) fun m => keeps_guard (keeps_acquireAt hP _ _) (keeps_put _ _)

theorem confined_stl (a b : Reg) (sc : Scope) (o : Order) (z : Size) : ConfinedOut s (execStl a b sc o z s) := by
  have hP := kept_lax s
  refine confined_whenReady _ (confined_runM (keeps_bind (keeps_aligned _ _) fun _ => keeps_guard (keeps_releaseAt hP _ _ _) ?_))
  exact keeps_bind (keeps_translate hP _ _ _ _) fun l => keeps_bind (keeps_pointWrite hP _ _ l _ _) fun _ => keeps_adv

theorem confined_strip (d a p : Reg) (k : BitVec 2) (z : BitVec 8) : ConfinedOut s (execStrip d a p k z s) := by
  refine confined_vectorWord _ (confined_ite confined_self (confined_whenReady _ (confined_next ?_)))
  have hptrs := foldl_keeps s.Kept (List.range (k.toNat + 1))
    (fun t j => t.setReg (regPlus p j) (s.reg (regPlus p j) + BitVec.ofNat 64 (s.st.sr.vl * 2 ^ bitsAt z.toNat (2 * j) 2)))
    (fun t j h => h.setReg _ _) s (.refl s)
  exact ((hptrs.setReg _ _).modSr rfl).put _ _

theorem confined_setvl (d a : Reg) : ConfinedOut s (execSetvl d a s) :=
  confined_vectorWord _ (confined_ite confined_self (confined_whenReady _ (confined_next (((State.Kept.refl s).modSr rfl).put _ _))))

theorem confined_setrows (d a : Reg) : ConfinedOut s (execSetrows d a s) :=
  confined_vectorWord _ (confined_whenReady _ (confined_next (((State.Kept.refl s).modSr rfl).put _ _)))

end Scalar

/-! ### The issue of vector words -/

section Issue

variable {P : State → Prop}

theorem keeps_faultWord {α : Type} (w : Nat) : Keeps P (faultWord w : M α) := keeps_raise _ _ _

theorem keeps_nameSrc (w : Nat) (pred : Bool) (r : Reg) : Keeps P (nameSrc w pred r) := by
  refine keeps_bind keeps_get fun s => ?_
  dsimp only
  split
  · exact keeps_faultWord w
  · split
    · exact keeps_faultWord w
    · exact keeps_ite (keeps_pure _) (keeps_faultWord w)

theorem keeps_dataSrc (w : Nat) (ok : Ty → Bool) (r : Reg) : Keeps P (dataSrc w ok r) := by
  refine keeps_bind (keeps_nameSrc w false r) fun x => ?_
  split
  · exact keeps_faultWord w
  · exact keeps_ite (keeps_pure _) (keeps_faultWord w)

theorem keeps_predSrc (w : Nat) (r : Reg) : Keeps P (predSrc w r) := keeps_bind (keeps_nameSrc w true r) fun _ => keeps_pure _

theorem keeps_maskSrc (w : Nat) (m : Mask) : Keeps P (maskSrc w m) := by
  cases m with
  | none => exact keeps_pure _
  | some p => exact keeps_bind (keeps_predSrc w p) fun _ => keeps_pure _

theorem keeps_oldSrc (w : Nat) (pred : Bool) (vd : Reg) (m : Mask) (ty : Option Ty) : Keeps P (oldSrc w pred vd m ty) := by
  refine keeps_bind keeps_get fun s => keeps_ite (keeps_pure _) ?_
  split
  · exact keeps_pure _
  · split
    · exact keeps_pure _
    · exact keeps_ite (keeps_pure _) (keeps_faultWord w)

theorem keeps_needWaypoints (w : Nat) (vn pn : List (Nat × Nat)) (ops : List Nat) (c : Nat) (row : Bool) :
    Keeps P (needWaypoints w vn pn ops c row) :=
  keeps_bind keeps_get fun _ => keeps_ite (keeps_pure _) (keeps_ite keeps_wait (keeps_raise _ _ _))

theorem keeps_alignedReg (t : Ty) (v : Word) : Keeps P (alignedReg t v) :=
  keeps_ite (keeps_pure _) (keeps_ite (keeps_pure _) (keeps_raise _ _ _))

theorem keeps_tensorId (v : Word) : Keeps P (tensorId v) := keeps_ite (keeps_pure _) (keeps_raise _ _ _)

theorem keeps_twoSrcs (w : Nat) (ok : Ty → Bool) (va vb : Reg) : Keeps P (twoSrcs w ok va vb) :=
  keeps_bind (keeps_dataSrc w ok va) fun _ => keeps_bind (keeps_dataSrc w ok vb) fun _ => keeps_ite (keeps_pure _) (keeps_faultWord w)

theorem keeps_noFault : Keeps P noFault := keeps_pure _

theorem keeps_storeSrc (w : Nat) (t : Ty) (r : Reg) : Keeps P (storeSrc w t r) :=
  keeps_bind (keeps_dataSrc w _ r) fun _ => keeps_pure _

end Issue

section Vector

variable {s : State}

theorem shield_bind (t : Strand) (pred : Bool) (l : List (Nat × Waypoint)) : (t.bind pred l).shield = t.shield := by
  refine foldl_keeps (fun x : Strand => x.shield = t.shield) l _ (fun x y hx => ?_) t rfl
  split
  · exact hx
  · exact hx

theorem confined_vectorIssue (w : Nat) (regs : List Reg) {m : M Unit} (hm : Keeps s.Kept m) : ConfinedOut s (vectorIssue w regs m s) :=
  confined_vectorWord w (confined_ite confined_self (confined_whenReady regs (confined_runM hm)))

theorem confined_issueOne (w : Nat) (pred : Bool) (vd : Reg) (m : Mask) (regs : List Reg) {plan : M Plan} {late : M Unit} (draws : Bool)
    (hplan : Keeps s.Kept plan) (hlate : Keeps s.Kept late) : ConfinedOut s (issueOne w pred vd m regs plan late draws s) := by
  refine confined_vectorIssue w regs (keeps_bind hplan fun p => keeps_bind (keeps_maskSrc w m) fun mk =>
    keeps_bind (keeps_oldSrc w pred vd m p.ty) fun old => keeps_bind hlate fun _ => keeps_bind keeps_get fun t =>
      keeps_bind (keeps_needWaypoints _ _ _ _ _ _) fun _ => keeps_modify fun u h => State.Kept.adv (h.setSt ?_))
  cases draws with
  | false => exact shield_bind _ _ _
  | true => exact shield_bind _ _ _

theorem confined_directLoad (w : Nat) (vd : Reg) (m : Mask) (t : Ty) (regs : List Reg) (al : List Word) (op : WOp) :
    ConfinedOut s (directLoad w vd m t regs al op s) :=
  confined_issueOne w false vd m regs false
    (keeps_bind (keeps_maskSrc w m) fun _ => keeps_bind (keeps_oldSrc w false vd m _) fun _ =>
      keeps_bind (keeps_forM al fun v => keeps_alignedReg t v) fun _ => keeps_pure _)
    keeps_noFault

theorem confined_vldFf (vd a : Reg) (m : Mask) (t : Ty) : ConfinedOut s (execVldFf vd a m t s) :=
  confined_issueOne _ false vd m [a] false
    (keeps_bind (keeps_maskSrc _ m) fun _ => keeps_bind (keeps_oldSrc _ false vd m _) fun _ =>
      keeps_bind (keeps_alignedReg t _) fun _ => keeps_guard (keeps_faultWord _) (keeps_pure _))
    keeps_noFault

theorem confined_vldSeg (vd a b : Reg) (m : Mask) (t : Ty) : ConfinedOut s (execVldSeg vd a b m t s) :=
  confined_vectorIssue _ [a] (keeps_bind (keeps_maskSrc _ m) fun _ => keeps_bind (keeps_mapM _ fun _ => keeps_oldSrc _ _ _ _ _) fun _ =>
    keeps_bind (keeps_alignedReg t _) fun _ => keeps_bind keeps_get fun _ => keeps_bind (keeps_needWaypoints _ _ _ _ _ _) fun _ =>
      keeps_modify fun _ h => State.Kept.adv (h.setSt (shield_bind _ _ _)))

theorem confined_vldx (vd a b : Reg) (m : Mask) (t : Ty) : ConfinedOut s (execVldx vd a b m t s) :=
  confined_issueOne _ false vd m [a] false (keeps_bind (keeps_dataSrc _ _ b) fun _ => keeps_pure _) (keeps_tensorId _)

theorem confined_vldtd (vd a b : Reg) (m : Mask) (t : Ty) : ConfinedOut s (execVldtd vd a b m t s) :=
  confined_issueOne _ false vd m [a, b] false (keeps_pure _) (keeps_tensorId _)

theorem confined_vldz (vd a b : Reg) (m : Mask) (t : Ty) : ConfinedOut s (execVldz vd a b m t s) :=
  confined_issueOne _ false vd m [a, b] false (keeps_pure _) (keeps_tensorId _)

theorem confined_vec2 (w : Nat) (ok : Ty → Bool) (op : WOp) (vd va vb : Reg) (m : Mask) : ConfinedOut s (vec2 w ok op vd va vb m s) :=
  confined_issueOne w false vd m [] false (keeps_bind (keeps_twoSrcs w ok va vb) fun _ => keeps_pure _) keeps_noFault

theorem confined_vec1 (w : Nat) (ok : Ty → Bool) (op : WOp) (vd va : Reg) (regs : List Reg) (m : Mask) :
    ConfinedOut s (vec1 w ok op vd va regs m s) :=
  confined_issueOne w false vd m regs false (keeps_bind (keeps_dataSrc w ok va) fun _ => keeps_pure _) keeps_noFault

theorem confined_vec3 (w k : Nat) (vd va vb vc : Reg) (m : Mask) : ConfinedOut s (vec3 w k vd va vb vc m s) :=
  confined_issueOne w false vd m [] false (keeps_bind (keeps_twoSrcs w _ va vb) fun _ => keeps_bind (keeps_dataSrc w _ vc) fun _ =>
    keeps_ite (keeps_pure _) (keeps_faultWord w)) keeps_noFault

theorem confined_compare2 (w : Nat) (ok : Ty → Bool) (op : WOp) (pd va vb : Reg) (m : Mask) :
    ConfinedOut s (compare2 w ok op pd va vb m s) :=
  confined_issueOne w true pd m [] false (keeps_bind (keeps_twoSrcs w ok va vb) fun _ => keeps_pure _) keeps_noFault

theorem confined_compare1 (w : Nat) (ok : Ty → Bool) (op : WOp) (pd va vb : Reg) (m : Mask) :
    ConfinedOut s (compare1 w ok op pd va vb m s) :=
  confined_issueOne w true pd m [vb] false (keeps_bind (keeps_dataSrc w ok va) fun _ => keeps_pure _) keeps_noFault

theorem confined_convert (w k : Nat) (vd va : Reg) (t : Ty) (m : Mask) : ConfinedOut s (convert w k vd va t m s) :=
  confined_issueOne w false vd m [] _ (keeps_bind (keeps_dataSrc w _ va) fun _ => keeps_pure _) keeps_noFault

theorem confined_vbcast (vd : Reg) (t : Ty) (b : Reg) (m : Mask) : ConfinedOut s (execVbcast vd t b m s) :=
  confined_issueOne _ false vd m [b] false (keeps_ite (keeps_pure _) (keeps_faultWord _)) keeps_noFault

theorem confined_vsel (vd va vb m : Reg) : ConfinedOut s (execVsel vd va vb m s) :=
  confined_issueOne _ false vd none [] false (keeps_bind (keeps_twoSrcs _ _ va vb) fun _ => keeps_bind (keeps_predSrc _ m) fun _ =>
    keeps_pure _) keeps_noFault

theorem confined_vslide (vd va vb : Reg) (m : Mask) : ConfinedOut s (execVslide vd va vb m s) :=
  confined_issueOne _ false vd m [vb] false (keeps_bind (keeps_dataSrc _ _ va) fun _ => keeps_pure _)
    (keeps_ite (keeps_pure _) (keeps_raise _ _ _))

theorem confined_vperm (vd va vb : Reg) (m : Mask) : ConfinedOut s (execVperm vd va vb m s) :=
  confined_issueOne _ false vd m [] false (keeps_bind (keeps_dataSrc _ _ va) fun _ => keeps_bind (keeps_dataSrc _ _ vb) fun _ =>
    keeps_pure _) keeps_noFault

theorem confined_vreint (vd va : Reg) (t : Ty) (m : Mask) : ConfinedOut s (execVreint vd va t m s) :=
  confined_issueOne _ false vd m [] false (keeps_bind (keeps_dataSrc _ _ va) fun _ => keeps_pure _) keeps_noFault

/-- An instruction that makes a waypoint of nothing. -/
theorem confined_source (w : Nat) (vd : Reg) (m : Mask) (p : Plan) (draws : Bool) :
    ConfinedOut s (issueOne w false vd m [] (pure p) noFault draws s) :=
  confined_issueOne w false vd m [] draws (keeps_pure _) keeps_noFault

theorem confined_predOp (w k : Nat) (pd : Reg) (srcs : List Reg) : ConfinedOut s (predOp w k pd srcs s) :=
  confined_issueOne w true pd none [] false (keeps_bind (keeps_mapM _ fun r => keeps_predSrc w r) fun _ => keeps_pure _) keeps_noFault

/-! ### Sinks -/

theorem confined_directStore (w : Nat) (vss : List Reg) (q : Bool) (m : Mask) (t : Ty) (regs : List Reg) (al : List Word) (op : SOp) :
    ConfinedOut s (directStore w vss q m t regs al op s) :=
  confined_vectorIssue w regs (keeps_bind (keeps_mapM _ fun r => keeps_storeSrc w t r) fun _ => keeps_bind (keeps_maskSrc w m) fun _ =>
    keeps_bind (keeps_forM al fun v => keeps_alignedReg t v) fun _ => keeps_queueSink q regs _ fun _ => rfl)

theorem confined_scatter (w : Nat) (vs a b : Reg) (q : Bool) (m : Mask) (t : Ty) (ok det : Bool) (op : SOp) :
    ConfinedOut s (scatter w vs a b q m t ok det op s) :=
  confined_vectorIssue w [a] (keeps_guard (keeps_raise _ _ _) (keeps_guard (keeps_faultWord w)
    (keeps_bind (keeps_storeSrc w t vs) fun _ => keeps_bind (keeps_dataSrc w _ b) fun _ => keeps_bind (keeps_maskSrc w m) fun _ =>
      keeps_bind (keeps_tensorId _) fun _ => keeps_queueSink q [a] _ fun _ => rfl)))

theorem confined_tileStore (w : Nat) (vs a b : Reg) (q : Bool) (m : Mask) (t : Ty) (ok : Ty → Bool) (draws : Bool) (op : SOp) :
    ConfinedOut s (tileStore w vs a b q m t ok draws op s) := by
  refine confined_vectorIssue w [a, b] (keeps_bind (keeps_dataSrc w ok vs) fun _ => keeps_bind (keeps_maskSrc w m) fun _ =>
    keeps_bind (keeps_tensorId _) fun _ => keeps_queueSink q [a, b] _ fun x => ?_)
  cases draws <;> rfl

theorem confined_reduce (w k : Nat) (ok : Ty → Bool) (d va : Reg) (m : Mask) (q : Bool) : ConfinedOut s (reduce w k ok d va m q s) :=
  confined_vectorIssue w [d] (keeps_guard (keeps_raise _ _ _) (keeps_bind (keeps_dataSrc w ok va) fun _ =>
    keeps_bind (keeps_maskSrc w m) fun _ => keeps_queueSink q [d] _ fun _ => rfl))

theorem confined_reducePred (w k : Nat) (d va : Reg) (m : Mask) (q : Bool) : ConfinedOut s (reducePred w k d va m q s) :=
  confined_vectorIssue w [d] (keeps_bind (keeps_predSrc w va) fun _ => keeps_bind (keeps_maskSrc w m) fun _ =>
    keeps_queueSink q [d] _ fun _ => rfl)

theorem confined_reduceRows (w : Nat) (mx : Bool) (vd va : Reg) (m : Mask) (q : Bool) : ConfinedOut s (reduceRows w mx vd va m q s) :=
  confined_vectorIssue w [] (keeps_bind (keeps_dataSrc w _ va) fun _ => keeps_bind (keeps_maskSrc w m) fun _ =>
    keeps_bind (keeps_oldSrc w false vd m _) fun _ => keeps_guard (keeps_faultWord w) (keeps_bind keeps_get fun _ =>
      keeps_bind (keeps_needWaypoints _ _ _ _ _ _) fun _ => keeps_queueSink q [] _ fun _ => rfl))

theorem confined_force : ConfinedOut s (execForce s) :=
  confined_vectorWord _ (confined_runM (keeps_bind keeps_force fun _ => keeps_adv))

theorem confined_convoy : ConfinedOut s (execConvoy s) :=
  confined_vectorWord _ (confined_next (State.Kept.adv ((State.Kept.refl s).setSt rfl)))

theorem confined_vdrop (vd : Reg) : ConfinedOut s (execVdrop vd s) :=
  confined_vectorWord _ (confined_next (State.Kept.adv ((State.Kept.refl s).setSt rfl)))

theorem confined_vsync : ConfinedOut s (execVsync s) := by
  refine confined_vectorWord _ (confined_next ?_)
  split
  · exact .refl s
  · exact (State.Kept.refl s).adv

end Vector

/-! ### Barriers, fences, copies, the matrix engine, launches and control -/

section Control

variable {s : State}

theorem confined_barrierWord (fn : Nat) (g : Fin 4) {k : Group → M Unit} (hk : ∀ e, Keeps s.Kept (k e)) :
    ConfinedOut s (barrierWord fn g s k) := by
  refine confined_syncWord _ ?_
  split
  · exact confined_trapWord _ _ _
  · exact confined_runM (hk _)

theorem confined_barArrive (g : Fin 4) : ConfinedOut s (execBarArrive g s) :=
  confined_barrierWord 0 g fun _ => keeps_guard keeps_wait (keeps_guard (keeps_raise _ _ _) (keeps_bind keeps_force fun _ =>
    keeps_modify fun t h => State.Kept.adv (h.setSt (show Strand.shield _ = t.st.shield from rfl))))

theorem confined_barWait (g : Fin 4) : ConfinedOut s (execBarWait g s) :=
  confined_barrierWord 1 g fun _ => keeps_guard (keeps_raise _ _ _) (keeps_guard keeps_wait
    (keeps_bind (keeps_acquireAt (kept_lax s) _ _) fun _ => keeps_adv))

theorem confined_barTest (g : Fin 4) : ConfinedOut s (execBarTest g s) :=
  confined_syncWord _ (confined_whenReady _ (confined_barrierWord 2 g fun _ => keeps_guard (keeps_raise _ _ _)
    (keeps_ite (keeps_bind (keeps_acquireAt (kept_lax s) _ _) fun _ => keeps_put _ _) (keeps_put _ _))))

theorem confined_fence (fn : Nat) (sc : Scope) : ConfinedOut s (fence fn sc s) :=
  confined_syncWord _ (confined_runM (keeps_bind keeps_force fun _ => keeps_bind keeps_get fun _ => keeps_guard keeps_wait
    (keeps_bind (keeps_releaseAt (kept_lax s) _ _ _) fun _ => keeps_bind (keeps_acquireAt (kept_lax s) _ _) fun _ => keeps_adv)))

theorem confined_xcopy (d a : Reg) : ConfinedOut s (execXcopy d a s) :=
  confined_whenReady _ (confined_runM (keeps_bind (keeps_beginCopy _) fun _ => keeps_bind keeps_get fun _ => keeps_guard keeps_wait
    (keeps_modify fun t h => State.Kept.put (State.Kept.acceptJob (h.setSt (show (t.setCopying none).st.shield = _ from rfl)) _ _ _) _ _)))

theorem confined_xwait (d a : Reg) : ConfinedOut s (execXwait d a s) :=
  confined_whenReady _ (confined_runM (keeps_bind (keeps_readCompletion _) fun _ => keeps_guard keeps_wait
    (keeps_ite (keeps_bind (keeps_loadAt (kept_lax s) _ _ 8) fun _ => keeps_bind (keeps_raise _ _ _) fun _ => keeps_put _ _)
      (keeps_put _ _))))

theorem confined_xpoll (d a : Reg) : ConfinedOut s (execXpoll d a s) :=
  confined_whenReady _ (confined_runM (keeps_bind (keeps_readCompletion _) fun _ => keeps_put _ _))

theorem confined_xcancel (a : Reg) : ConfinedOut s (execXcancel a s) := by
  refine confined_whenReady _ ?_
  split
  · exact confined_next (State.Kept.refl s).adv
  · split
    · exact confined_next (State.Kept.refl s).adv
    · refine confined_runE (keeps_bind (keeps_completeJob _ _ _) fun r => ?_)
      split
      · exact keeps_adv
      · exact keeps_endContext _ _ _

theorem confined_tdInvalidate (tid : Option Nat) : ConfinedOut s (tdInvalidate tid s) :=
  confined_runM (keeps_bind (keeps_releaseAt (kept_lax s) _ _ _) fun _ =>
    keeps_modify fun _ h => State.Kept.adv ((kept_lax s).mem _ h))

theorem confined_tdinv (a : Reg) : ConfinedOut s (execTdinv a s) :=
  confined_whenReady _ (confined_ite (confined_trapHere (.refl s) _ _ _) (confined_tdInvalidate _))

theorem keeps_mxDesc (tid : Nat) : Keeps s.Kept (mxDesc tid) :=
  keeps_bind keeps_get fun _ => keeps_bind (keeps_readDesc (kept_lax s) _ _ tid) fun _ => keeps_ite (keeps_pure _) (keeps_raise _ _ _)

theorem keeps_enqueueMop (o : MOp) : Keeps s.Kept (enqueueMop o) :=
  keeps_bind (keeps_bind keeps_get fun _ => keeps_ite keeps_wait (keeps_pure _)) fun _ =>
    keeps_modify fun _ h => State.Kept.adv (State.Kept.modCluster (h.modSys _) _ (by exact fun _ => rfl))

theorem confined_mma (d a b : Reg) : ConfinedOut s (execMma d a b s) := by
  refine confined_matrixWord _ (confined_runM (keeps_guard (keeps_raise _ _ _) (keeps_guard (keeps_raise _ _ _)
    (keeps_bind (keeps_mxDesc _) fun ba => keeps_bind (keeps_mxDesc _) fun bb => keeps_bind (keeps_mxDesc _) fun bc => ?_))))
  have hrest : ∀ (c c' : Prop) [Decidable c] [Decidable c'] (o : MOp), Keeps s.Kept (do
      if c then matrixFault 6 (mxWord d a b 0)
      if c' then matrixFault 7 (mxWord d a b 0)
      enqueueMop o) := fun _ _ _ _ o =>
    keeps_guard (keeps_raise _ _ _) (keeps_guard (keeps_raise _ _ _) (keeps_enqueueMop o))
  dsimp only
  split
  · exact keeps_bind (keeps_raise _ _ _) fun _ => hrest _ _ _
  · exact keeps_ite (hrest _ _ _) (keeps_bind (keeps_raise _ _ _) fun _ => hrest _ _ _)

theorem confined_mzero (d b : Reg) : ConfinedOut s (execMzero d b s) :=
  confined_matrixWord _ (confined_runM (keeps_guard (keeps_raise _ _ _) (keeps_guard (keeps_raise _ _ _)
    (keeps_bind (keeps_mxDesc _) fun _ => keeps_guard (keeps_raise _ _ _) (keeps_guard (keeps_raise _ _ _)
      (keeps_guard (keeps_raise _ _ _) (keeps_enqueueMop _)))))))

theorem confined_msync (d a : Reg) : ConfinedOut s (execMsync d a s) :=
  confined_matrixWord _ (confined_runM (keeps_guard (keeps_raise _ _ _) (keeps_guard keeps_wait
    (keeps_modify fun _ h => State.Kept.put (h.modCluster _ (by exact fun _ => rfl)) _ _))))

theorem confined_mtarget (a : Reg) : ConfinedOut s (execMtarget a s) :=
  confined_matrixWord _ (confined_runM (keeps_guard (keeps_raise _ _ _)
    (keeps_modify fun t h => State.Kept.adv (h.setSt (show Strand.shield _ = t.st.shield from rfl)))))

theorem confined_mshape (a b : Reg) : ConfinedOut s (execMshape a b s) :=
  confined_matrixWord _ (confined_runM (keeps_guard (keeps_raise _ _ _)
    (keeps_modify fun t h => State.Kept.adv (h.setSt (show Strand.shield _ = t.st.shield from rfl)))))

theorem confined_mslot (hu : s.st.mode = .u) (d a b : Reg) : ConfinedOut s (execMslot d a b s) :=
  confined_matrixWord _ (confined_privileged hu _ _)

theorem confined_launch (d a : Reg) : ConfinedOut s (execLaunch d a s) := by
  refine confined_whenReady _ (confined_runM (keeps_bind (keeps_beginLaunch _) fun l => keeps_bind keeps_get fun _ =>
    keeps_guard keeps_wait (keeps_bind keeps_get fun t => keeps_bind ?_ fun h =>
      keeps_modify fun u hk => State.Kept.put (hk.setSt (show (u.setLaunching none).st.shield = _ from rfl)) _ _)))
  split
  · exact keeps_pure _
  · exact keeps_ite (keeps_bind (keeps_rejectRec _ _) fun _ => keeps_pure _)
      (keeps_bind (keeps_modify fun _ h => h.accept _ _ _) fun _ => keeps_pure _)

theorem confined_exit : ConfinedOut s (execExit s) :=
  confined_runM (keeps_bind keeps_force fun _ => keeps_bind keeps_get fun _ => keeps_guard keeps_wait
    (keeps_modify fun _ h => h.exitStrand))

theorem confined_wait : ConfinedOut s (execWait s) :=
  confined_ite (confined_next (State.Kept.adv ((State.Kept.refl s).setSt (show s.st.rouse.shield = _ from rfl))))
    (confined_next ((State.Kept.refl s).setSt rfl))

theorem confined_ifence : ConfinedOut s (execIfence s) := confined_next (State.Kept.adv ((kept_lax s).mem _ (.refl s)))

theorem State.Kept.modAsks {t : State} (h : s.Kept t) (f : List Ask → List Ask) : s.Kept (t.modAsks f) := h.setSt rfl

theorem keeps_askPeer (w : Who) (d pa n : Nat) : Keeps s.Kept (askPeer w d pa n) :=
  keeps_bind keeps_get fun _ => keeps_ite (keeps_pure _) (keeps_bind (keeps_peerFails (kept_lax s) d) fun _ => keeps_ite
    (keeps_modify fun _ h => State.Kept.modAsks (lax_rasEvent (kept_lax s) _ (lax_milepost (kept_lax s) _ _ _ _ _ h)) _)
    (keeps_modify fun _ h => (h.modAsks _).modSys _))

theorem keeps_writeBackPages (w : Who) (lo hi fuel : Nat) : Keeps s.Kept (writeBackPages w lo hi fuel) := by
  induction fuel generalizing lo with
  | zero => exact keeps_pure _
  | succ fuel ih =>
    refine keeps_ite (keeps_pure _) (keeps_ite (ih _) (keeps_guard (keeps_raise _ _ _) ?_))
    refine keeps_bind (keeps_leafOf (kept_lax s) w _ _) fun r => keeps_ite ?_ (keeps_ite ?_ (ih _))
    · exact keeps_bind (keeps_holdIfStalled _) fun _ => keeps_bind (keeps_onlyMem (kept_lax s) fun t => onlyMem_writeToArray t _ _ _)
        fun _ => ih _
    · exact keeps_bind (keeps_askPeer _ _ _ _) fun _ => ih _

theorem confined_cachewb (a b : Reg) : ConfinedOut s (execCachewb a b s) :=
  confined_whenReady _ (confined_runM (keeps_guard keeps_wait (keeps_bind (keeps_writeBackPages _ _ _ _) fun _ =>
    keeps_bind keeps_get fun _ => keeps_guard keeps_wait (keeps_modify fun _ h => (h.modAsks _).adv))))

end Control

end Sys2Proof.Machine
end

section
/-!
Words of mode U and the privileged part of the machine (R20, R31, R290, R296).
-/

namespace Sys2Proof.Machine

/-- A word of mode U keeps what is shielded, or traps: the words are taken by their meanings, and an event has no word. -/
theorem confined_exec {i : Instr} {w : IWord} {s : State} (hw : encode i = some w) (hu : s.st.mode = .u) :
    ConfinedOut s (exec i s) := by
  have hself : s.Kept s := .refl s
  unfold exec
  cases i with
  | add | sub | and | or | xor | andn | sll | srl | sra | ror | slt | sltu | min | max | minu | maxu | mul | mulh | mulhu
  | div | divu | rem | remu =>
    exact confined_alu2 _ _ _ _
  | clz | ctz | popc | sextb | sexth | sextw | zextb | zexth | zextw | bswap | addi | andi | ori | xori | slli | srli | srai
  | rori | slti | sltiu =>
    exact confined_alu1 _ _ _
  | ldz | ldk => exact confined_whenReady _ (confined_next (hself.put _ _))
  | beqz | bnez | bltz | bgez | bgtz | blez | beq | bne | blt | bge | bltu | bgeu =>
    exact confined_branch _ _ _
  | b => exact confined_next (hself.setPc _)
  | bl => exact confined_whenReady _ (confined_next ((hself.setReg _ _).setPc _))
  | jr => exact confined_whenReady _ (confined_jumpReg _ hself)
  | jlr => exact confined_whenReady _ (confined_jumpReg _ (hself.setReg _ _))
  | fadd | fsub | fmul | fdiv | feq | flt | fle | fsqrt | fcvti | fabs | fneg | fclass | fmac | fnmac | fmin | fmax | fcvtf
  | fcvtp =>
    exact confined_fpReady _ _ _ _
  | ldb | ldbu | ldh | ldhu | ldw | ldwu | ldd =>
    exact confined_scalarLoad _ _ _ _ _
  | stb | sth | stw | std => exact confined_scalarStore _ _ _ _
  | mfs => exact confined_mfs hu _ _
  | mts => exact confined_mts hu _ _
  | amoswap | amoadd | amoand | amoor | amoxor | amomin | amomax | amominu | amomaxu | amocas | amofadd =>
    exact confined_atomic _ _ _ _ _ _ _ _
  | lda => exact confined_lda _ _ _ _ _
  | stl => exact confined_stl _ _ _ _ _
  | strip => exact confined_strip _ _ _ _ _
  | setvl => exact confined_setvl _ _
  | setrows => exact confined_setrows _ _
  | vld | vldRow | vldCol | vlds | vldt => exact confined_directLoad _ _ _ _ _ _ _
  | vldFf => exact confined_vldFf _ _ _ _
  | vldSeg => exact confined_vldSeg _ _ _ _ _
  | vldx => exact confined_vldx _ _ _ _ _
  | vldtd => exact confined_vldtd _ _ _ _ _
  | vldz => exact confined_vldz _ _ _ _ _
  | vadd | vsub | vmul | vmulh | vmulhu | vand | vor | vxor | vsll | vsrl | vsra | vmin | vmax | vminu | vmaxu | vadds
  | vaddsu | vsubs | vsubsu | vfadd | vfsub | vfmul | vfdiv | vfmin | vfmax | vfsgnj =>
    exact confined_vec2 _ _ _ _ _ _ _
  | vabs | vneg | vnot | vpopc | vclz | vaddVintx | vsubVintx | vmulVintx | vmulhVintx | vmulhuVintx | vandVintx | vorVintx
  | vxorVintx | vsllVintx | vsrlVintx | vsraVintx | vminVintx | vmaxVintx | vminuVintx | vmaxuVintx | vaddsVintx
  | vaddsuVintx | vsubsVintx | vsubsuVintx | vfabs | vfneg | vfsqrt | vfrcp | vfrsq | vfexp2 | vflog2 | vfrint | vfaddVfpx
  | vfsubVfpx | vfmulVfpx | vfdivVfpx | vfminVfpx | vfmaxVfpx | vfsgnjVfpx | vmov | vscansum =>
    exact confined_vec1 _ _ _ _ _ _ _
  | vfma | vfms | vfnma | vfnms => exact confined_vec3 _ _ _ _ _ _ _
  | vcmpInt | vcmpFp => exact confined_compare2 _ _ _ _ _ _ _
  | vcmpxInt | vcmpxFp => exact confined_compare1 _ _ _ _ _ _ _
  | vcvtRnd | vcvtSr | vcvtRtz | vcvtSat | vcvtF4 | vcvtF4sr =>
    exact confined_convert _ _ _ _ _ _
  | vbcast => exact confined_vbcast _ _ _ _
  | vsel => exact confined_vsel _ _ _ _
  | vslide => exact confined_vslide _ _ _ _
  | vperm => exact confined_vperm _ _ _ _
  | vreint => exact confined_vreint _ _ _ _
  | vrand | vrandf | vidx => exact confined_source _ _ _ _ _
  | pand | por | pxor | pandn | pnot | pset | pclr | pmov =>
    exact confined_predOp _ _ _ _
  | vst | vstSeg | vsts | vstt | vstcmp => exact confined_directStore _ _ _ _ _ _ _ _
  | vstx | vstxadd => exact confined_scatter _ _ _ _ _ _ _ _ _ _
  | vsttd | vstc => exact confined_tileStore _ _ _ _ _ _ _ _ _ _
  | vredsum | vredsumt | vredmax | vredmin | vredmaxu | vredminu | vredand | vredor | vredxor =>
    exact confined_reduce _ _ _ _ _ _ _
  | vffs | vpop => exact confined_reducePred _ _ _ _ _ _
  | vredrow | vredrowmax => exact confined_reduceRows _ _ _ _ _ _
  | force => exact confined_force
  | convoy => exact confined_convoy
  | vsync => exact confined_vsync
  | vdrop => exact confined_vdrop _
  | barArrive => exact confined_barArrive _
  | barWait => exact confined_barWait _
  | barTest => exact confined_barTest _
  | fenceC | fenceK | fenceD | fenceS => exact confined_fence _ _
  | xcopy => exact confined_xcopy _ _
  | xwait => exact confined_xwait _ _
  | xpoll => exact confined_xpoll _ _
  | xcancel => exact confined_xcancel _
  | tdinv => exact confined_tdinv _
  | tdinvall => exact confined_tdInvalidate none
  | mma => exact confined_mma _ _ _
  | mzero => exact confined_mzero _ _
  | msync => exact confined_msync _ _
  | mtarget => exact confined_mtarget _
  | mshape => exact confined_mshape _ _
  | mslot => exact confined_mslot hu _ _ _
  | launch => exact confined_launch _ _
  | cachewb => exact confined_cachewb _ _
  | rte | tlbi => exact confined_privileged hu _ _
  | nop => exact confined_next hself.adv
  | brk => exact confined_trapHere hself _ _ _
  | trap => exact confined_takeTrap hself _ _ _ _ _ _ _
  | wait => exact confined_wait
  | exit => exact confined_exit
  | ifence => exact confined_ifence
  | _ => cases hw

/-! ### What confinement says of the registers -/

/-- What is shielded, register by register. -/
theorem shield_eq_iff (a b : Strand) : b.shield = a.shield ↔ b.mode = a.mode ∧ a.sr.guarded b.sr ∧ b.sr.epc = a.sr.epc ∧
    b.sr.ecause = a.sr.ecause ∧ b.sr.eva = a.sr.eva ∧ b.sr.eblame = a.sr.eblame ∧ b.sr.eforce = a.sr.eforce ∧
    b.sr.estatus = a.sr.estatus ∧ b.sr.istatus = a.sr.istatus := by
  simp [Strand.shield, SRegs.guarded, and_assoc]

/-- A trap from mode U saves that mode in ESTATUS. -/
theorem takeTrap_estatus_of_u {s : State} (hu : s.st.mode = .u) (c d : Nat) (v pc b f : Word) (sp : Bool) :
    (takeTrap c d v pc b f sp s).st.sr.estatus.toNat % 2 = 0 := by
  simp only [takeTrap, hu, modeBit, BitVec.toNat_ofNat]
  omega

/-- A trap clears IE, the lowest bit of ISTATUS, and no other. -/
theorem takeTrap_istatus (c d : Nat) (v pc b f : Word) (sp : Bool) (s : State) :
    (takeTrap c d v pc b f sp s).st.sr.istatus.toNat = s.st.sr.istatus.toNat / 2 * 2 := by
  simp only [takeTrap, BitVec.toNat_sub, BitVec.toNat_ofNat]
  omega

/-- Settles O57: every word of mode U keeps what is shielded or takes a trap, and a trap writes no other shielded register than its own. -/
theorem userModeKeepsPrivilegedRegisters : Obligations.UserModeKeepsPrivilegedRegisters := by
  unfold Obligations.UserModeKeepsPrivilegedRegisters
  intro i w s t hw hu ht
  obtain hk | ⟨c, d, v, pc, b, f, sp, u, hk, rfl⟩ := confined_exec hw hu t ht
  · obtain ⟨hmode, hguard, htrap⟩ := (shield_eq_iff _ _).1 hk.shield
    exact ⟨hguard, hk.part, hk.slots, fun _ => htrap, fun hs => by simp [hmode, hu] at hs⟩
  · obtain ⟨hmode, hguard, -, -, -, -, -, -, hist⟩ := (shield_eq_iff _ _).1 hk.shield
    refine ⟨hguard, hk.part, hk.slots, fun hs => by simp [takeTrap] at hs, fun _ => ⟨hguard.1, ?_, ?_⟩⟩
    · exact takeTrap_estatus_of_u (hmode.trans hu) ..
    · rw [takeTrap_istatus, hist]

end Sys2Proof.Machine
end

section
/-!
The cluster window (R16 to R19, R102): its addresses, their core and offset fields, and what their decoding comes to.
-/

namespace Sys2Proof.Machine

/-! ### Composition of meanings -/

/-- A meaning goes on with its answer, or stops with its trap or wait. -/
theorem bind_apply {α β : Type} (m : M α) (f : α → M β) (s : State) :
    (m >>= f) s = match m s with
      | (.ok a, t) => f a t
      | (.error e, t) => (.error e, t) := by
  show (ExceptT.bindCont f (m s).1 : StateM State (Except Stop β)) (m s).2 = _
  generalize m s = r
  obtain ⟨a | a, t⟩ := r <;> rfl

theorem bind_of_ok {α β : Type} {m : M α} {f : α → M β} {s t : State} {a : α} (h : m s = (.ok a, t)) : (m >>= f) s = f a t := by
  rw [bind_apply, h]

theorem bind_of_error {α β : Type} {m : M α} {f : α → M β} {s t : State} {e : Stop} (h : m s = (.error e, t)) :
    (m >>= f) s = (.error e, t) := by
  rw [bind_apply, h]

theorem bind_get {β : Type} (f : State → M β) (s : State) : (get >>= f : M β) s = f s s := rfl

/-! ### Addresses of the window -/

/-- The address of a byte of a core's window (R16). -/
def winAddr (core off : Nat) : Word := wd (0x7FFF0000000000 + core * 2 ^ 24 + off)

section Fields

variable {core off : Nat} (hc : core < 32) (ho : off < 2 ^ 24)
include hc ho

theorem winAddr_toNat : (winAddr core off).toNat = 0x7FFF0000000000 + core * 2 ^ 24 + off := by
  unfold winAddr wd
  rw [BitVec.toNat_ofNat]
  omega

theorem isWindow_winAddr : isWindow (winAddr core off) = true := by
  unfold isWindow Config.winBase
  rw [winAddr_toNat hc ho, beq_iff_eq]
  omega

theorem core_winAddr : bitsAt (winAddr core off).toNat 24 5 = core := by
  unfold bitsAt
  rw [winAddr_toNat hc ho]
  omega

theorem off_winAddr : bitsAt (winAddr core off).toNat 0 24 = off := by
  unfold bitsAt
  rw [winAddr_toNat hc ho]
  omega

end Fields

/-! ### Decoding -/

/-- A window address is translated by its decoding alone. -/
theorem translate_window {w : Who} {a : Acc} {va : Word} {n : Nat} {s t : State} {r : Except Stop Nat} (hva : isWindow va = true)
    (h : windowKey w a va n s = (r, t)) : translate w a va n s = (r.map Loc.win, t) := by
  have hfull : translateFull w a va n s = (r.map fun k => (Loc.win k, none), t) := by
    unfold translateFull
    rw [if_pos hva]
    cases r with
    | error e => exact bind_of_error h
    | ok k => exact bind_of_ok h
  unfold translate
  cases r with
  | error e => exact bind_of_error hfull
  | ok k => exact bind_of_ok hfull

/-- The core that a window address of a cluster names: the accessor's own at number 31, else the logical core of that number. -/
def State.winOwner (s : State) (w : Who) (core : Nat) : Option Nat :=
  if core = 31 then w.self else (s.cluster w.cluster).logical[core]?

/-- The window refuses fetches, the hole of the offsets and narrow accesses to the matrix stores (R17, R102). -/
def winForbids (a : Acc) (off n : Nat) : Prop :=
  a = .fetch ∨ (0x400000 ≤ off ∧ off < 0x800000) ∨ (0x800000 ≤ off ∧ n < 4)

/-- Nothing is fetched from the window (R17). -/
theorem windowKey_fetch (w : Who) (va : Word) (n : Nat) (s : State) : windowKey w .fetch va n s = (.error (.trap 0x1C 0 va), s) := by
  unfold windowKey
  rw [bind_get, if_pos (.inl rfl)]
  rfl

section Key

variable {w : Who} {a : Acc} {core off n : Nat} {s : State} (hc : core < 32) (ho : off < 2 ^ 24)
include hc ho

theorem windowKey_forbidden (h : winForbids a off n) :
    windowKey w a (winAddr core off) n s = (.error (.trap 0x1C 0 (winAddr core off)), s) := by
  unfold windowKey
  rw [core_winAddr hc ho, off_winAddr hc ho, bind_get]
  by_cases hf : a = .fetch ∨ w.cluster ≥ Config.clusters
  · rw [if_pos hf]; rfl
  rw [if_neg hf]
  by_cases hh : 0x400000 ≤ off ∧ off < 0x800000
  · rw [if_pos hh]; rfl
  rw [if_neg hh]
  have hn : 0x800000 ≤ off ∧ n < 4 := (h.resolve_left fun e => hf (.inl e)).resolve_left hh
  rw [if_pos hn]
  rfl

variable (w s)

theorem windowKey_allowed (hw : w.cluster < 12) (h : ¬ winForbids a off n) :
    windowKey w a (winAddr core off) n s = match s.winOwner w core with
      | none => (.error (.trap 0x1C 0 (winAddr core off)), s)
      | some k => (.ok (w.cluster * 2 ^ 29 + k * 2 ^ 24 + off), s) := by
  unfold winForbids at h
  have hf : ¬ (a = .fetch ∨ w.cluster ≥ Config.clusters) := by
    unfold Config.clusters
    rintro (e | e)
    · exact h (.inl e)
    · omega
  unfold windowKey State.winOwner
  rw [core_winAddr hc ho, off_winAddr hc ho, bind_get, if_neg hf, if_neg fun e => h (.inr (.inl e)), if_neg fun e => h (.inr (.inr e))]
  split
  · cases w.self <;> rfl
  · cases (s.cluster w.cluster).logical[core]? <;> rfl

end Key

/-- Whose byte a scalar access of the strand finds at a core number of the window: none in exactly the cases of R17. -/
theorem winOwner_who (s : State) (core : Nat) :
    s.winOwner s.who core =
      if (core = 31 ∧ s.st.span = .ctrl) ∨ (core ≠ 31 ∧ (s.cluster s.st.cluster).logical.length ≤ core) then none
      else some (if core = 31 then s.st.core else (s.cluster s.st.cluster).logical.getD core 0) := by
  unfold State.winOwner State.who
  by_cases h : core = 31
  · simp [h]
  · simp only [h, if_false, false_and, false_or, not_false_eq_true, ne_eq, true_and]
    split
    · rename_i hl
      exact List.getElem?_eq_none hl
    · rename_i hl
      rw [List.getElem?_eq_getElem (not_le.1 hl), List.getD_eq_getElem _ _ (not_le.1 hl)]

/-- Settles O7: the address passes the checks on kind, offset and size or it does not, and then its core number names a core or none. -/
theorem windowDecoding : Obligations.WindowDecoding := by
  intro s a core off n hc ho hcl va live bad
  have hva : isWindow va = true := isWindow_winAddr hc ho
  have howner := winOwner_who s core
  by_cases hforb : winForbids a off n
  · have hbad : bad := by
      rcases hforb with h | h | h
      · exact .inl h
      · exact .inr (.inl h)
      · exact .inr (.inr (.inl h))
    exact ⟨fun _ => translate_window hva (windowKey_forbidden hc ho hforb), fun h => absurd hbad h⟩
  · have hkey := windowKey_allowed s.who s hc ho hcl hforb
    have hiff : bad ↔ (core = 31 ∧ s.st.span = .ctrl) ∨ (core ≠ 31 ∧ live.length ≤ core) := by
      show _ ∨ _ ∨ _ ∨ _ ↔ _
      unfold winForbids at hforb
      tauto
    constructor
    · intro h
      rw [howner, if_pos (hiff.1 h)] at hkey
      exact translate_window hva hkey
    · intro h
      rw [howner, if_neg fun e => h (hiff.2 e)] at hkey
      exact translate_window hva hkey

end Sys2Proof.Machine
end

section
/-!
The fetch of a word, the turn of a front end and the step at a boundary (R20, R21, R33, R292).
-/

namespace Sys2Proof.Machine

/-! ### The fetch -/

/-- What a fetch of four bytes comes to: the word of them, the least significant first, or the trap of their poison (R21, R49). -/
def fetchedWord (pc : Word) (bad : Bool) (bs : List Byte) : Except Stop IWord :=
  let byte (i : Nat) : Nat := (bs.getD i 0).toNat * 2 ^ (8 * i)
  if bad then .error (.trap 0x13 0 pc) else .ok (BitVec.ofNat 32 (byte 0 + byte 1 + byte 2 + byte 3))

/-- The number of four bytes or fewer. -/
theorem leNat_four {bs : List Byte} (h : bs.length ≤ 4) :
    leNat bs = (bs.getD 0 0).toNat * 2 ^ (8 * 0) + (bs.getD 1 0).toNat * 2 ^ (8 * 1) + (bs.getD 2 0).toNat * 2 ^ (8 * 2) +
      (bs.getD 3 0).toNat * 2 ^ (8 * 3) := by
  match bs, h with
  | [], _ => rfl
  | [a], _ => simp [leNat]
  | [a, b], _ => simp [leNat]; omega
  | [a, b, c], _ => simp [leNat]; omega
  | [a, b, c, d], _ => simp [leNat]; omega

theorem fetch_of_bytes {s v : State} {bs : List Byte} {bad : Bool} (hlen : bs.length ≤ 4)
    (h : fetchBytes s.who s.st.front s.st.pc s = (.ok (bs, bad), v)) : fetch s = (fetchedWord s.st.pc bad bs, v) := by
  unfold fetchedWord
  dsimp only
  rw [← leNat_four hlen]
  unfold fetch
  rw [bind_get, bind_of_ok h]
  cases bad <;> rfl

theorem fetch_of_error {s v : State} {e : Stop} (h : translate s.who .fetch s.st.pc 4 s = (.error e, v)) : fetch s = (.error e, v) := by
  have hb : fetchBytes s.who s.st.front s.st.pc s = (.error e, v) := bind_of_error h
  unfold fetch
  rw [bind_get]
  exact bind_of_error hb

/-- A line that the instruction cache holds is read there (R95). -/
theorem fetchBytes_held {s u : State} {w : Who} {front : Nat} {va : Word} {pa ten : Nat} {x : Line}
    (h : translate w .fetch va 4 s = (.ok (.hbm pa ten), u)) (hx : u.fetchedLine front ten (pa / 64) = some x) :
    fetchBytes w front va s = (.ok ((x.bytes.drop (pa % 64)).take 4, x.poison), u) := by
  unfold fetchBytes
  rw [bind_of_ok h]
  dsimp only
  rw [bind_get, hx]
  rfl

/-- Another line is read as the cluster's cache reads it, and kept (R95). -/
theorem fetchBytes_filled {s u : State} {w : Who} {front : Nat} {va : Word} {pa ten : Nat}
    (h : translate w .fetch va 4 s = (.ok (.hbm pa ten), u)) (hx : u.fetchedLine front ten (pa / 64) = none) :
    let f := u.fillLine w.cluster ten (pa / 64)
    fetchBytes w front va s = (.ok ((f.2.bytes.drop (pa % 64)).take 4, f.2.poison), f.1.fetchIn front f.2) := by
  unfold fetchBytes
  rw [bind_of_ok h]
  dsimp only
  rw [bind_get, hx]
  rfl

theorem fetchBytes_host {s u : State} {w : Who} {front : Nat} {va : Word} {pa : Nat}
    (h : translate w .fetch va 4 s = (.ok (.host pa), u)) :
    fetchBytes w front va s = (.ok ((List.range 4).map fun i => u.hostByte (pa + i), false), u) := by
  unfold fetchBytes
  rw [bind_of_ok h]
  rfl

/-- The line that a cache is filled with is the one asked for. -/
theorem fillLine_names (s : State) (c ten ln : Nat) : (s.fillLine c ten ln).2.tag = ln ∧ (s.fillLine c ten ln).2.tenant = ten := by
  unfold State.fillLine
  split
  · rename_i l hl
    have htag : l.tag = ln := by simpa using List.find?_some hl
    split
    · exact ⟨htag, ‹_›⟩
    · exact ⟨rfl, rfl⟩
  · exact ⟨rfl, rfl⟩

/-- An instruction cache holds the line that it has just taken. -/
theorem fetchedLine_fetchIn (s : State) (front : Nat) (x : Line) :
    (s.fetchIn front x).fetchedLine front x.tenant x.tag = some { x with dirty := 0 } := by
  unfold State.fetchedLine State.fetchIn
  simp

@[simp] theorem fetchIn_caches (s : State) (front : Nat) (x : Line) : (s.fetchIn front x).mem.caches = s.mem.caches := rfl

theorem fetch_held {s u : State} {pa ten : Nat} {x : Line} (h : translate s.who .fetch s.st.pc 4 s = (.ok (.hbm pa ten), u))
    (hx : u.fetchedLine s.st.front ten (pa / 64) = some x) :
    fetch s = (fetchedWord s.st.pc x.poison ((x.bytes.drop (pa % 64)).take 4), u) :=
  fetch_of_bytes (List.length_take_le ..) (fetchBytes_held h hx)

theorem fetch_filled {s u : State} {pa ten : Nat} (h : translate s.who .fetch s.st.pc 4 s = (.ok (.hbm pa ten), u))
    (hx : u.fetchedLine s.st.front ten (pa / 64) = none) :
    let r := u.cluRead s.st.cluster ten pa 4
    ∃ v x, fetch s = (fetchedWord s.st.pc r.2.2 r.2.1, v) ∧ v.mem.caches = r.1.mem.caches ∧
      v.fetchedLine s.st.front ten (pa / 64) = some x ∧ (x.bytes.drop (pa % 64)).take 4 = r.2.1 := by
  obtain ⟨htag, hten⟩ := fillLine_names u s.st.cluster ten (pa / 64)
  have hin := fetchedLine_fetchIn (u.fillLine s.st.cluster ten (pa / 64)).1 s.st.front (u.fillLine s.st.cluster ten (pa / 64)).2
  rw [htag, hten] at hin
  exact ⟨_, _, fetch_of_bytes (List.length_take_le ..) (fetchBytes_filled h hx), rfl, hin, rfl⟩

/-! ### The turn -/

/-- The strand of a fold that keeps the one whose slot comes first is one of those folded, and none comes before it. -/
theorem foldl_first {α : Type} (f : α → Nat) (l : List α) (b : α) :
    let r := l.foldl (fun b x => if f x < f b then x else b) b
    (r = b ∨ r ∈ l) ∧ f r ≤ f b ∧ ∀ x ∈ l, f r ≤ f x := by
  induction l generalizing b with
  | nil => exact ⟨.inl rfl, le_rfl, by simp⟩
  | cons a l ih =>
    obtain ⟨hmem, hb, hl⟩ := ih (if f a < f b then a else b)
    have hab : f (if f a < f b then a else b) ≤ f a ∧ f (if f a < f b then a else b) ≤ f b := by
      split <;> omega
    refine ⟨?_, hb.trans hab.2, ?_⟩
    · rw [List.foldl_cons, List.mem_cons]
      rcases hmem with h | h
      · rw [h]
        split
        · exact .inr (.inl rfl)
        · exact .inl rfl
      · exact .inr (.inr h)
    · intro x hx
      rw [List.foldl_cons]
      rcases List.mem_cons.1 hx with rfl | hx
      · exact hb.trans hab.1
      · exact hl x hx

/-- A strand is found by its number. -/
theorem select_st {s : State} {x : Strand} (hx : x ∈ s.strands) (hn : (s.strands.map Strand.sid).Nodup) : (s.select x.sid).st = x := by
  obtain ⟨hnot, hbench⟩ := List.nodup_cons.1 (show (s.st.sid :: s.bench.map Strand.sid).Nodup from hn)
  unfold State.select
  rcases List.mem_cons.1 hx with rfl | hx
  · rw [if_pos rfl]
  · have hne : s.st.sid ≠ x.sid := fun h => hnot (h ▸ List.mem_map_of_mem hx)
    rw [if_neg hne]
    have hfind : s.bench.find? (fun t => t.sid = x.sid) = some x := by
      cases hf : s.bench.find? (fun t => t.sid = x.sid) with
      | none => exact absurd (decide_eq_true rfl) (List.find?_eq_none.1 hf x hx)
      | some y =>
        have hy : y.sid = x.sid := by simpa using List.find?_some hf
        rw [List.inj_on_of_nodup_map hbench (List.mem_of_find?_eq_some hf) hx hy]
    rw [hfind]
    rfl

/-- Giving the turn to a strand touches the strands only. -/
theorem select_frame (s : State) (sid : Nat) :
    (s.select sid).fab = s.fab ∧ (s.select sid).mem = s.mem ∧ (s.select sid).sys = s.sys := by
  unfold State.select State.benchWith
  split
  · exact ⟨rfl, rfl, rfl⟩
  · split <;> exact ⟨rfl, rfl, rfl⟩

theorem takeTurn_of_runs {s : State} (hr : s.runs s.st = true) :
    let s1 := s.select s.issuer.sid
    s.takeTurn.st = s1.st ∧ s.takeTurn.mem = s1.mem ∧ s.takeTurn.sys = s1.sys ∧
      (s.takeTurn.fab.core s1.st.cluster s1.st.core).turn = s1.st.slot := by
  unfold State.takeTurn
  rw [if_pos hr]
  dsimp only
  split
  · exact ⟨rfl, rfl, rfl, ‹_›⟩
  · refine ⟨rfl, rfl, rfl, ?_⟩
    simp [Fabric.core, Fabric.setCore]

/-- The issuer is a ready strand of the front end, and none of them comes before it (R292). -/
theorem issuer_spec {s : State} (hr : s.runs s.st = true) :
    s.issuer ∈ s.strands ∧ s.issuer.cluster = s.st.cluster ∧ s.issuer.core = s.st.core ∧
      ∀ x ∈ s.strands, s.runs x = true → x.cluster = s.st.cluster → x.core = s.st.core → s.ahead s.issuer ≤ s.ahead x := by
  obtain ⟨hmem, -, hfirst⟩ :=
    foldl_first s.ahead (s.strands.filter fun x => s.runs x && x.cluster == s.st.cluster && x.core == s.st.core) s.st
  change (s.issuer = _ ∨ s.issuer ∈ _) at hmem
  have hin : s.issuer ∈ s.strands.filter fun x => s.runs x && x.cluster == s.st.cluster && x.core == s.st.core := by
    rcases hmem with h | h
    · rw [h]
      exact List.mem_filter.2 ⟨List.mem_cons_self, by simp [hr]⟩
    · exact h
  obtain ⟨hs, hp⟩ := List.mem_filter.1 hin
  simp only [Bool.and_eq_true, beq_iff_eq] at hp
  obtain ⟨⟨-, hcl⟩, hco⟩ := hp
  refine ⟨hs, hcl, hco, fun x hx hxr hxc hxk => hfirst x (List.mem_filter.2 ⟨hx, ?_⟩)⟩
  simp [hxr, hxc, hxk]

/-! ### The step -/

theorem heeds_eq (t : Strand) (i : Instr) :
    t.heeds i = { (if i = .wait then t else { t with waiting := false, woken := false }) with fetched := true } := by
  unfold Strand.heeds
  split
  · rw [if_pos rfl]
  · rename_i h
    rw [if_neg h]
    rfl

theorem trapHere_eq_trapped (c d : Nat) (v : Word) (s : State) : trapHere c d v s = s.trapped c d v := by
  have hmode : modeBit s.st.mode = if s.st.mode = .s then 1 else 0 := by cases s.st.mode <;> rfl
  unfold trapHere takeTrap State.trapped
  simp [hmode, boolBit, wd]

theorem instrOf_ok {w : IWord} {i : Instr} (h : decodeWord w = .ok i) : instrOf w = i := by
  unfold instrOf
  rw [h]

theorem instrOf_error {w : IWord} {e : DecodeError} (h : decodeWord w = .error e) :
    instrOf w = if w.toNat / 2 ^ 26 = 0x3F then .emulationTrap w else .illegalInstruction w := by
  unfold instrOf
  rw [h]

/-- At a boundary the step is what the turn of the front end comes to. -/
theorem step_boundary {s : State} {rest : List Act} (h : s.sys.agenda = ⟨none, .boundary⟩ :: rest) :
    step s = tickOut (boundary (s.modSys fun y => { y with agenda := rest }).takeTurn).go := by
  unfold step nextTurn
  rw [h]
  rfl

/-- With no deferred trap and no interrupt the word is fetched. -/
theorem boundary_fetches {s : State} (hr : s.runs s.st = true) (hd : s.st.deferred = false) (hi : s.interruptFor = none) :
    boundary s = fetchTurn s := by
  unfold boundary
  simp [hr, hd, hi]

theorem fetchTurn_ok {s s1 : State} {w : IWord} (h : fetch s = (.ok w, s1)) :
    fetchTurn s = .run (instrOf w) { s1 with st := s1.st.heeds (instrOf w) } := by
  unfold fetchTurn
  rw [h]

theorem fetchTurn_trap {s s1 : State} {c d : Nat} {v : Word} (h : fetch s = (.error (.trap c d v), s1)) (hf : s1.st.fetched = true) :
    fetchTurn s = .stay (s1.trapped c d v) := by
  unfold fetchTurn fetchFault
  rw [h]
  dsimp only
  rw [if_pos hf, trapHere_eq_trapped]

/-- Settles O56: a fetch follows its translation; the issuer is the first of the ready strands; the boundary runs the word. -/
theorem stepRunsDecoded : Obligations.StepRunsDecoded := by
  refine ⟨fun s => ⟨fun hwin => ?_, fun u => ⟨fun e => fetch_of_error, fun pa ten h => ⟨fun x => fetch_held h, fetch_filled h⟩,
    fun pa h => ?_⟩⟩, ?_⟩
  · have hva : isWindow s.st.pc = true := by
      unfold isWindow
      exact beq_iff_eq.2 hwin
    exact fetch_of_error (translate_window hva (windowKey_fetch ..))
  · exact fetch_of_bytes (by simp) (fetchBytes_host h)
  · intro s rest hag a0 s0
    refine ⟨fun hr hn => ?_, fun hr hd hi => ?_⟩
    · obtain ⟨hst, hmem, hsys, hturn⟩ := takeTurn_of_runs hr
      obtain ⟨hin, hcl, hco, hfirst⟩ := issuer_spec hr
      obtain ⟨-, hm, hs⟩ := select_frame a0 a0.issuer.sid
      rw [select_st hin hn] at hst hturn
      refine ⟨hst ▸ hin, hst ▸ hcl, hst ▸ hco, hmem.trans hm, hsys.trans hs, hst ▸ hturn, fun x hx hxr hxc hxk => ?_⟩
      have := hfirst x hx hxr hxc hxk
      unfold State.ahead at this
      rw [hcl, hco, hxc, hxk] at this
      show (s0.st.slot + 3 - _ % 4) % 4 ≤ _
      rw [show s0.st = a0.issuer from hst]
      exact this
    · have hstep : step s = tickOut (fetchTurn s0).go := by
        rw [step_boundary hag]
        exact congrArg (fun t => tickOut (Turn.go t)) (boundary_fetches hr hd hi)
      refine ⟨fun w s1 hf => ?_, fun c d v s1 hf h1 => ?_⟩
      · have hrun : ∀ i t, instrOf w = i →
            exec i { s1 with st := { (if i = .wait then s1.st else { s1.st with waiting := false, woken := false }) with fetched := true } } =
              .next t → step s = .next { t with steps := t.steps + 1 } := by
          rintro i t rfl hx
          rw [hstep, fetchTurn_ok hf, heeds_eq]
          exact congrArg tickOut hx
        refine ⟨fun i hi t => hrun i t (instrOf_ok hi), fun e he => ⟨fun hw t => hrun _ t ?_, fun hw t => hrun _ t ?_⟩⟩
        · rw [instrOf_error he, if_pos hw]
        · rw [instrOf_error he, if_neg hw]
      · rw [hstep, fetchTurn_trap hf h1]
        rfl

end Sys2Proof.Machine
end

section
/-!
The placement of strands (R12, R282, R287, R288, R290, R291, R305): what taking a place leaves alone, the launch afterwards, the registers of
the new strand, the group entries and the indices of its iteration.
-/

namespace Sys2Proof.Machine

/-! ### Launches by their numbers -/

theorem launch?_id {s : State} {n : Nat} {l : Launch} (h : s.launch? n = some l) : l.id = n := by
  simpa using List.find?_some h

theorem launch?_of_launches {s t : State} (h : t.sys.launches = s.sys.launches) (m : Nat) : t.launch? m = s.launch? m := by
  unfold State.launch?
  rw [h]

theorem launch?_modCluster (s : State) (c m : Nat) (g : Cluster → Cluster) : (s.modCluster c g).launch? m = s.launch? m := rfl

/-- A change of one launch that keeps its number. -/
theorem launch?_modLaunch (s : State) (n m : Nat) {f : Launch → Launch} (hf : ∀ x, (f x).id = x.id) :
    (s.modLaunch n f).launch? m = if m = n then (s.launch? n).map f else s.launch? m := by
  have hfind : ∀ ls : List Launch, (ls.map fun x => if x.id = n then f x else x).find? (fun x => x.id = m) =
      if m = n then (ls.find? fun x => x.id = n).map f else ls.find? fun x => x.id = m := by
    intro ls
    induction ls with
    | nil => simp
    | cons x r ih =>
      rw [List.map_cons, List.find?_cons, List.find?_cons, List.find?_cons, ih]
      by_cases hx : x.id = n
      · by_cases hm : m = n
        · simp [hx, hm, hf]
        · simp [hx, hm, hf, Ne.symm hm]
      · by_cases hm : m = n
        · simp [hx, hm]
        · simp [hx, hm]
  exact hfind s.sys.launches

/-! ### A place is taken -/

/-- `t` is `s` but for its memory and for what a core records besides its lane groups. -/
def State.Taken (s t : State) : Prop :=
  (∃ m cs, t = { s with mem := m, fab := { s.fab with cores := cs } }) ∧ ∀ c k, (t.fab.core c k).groups = (s.fab.core c k).groups

theorem State.Taken.refl (s : State) : s.Taken s := ⟨⟨s.mem, s.fab.cores, rfl⟩, fun _ _ => rfl⟩

theorem State.Taken.modMem {s t : State} (h : s.Taken t) (f : Mem → Mem) : s.Taken (t.modMem f) := by
  obtain ⟨⟨m, cs, rfl⟩, hg⟩ := h
  exact ⟨⟨f m, cs, rfl⟩, hg⟩

theorem State.Taken.modCore {s t : State} (h : s.Taken t) (c k : Nat) {g : Core → Core} (hg : ∀ x, (g x).groups = x.groups) :
    s.Taken (t.modCore c k g) := by
  obtain ⟨⟨m, cs, rfl⟩, hgroups⟩ := h
  refine ⟨⟨m, _, rfl⟩, fun c' k' => ?_⟩
  rw [← hgroups c' k']
  simp only [State.modCore_fab, Fabric.core, Fabric.setCore, aget_aset]
  split
  · rename_i hk
    rw [hg, hk]
  · rfl

theorem State.Taken.takeCore {s t : State} (h : s.Taken t) (c k ctx : Nat) (sp : Span) : s.Taken (t.takeCore c k ctx sp) := by
  unfold State.takeCore
  dsimp only
  split
  · exact h.modCore c k fun _ => rfl
  · exact (h.modMem _).modCore c k fun _ => rfl

theorem taken_takeSpot (s : State) (x : Spot) (ctx : Nat) (sp : Span) : s.Taken (s.takeSpot x ctx sp) := by
  cases sp with
  | ctrl => exact .refl s
  | wide => exact foldl_keeps s.Taken (s.live x.cluster) _ (fun t k h => h.takeCore x.cluster k ctx .wide) s (.refl s)
  | _ => exact (State.Taken.refl s).takeCore ..

/-- The lanes of a strand are counted in the lane groups of its cores. -/
theorem liveLanes_of_groups {s t : State} (h : ∀ c k, (t.fab.core c k).groups = (s.fab.core c k).groups) (x : Strand) :
    t.liveLanes x = s.liveLanes x := by
  unfold State.liveLanes State.laneTable
  simp only [h]

/-! ### A launch is admitted -/

/-- The numbers by which the strands of a launch know their clusters, once it has placed one in a cluster (R12). -/
def State.numbersFor (s : State) (l : Launch) (c : Nat) : List (Nat × Nat) :=
  if l.id ∈ (s.cluster c).admitted then l.clNum else aset l.clNum c (logicalOf s.fab.logical c)

theorem admitTo_launch? {s : State} {l : Launch} (h : s.launch? l.id = some l) (c m : Nat) :
    (s.admitTo l.id c).launch? m = if m = l.id then some { l with clNum := s.numbersFor l c } else s.launch? m := by
  unfold State.admitTo State.numbersFor
  by_cases hin : l.id ∈ (s.cluster c).admitted
  · rw [if_pos (List.contains_iff_mem.2 hin), if_pos hin]
    split
    · rw [‹m = l.id›, h]
    · rfl
  · rw [if_neg (mt List.contains_iff_mem.1 hin), if_neg hin, launch?_modLaunch]
    · split
      · rw [launch?_modCluster, h]
        rfl
      · rfl
    · intro x
      rfl

/-- An admission changes what a cluster admits and what a launch knows. -/
theorem admitTo_frame (s : State) (n c : Nat) :
    (s.admitTo n c).fab.cores = s.fab.cores ∧ (s.admitTo n c).fab.logical = s.fab.logical ∧
      (s.admitTo n c).sys.nextSid = s.sys.nextSid := by
  unfold State.admitTo
  split <;> exact ⟨rfl, rfl, rfl⟩

/-! ### The next iteration -/

@[simp] theorem acquire_fab (s : State) (c : Nat) (sc : Scope) : (s.acquire c sc).fab = s.fab := by
  obtain ⟨m, h⟩ := onlyMem_acquire s c sc
  rw [h]

@[simp] theorem acquire_sys (s : State) (c : Nat) (sc : Scope) : (s.acquire c sc).sys = s.sys := by
  obtain ⟨m, h⟩ := onlyMem_acquire s c sc
  rw [h]

theorem cache_acquire_sys (s : State) (c : Nat) : (s.acquire c .sys).cache c = [] := by
  unfold State.acquire State.dropCache State.cache State.setCache
  simp

section Next

variable (s : State) (l : Launch) (c : Ctx) (x : Spot)

/-- The state in which a launch has taken a place and been admitted to its cluster. -/
def State.placing : State := (s.takeSpot x l.ctx l.span).admitTo l.id x.cluster

/-- The launch when its next iteration has a place. -/
def State.placedLaunch : Launch :=
  { l with placed := l.placed + 1, aged := 0, since := s.timer, clNum := s.numbersFor l x.cluster }

theorem placing_groups (c' k' : Nat) : ((s.placing l x).fab.core c' k').groups = (s.fab.core c' k').groups := by
  obtain ⟨-, hg⟩ := taken_takeSpot s x l.ctx l.span
  unfold State.placing Fabric.core
  rw [(admitTo_frame ..).1]
  exact hg c' k'

theorem placing_logical : (s.placing l x).fab.logical = s.fab.logical := by
  obtain ⟨⟨m, cs, ht⟩, -⟩ := taken_takeSpot s x l.ctx l.span
  unfold State.placing
  rw [(admitTo_frame ..).2.1, ht]

theorem placing_nextSid : (s.placing l x).sys.nextSid = s.sys.nextSid := by
  obtain ⟨⟨m, cs, ht⟩, -⟩ := taken_takeSpot s x l.ctx l.span
  unfold State.placing
  rw [(admitTo_frame ..).2.2, ht]

@[simp] theorem placeNext_st : (s.placeNext l c x).st = (s.placing l x).startStrand l c x := rfl

theorem placeNext_nextSid : (s.placeNext l c x).sys.nextSid = s.sys.nextSid + 1 := by
  rw [← placing_nextSid s l x]
  simp [State.placeNext, State.benchWith, State.placing, State.modLaunch]

theorem placeNext_logical : (s.placeNext l c x).fab.logical = s.fab.logical := by
  rw [← placing_logical s l x]
  simp [State.placeNext, State.benchWith, State.placing, State.modLaunch]

theorem placeNext_cache : (s.placeNext l c x).cache x.cluster = [] := cache_acquire_sys ..

variable {s l}

theorem placing_launch? (h : s.launch? l.id = some l) (m : Nat) :
    (s.placing l x).launch? m = if m = l.id then some { l with clNum := s.numbersFor l x.cluster } else s.launch? m := by
  obtain ⟨⟨m', cs, ht⟩, -⟩ := taken_takeSpot s x l.ctx l.span
  unfold State.placing
  have hin : (s.takeSpot x l.ctx l.span).launch? l.id = some l := by rw [ht]; exact h
  refine (admitTo_launch? hin x.cluster m).trans ?_
  rw [ht]
  rfl

theorem placeNext_launch? (h : s.launch? l.id = some l) (m : Nat) :
    (s.placeNext l c x).launch? m = if m = l.id then some (s.placedLaunch l x) else s.launch? m := by
  have hlaunches : (s.placeNext l c x).launch? m =
      ((s.placing l x).modLaunch l.id fun y => { y.served s.timer with placed := y.placed + 1 }).launch? m := by
    refine launch?_of_launches ?_ m
    simp [State.placeNext, State.benchWith, State.placing, State.modLaunch, State.modCtx]
  rw [hlaunches, launch?_modLaunch, placing_launch? x h, placing_launch? x h, if_pos rfl]
  · split <;> rfl
  · intro y
    rfl

end Next

end Sys2Proof.Machine
end

section
/-!
What a placement comes to: the registers of the new strand, the group entries and the indices of its iteration, and the placement of those
that go together (R107, R282, R287, R288, R291).
-/

namespace Sys2Proof.Machine

/-! ### Registers -/

/-- A field of a word kept in its place, and the rest cleared. -/
theorem and_field (v : Word) (lo w : Nat) :
    v &&& wd ((2 ^ w - 1) * 2 ^ lo) = wd (v.toNat / 2 ^ lo % 2 ^ w * 2 ^ lo) := by
  refine BitVec.eq_of_getLsbD_eq fun i hi => ?_
  simp only [wd, BitVec.getLsbD_and, BitVec.getLsbD_ofNat, Nat.testBit_mul_two_pow, Nat.testBit_two_pow_sub_one,
    Nat.testBit_mod_two_pow, Nat.testBit_div_two_pow]
  by_cases hlo : lo ≤ i
  · simp [hi, hlo, BitVec.getLsbD, Bool.and_comm]
  · simp [hlo]

/-- The area of a context's pool that is given out is a free one. -/
theorem area_free (c : Ctx) : c.area ∉ c.areas := by
  unfold Ctx.area
  cases h : (List.range (c.areas.length + 1)).find? fun i => !c.areas.contains i with
  | some a => simpa using List.find?_some h
  | none =>
    have hall : List.range (c.areas.length + 1) ⊆ c.areas := fun i hi => by simpa using List.find?_eq_none.1 h i hi
    have hlen := (List.nodup_range.subperm hall).length_le
    rw [List.length_range] at hlen
    omega

section Start

variable (s : State) (l : Launch) (c : Ctx) (x : Spot)

/-- The indices of the iteration stand in s2 to s5, the parameter in s6 and the iteration in s7 (R288). -/
theorem startRegs_get (k : Nat) (r : Fin 32) :
    (l.startRegs k)[r.val] = if r.val < 2 then 0 else if r.val < 6 then wd (l.index k (r.val - 2)) else if r.val = 6 then l.param
      else if r.val = 7 then wd k else 0 := by
  unfold Launch.startRegs
  simp only [Vector.getElem_set, Vector.getElem_replicate]
  obtain ⟨r, hr⟩ := r
  dsimp only
  rcases Nat.lt_or_ge r 8 with h | h
  · interval_cases r <;> rfl
  · simp [show ¬ r < 2 by omega, show ¬ r < 6 by omega, show r ≠ 6 by omega, show r ≠ 7 by omega, show 2 ≠ r by omega,
      show 3 ≠ r by omega, show 4 ≠ r by omega, show 5 ≠ r by omega, show 6 ≠ r by omega, show 7 ≠ r by omega]

theorem startStrand_get (r : Reg) :
    (s.startStrand l c x).get r = if r.val < 2 then 0 else if r.val < 6 then wd (l.index l.placed (r.val - 2)) else if r.val = 6 then l.param
      else if r.val = 7 then wd l.placed else 0 := by
  unfold Strand.get
  split
  · simp [‹r.val = 0›]
  · exact startRegs_get l l.placed r

/-- The state registers at launch (R107, R110, R288, R305). -/
theorem startSr_eq (k lanes a : Nat) :
    l.startSr c k lanes a =
      { vl := 0, vrows := 1, vlmax := 4096 * lanes, vpol := 0, vprog := 0, fpctl := 0, fpflags := 0, determ := 0,
        rngkey := 0, draw := 0, strandkey := l.base + wd k, iter := wd k, groups := l.groupsWord k, tdtbase := c.tdtbase, qerr := 0,
        tvec := wd (c.tvec.toNat / 4 * 4), epc := 0, ecause := 0, eva := 0, eblame := 0, eforce := 0, estatus := 0, escratch := 0,
        context := wd (c.tenant * 2 ^ 16 + c.asid), ptbase := wd (c.ptbase.toNat / 2 ^ 24 % 2 ^ 28 * 2 ^ 24), wmbase := c.wmbase,
        wmsize := c.wmsize, istatus := 0, savearea := c.savePool + wd (8192 * a) } := by
  have htvec : c.tvec &&& ~~~ 3 = wd (c.tvec.toNat / 4 * 4) := by
    have h := and_field c.tvec 2 62
    have hlt : c.tvec.toNat / 2 ^ 2 < 2 ^ 62 := by omega
    rwa [Nat.mod_eq_of_lt hlt] at h
  have hptb : c.ptbase &&& 0xFFFFFFF000000 = wd (c.ptbase.toNat / 2 ^ 24 % 2 ^ 28 * 2 ^ 24) := and_field c.ptbase 24 28
  unfold Launch.startSr
  rw [htvec, hptb]
  rfl

end Start

/-! ### The group table -/

section Groups

variable (l : Launch) (k : Nat)

/-- The byte and the valid bit of a slot in GROUPS (R116, R282). -/
def Launch.groupByte (j : Nat) : Nat := ((l.entryOf k j).map fun i => i % 256).getD 0
def Launch.groupValid (j : Nat) : Nat := if (l.entryOf k j).isSome then 1 else 0

theorem groupByte_lt (j : Nat) : l.groupByte k j < 256 := by
  unfold Launch.groupByte
  cases l.entryOf k j with
  | none => decide
  | some i => exact Nat.mod_lt _ (by decide)

theorem groupValid_lt (j : Nat) : l.groupValid k j < 2 := by
  unfold Launch.groupValid
  split <;> decide

/-- GROUPS is the sum of what its slots contribute. -/
theorem groupsWord_slots : l.groupsWord k =
    BitVec.ofNat 64 ((List.range 4).map fun j => l.groupByte k j * 2 ^ (8 * j) + l.groupValid k j * 2 ^ (32 + j)).sum := by
  unfold Launch.groupsWord
  congr 3
  funext j
  unfold Launch.groupByte Launch.groupValid
  cases l.entryOf k j <;> simp

/-- The sum over the four slots, each byte and each bit at its place. -/
theorem sum_slots (f g : Nat → Nat) : ((List.range 4).map fun j => f j * 2 ^ (8 * j) + g j * 2 ^ (32 + j)).sum =
    f 0 + f 1 * 2 ^ 8 + f 2 * 2 ^ 16 + f 3 * 2 ^ 24 + (g 0 + g 1 * 2 + g 2 * 4 + g 3 * 8) * 2 ^ 32 := by
  rw [show List.range 4 = [0, 1, 2, 3] from rfl, List.map_cons, List.map_cons, List.map_cons, List.map_cons, List.map_nil, List.sum_cons,
    List.sum_cons, List.sum_cons, List.sum_cons, List.sum_nil]
  ring

/-- The bytes and the valid bits of GROUPS stand apart. -/
theorem groupsWord_fields {j : Nat} (hj : j < 4) :
    (l.groupsWord k).toNat / 2 ^ (8 * j) % 2 ^ 8 = l.groupByte k j ∧ (l.groupsWord k).toNat / 2 ^ (32 + j) % 2 = l.groupValid k j := by
  have hb := groupByte_lt l k
  have hv := groupValid_lt l k
  have h0 := hb 0; have h1 := hb 1; have h2 := hb 2; have h3 := hb 3
  have g0 := hv 0; have g1 := hv 1; have g2 := hv 2; have g3 := hv 3
  have hword : (l.groupsWord k).toNat =
      l.groupByte k 0 + l.groupByte k 1 * 2 ^ 8 + l.groupByte k 2 * 2 ^ 16 + l.groupByte k 3 * 2 ^ 24 +
        (l.groupValid k 0 + l.groupValid k 1 * 2 + l.groupValid k 2 * 4 + l.groupValid k 3 * 8) * 2 ^ 32 := by
    rw [groupsWord_slots, sum_slots, BitVec.toNat_ofNat, Nat.mod_eq_of_lt]
    omega
  rw [hword]
  interval_cases j <;> omega

end Groups

/-! ### Indices -/

section Indices

variable {l : Launch} {a b d e : Nat} (ho : l.order = [a, b, d, e]) (hp : [a, b, d, e].Perm [0, 1, 2, 3])
include hp

include ho in
/-- The indices in the launch's order are the quotients' remainders, the innermost dimension first (R287). -/
theorem index_order (k : Nat) :
    let w (i : Nat) := l.bounds.getD i 1
    l.index k a = k % w a ∧ l.index k b = k / w a % w b ∧ l.index k d = k / w a / w b % w d ∧
      l.index k e = k / w a / w b / w d % w e := by
  have hn : [a, b, d, e].Nodup := hp.nodup_iff.2 (by decide)
  simp only [List.nodup_cons, List.mem_cons, List.not_mem_nil, not_or, or_false] at hn
  obtain ⟨⟨hab, had, hae⟩, ⟨hbd, hbe⟩, hde, -⟩ := hn
  unfold Launch.index
  rw [ho]
  simp [nestIndices, aget, hab, had, hae, hbd, hbe, hde]

/-- The iterations are counted by the bounds in any order (R287). -/
theorem product_order (hb : l.bounds.length = 4) :
    l.product = l.bounds.getD a 1 * l.bounds.getD b 1 * l.bounds.getD d 1 * l.bounds.getD e 1 := by
  have hprod : l.product = ([0, 1, 2, 3].map fun i => l.bounds.getD i 1).prod := by
    unfold Launch.product
    match h : l.bounds, hb with
    | [p, q, r, t], _ => simp [Nat.mul_assoc]
  rw [hprod, ← (hp.map fun i => l.bounds.getD i 1).prod_eq]
  simp [Nat.mul_assoc]

include ho in
/-- Below the product the indices are the digits of the iteration (R287). -/
theorem index_digits (hb : l.bounds.length = 4) {k : Nat} (hk : k < l.product) :
    let w (i : Nat) := l.bounds.getD i 1
    (∀ i < 4, l.index k i < w i) ∧
      k = l.index k a + w a * (l.index k b + w b * (l.index k d + w d * l.index k e)) := by
  intro w
  obtain ⟨ha, hb', hd, he⟩ := index_order ho hp k
  have hprod : l.product = w a * (w b * (w d * w e)) := by rw [product_order hp hb]; ring
  have hka : k < w a * (w b * (w d * w e)) := hprod ▸ hk
  have hkb : k / w a < w b * (w d * w e) := Nat.div_lt_of_lt_mul hka
  have hkd : k / w a / w b < w d * w e := Nat.div_lt_of_lt_mul hkb
  have hke : k / w a / w b / w d < w e := Nat.div_lt_of_lt_mul hkd
  constructor
  · intro i hi
    have hpos : w a ≠ 0 ∧ w b ≠ 0 ∧ w d ≠ 0 ∧ w e ≠ 0 := by
      have h : w a * (w b * (w d * w e)) ≠ 0 := by omega
      simpa [mul_eq_zero, not_or] using h
    obtain ⟨pa, pb, pd, pe⟩ := hpos
    have hmem : i ∈ [a, b, d, e] := hp.mem_iff.2 (by interval_cases i <;> decide)
    simp only [List.mem_cons, List.not_mem_nil, or_false] at hmem
    rcases hmem with rfl | rfl | rfl | rfl
    · exact ha ▸ Nat.mod_lt _ (Nat.pos_of_ne_zero pa)
    · exact hb' ▸ Nat.mod_lt _ (Nat.pos_of_ne_zero pb)
    · exact hd ▸ Nat.mod_lt _ (Nat.pos_of_ne_zero pd)
    · exact he ▸ Nat.mod_lt _ (Nat.pos_of_ne_zero pe)
  · rw [ha, hb', hd, he]
    change k = k % w a + w a * (k / w a % w b + w b * (k / w a / w b % w d + w d * (k / w a / w b / w d % w e)))
    rw [Nat.mod_eq_of_lt hke, Nat.mod_add_div, Nat.mod_add_div, Nat.mod_add_div]

end Indices

/-! ### Those that are placed together -/

theorem placeAll_placed {n : Nat} {xs : List Spot} {s t : State} {l : Launch} (hl : s.launch? n = some l)
    (h : s.placeAll n xs = some t) : ∃ y, t.launch? n = some y ∧ y.placed = l.placed + xs.length := by
  induction xs generalizing s l with
  | nil =>
    cases h
    exact ⟨l, hl, rfl⟩
  | cons x r ih =>
    obtain rfl := launch?_id hl
    unfold State.placeAll at h
    rw [hl] at h
    dsimp only at h
    split at h
    · cases h
    · rename_i c hc
      split at h
      · obtain ⟨y, hy, hp⟩ := ih ((placeNext_launch? c x hl l.id).trans (if_pos rfl)) h
        exact ⟨y, hy, hp.trans (by simp [State.placedLaunch]; omega)⟩
      · cases h

/-- What a launch asks before it places the next of its iterations. -/
theorem mayBegin_spec {s : State} {l : Launch} {c : Ctx} (hc : s.ctx? l.ctx = some c) (h : s.mayBegin l = true) :
    l.gang ≤ c.freeAreas := by
  unfold State.mayBegin at h
  rw [hc] at h
  simp only [Bool.and_eq_true, decide_eq_true_eq] at h
  exact h.2.1

/-- A placement gives every iteration that goes together a place, or none (R291). -/
theorem strandPlacement_cases {s t : State} {n : Nat} {xs : List Spot} {l : Launch} (hl : s.launch? n = some l)
    (h : execStrandPlacement n xs s = .next t) :
    t = s ∨ ∃ y, t.launch? n = some y ∧ y.placed = l.placed + l.gang ∧ ∀ u ∈ xs, s.holdsDirty u.cluster = false := by
  unfold execStrandPlacement at h
  rw [hl] at h
  dsimp only at h
  split at h
  · rename_i hgo
    simp only [Bool.and_eq_true, beq_iff_eq, List.all_eq_true, Bool.not_eq_true'] at hgo
    obtain ⟨⟨-, hlen⟩, hall⟩ := hgo
    cases h
    cases hp : s.placeAll n xs with
    | none => exact .inl rfl
    | some t =>
      obtain ⟨y, hy, hplaced⟩ := placeAll_placed hl hp
      exact .inr ⟨y, hy, hlen ▸ hplaced, fun u hu => (hall u hu).2⟩
  · cases h
    exact .inl rfl

/-- A placement that names another number of places than go together, or a cluster whose write-backs are held, comes to nothing. -/
theorem strandPlacement_refused {s : State} {n : Nat} {xs : List Spot} {l : Launch} (hl : s.launch? n = some l)
    (h : xs.length ≠ l.gang ∨ ∃ u ∈ xs, s.holdsDirty u.cluster = true) : execStrandPlacement n xs s = .next s := by
  unfold execStrandPlacement
  rw [hl]
  dsimp only
  rw [if_neg]
  simp only [Bool.and_eq_true, beq_iff_eq, List.all_eq_true, Bool.not_eq_true']
  rintro ⟨⟨-, hlen⟩, hall⟩
  rcases h with h | ⟨u, hu, hd⟩
  · exact h hlen
  · exact absurd hd (by simp [(hall u hu).2])

/-- One iteration is placed at a free place that goes to the launch. -/
theorem strandPlacement_one {s : State} {n : Nat} {x : Spot} {l : Launch} {c : Ctx} (hl : s.launch? n = some l)
    (hc : s.ctx? l.ctx = some c) (hgang : l.gang = 1) (hfirst : ∃ f, s.firstUser l.span x = some f ∧ f.id = l.id)
    (hback : ∀ t ∈ s.savedOf l, s.spotBack l t x = false) (hbegin : s.mayBegin l = true) (hnew : s.spotNew l x = true)
    (hdirty : s.holdsDirty x.cluster = false) : execStrandPlacement n [x] s = .next (s.placeNext l c x) := by
  obtain ⟨f, hf, hid⟩ := hfirst
  have hwanted : s.wantedBack l x = false := List.any_eq_false.2 fun t ht => by simp [hback t ht]
  have hleft : s.spotLeft l x = true := by simp [State.spotLeft, hwanted, hnew]
  have hgives : s.givesNew l x = true := by simp [State.givesNew, hf, hid, hleft]
  have hareas : 0 < c.freeAreas := by
    have := mayBegin_spec hc hbegin
    omega
  unfold execStrandPlacement
  rw [hl]
  dsimp only
  rw [if_pos (by simp [hbegin, hgang, hgives, hdirty])]
  simp [State.placeAll, hl, hc, hleft, hareas]

/-- The cluster's number as the new strand sees it. -/
theorem clusterNum_of_launch {s : State} {t : Strand} {y : Launch} (h : s.launch? t.launch = some y) :
    s.clusterNum t = aget (logicalOf s.fab.logical t.cluster) y.clNum t.cluster := by
  have hget : ∀ (d : Nat) (r : List (Nat × Nat)) (k : Nat), (afind r k).getD d = aget d r k := by
    intro d r k
    induction r with
    | nil => rfl
    | cons p r ih =>
      unfold afind aget
      split
      · rfl
      · exact ih
  unfold State.launch? at h
  unfold State.clusterNum
  rw [h]
  exact hget ..

/-- The new strand at its place, with its state registers (R107, R110, R288). -/
theorem placeNext_sr (s : State) (l : Launch) (c : Ctx) (x : Spot) :
    (s.placeNext l c x).st.sr = l.startSr c l.placed (s.liveLanes (s.placeNext l c x).st) c.area := by
  rw [← liveLanes_of_groups (placing_groups s l x)]
  rfl

/-- Settles O46: a placement is all or none and waits for write-backs; one that completes starts the strand; GROUPS and the indices. -/
theorem strandPlacement : Obligations.StrandPlacement := by
  intro s n x l c hl hc k
  obtain rfl := launch?_id hl
  refine ⟨fun xs => ⟨fun h => strandPlacement_refused hl (.inl h), fun t h => strandPlacement_cases hl h⟩,
    fun h => strandPlacement_refused hl (.inr ⟨x, List.mem_singleton_self x, h⟩), ?_, ?_, ?_⟩
  · intro hgang hfirst hback hbegin hnew hdirty
    have hget (r : Reg) := startStrand_get (s.placing l x) l c x r
    have hnow := placeNext_launch? c x hl l.id
    rw [if_pos rfl] at hnow
    refine ⟨s.placeNext l c x, strandPlacement_one hl hc hgang hfirst hback hbegin hnew hdirty, rfl, placing_nextSid s l x,
      placeNext_nextSid s l c x, rfl, rfl, rfl, rfl, rfl, rfl, rfl, fun d hd => ?_, hget 6, hget 7, fun r hr => ?_,
      ⟨c.area, area_free c, ?_⟩, rfl, rfl, rfl, rfl, rfl, rfl, placeNext_cache s l c x, fun m hm => ?_, hnow, ?_⟩
    · refine (hget _).trans ?_
      interval_cases d <;> rfl
    · refine (hget r).trans ?_
      rcases hr with h | h
      · rw [if_pos h]
      · simp [show ¬ r.val < 2 by omega, show ¬ r.val < 6 by omega, show r.val ≠ 6 by omega, show r.val ≠ 7 by omega]
    · rw [placeNext_sr, startSr_eq]
    · rw [placeNext_launch? c x hl m, if_neg hm]
    · have hnum : (s.placeNext l c x).clusterNum (s.placeNext l c x).st = _ := clusterNum_of_launch hnow
      rw [hnum, placeNext_logical]
      rfl
  · intro j hj field valid
    obtain ⟨hfield, hvalid⟩ := groupsWord_fields l k hj
    refine ⟨fun h => ?_, fun g h => ?_⟩
    · rw [show field = _ from hfield, show valid = _ from hvalid]
      simp only [Launch.groupByte, Launch.groupValid, Launch.entryOf, h]
      exact ⟨rfl, rfl⟩
    · rw [show field = _ from hfield, show valid = _ from hvalid]
      simp only [Launch.groupByte, Launch.groupValid, Launch.entryOf, h]
      exact ⟨rfl, rfl⟩
  · intro a b d e ho hp hb hk
    exact index_digits ho hp hb hk

end Sys2Proof.Machine
end

section
/-!
The decoder gives back every well-formed instruction from its word, format by format (spec/02 R22 to R28).
-/

namespace Sys2Proof

/-! ### The decoder from the fields of a word -/

/-- An immediate comes back from the low bits of a number. -/
theorem ofNat_eq_of_mod {k n : Nat} {i : BitVec k} (h : n % 2 ^ k = i.toNat) : BitVec.ofNat k n = i :=
  BitVec.eq_of_toNat_eq (by rw [BitVec.toNat_ofNat, h])

/-- What `decodeWord` makes of a word from its fields: the major, three register fields, the eleven and the sixteen low bits, and the whole word. -/
noncomputable def decodeFields (op : Nat) (d a b : Reg) (f x n : Nat) : Except DecodeError Instr :=
  match op with
  | 0x00 => decSys d a b f
  | 0x01 => mbz d (mbz a (.ok (.trap (BitVec.ofNat 16 n))))
  | 0x02 => mbz a (mbz b (if stateListed f then .ok (.mfs d (BitVec.ofNat 11 n)) else .error .unlistedState))
  | 0x03 => mbz d (mbz b (if stateWritable f then .ok (.mts a (BitVec.ofNat 11 n)) else .error .unlistedState))
  | 0x04 => decAlu d a b f
  | 0x05 => decMuldiv d a b f
  | 0x06 => .ok (.addi d a (BitVec.ofNat 16 n))
  | 0x07 => decLogi d a x
  | 0x08 => decShi d a x
  | 0x09 => decLdzk d n
  | 0x0A => decSlti d a x
  | 0x0B => decLd d a x
  | 0x0C => decSt d a x
  | 0x0D => decBz d n
  | 0x0E => decBr2 d a x
  | 0x0F => decJ n
  | 0x10 => decJr d a b f
  | 0x11 => decAtom d a b f
  | 0x12 => decSfp d a b f
  | 0x13 => decSfmac d a b f
  | 0x14 => decStrip d a b f
  | 0x15 => decVset d a b f
  | 0x16 => decVld d a b f
  | 0x17 => decLoad Ty.plain f fun m t => .ok (.vlds d a b m t)
  | 0x18 => decLoad Ty.plain f fun m t => .ok (.vldt d a b m t)
  | 0x19 => decLoad Ty.any f fun m t => .ok (.vldx d a b m t)
  | 0x1A => decLoad Ty.any f fun m t => .ok (.vldtd d a b m t)
  | 0x1B => decLoad Ty.any f fun m t => .ok (.vldz d a b m t)
  | 0x1C => decVst d a b f
  | 0x1D => decStore Ty.plain f fun q m t => .ok (.vsts d a b q m t)
  | 0x1E => decStore Ty.plain f fun q m t => .ok (.vstt d a b q m t)
  | 0x1F => decStore Ty.plain f fun q m t => .ok (.vstx d a b q m t)
  | 0x20 => decStore Ty.plain f fun q m t => .ok (.vstxadd d a b q m t)
  | 0x21 => decStore Ty.plain f fun q m t => .ok (.vsttd d a b q m t)
  | 0x22 => decStore Ty.chanter f fun q m t => .ok (.vstc d a b q m t)
  | 0x23 => decStore Ty.plain f fun q m t => .ok (.vstcmp d a b q m t)
  | 0x24 => decVint d a b f
  | 0x25 => decVintx d a b f
  | 0x26 => decVfp d a b f
  | 0x27 => decVfpx d a b f
  | 0x28 => decFma f fun vc m => .vfma d a b vc m
  | 0x29 => decFma f fun vc m => .vfms d a b vc m
  | 0x2A => decFma f fun vc m => .vfnma d a b vc m
  | 0x2B => decFma f fun vc m => .vfnms d a b vc m
  | 0x2C => decVcmp f (fun m c => .vcmpInt d a b m c) (fun m c => .vcmpFp d a b m c)
  | 0x2D => decVcmp f (fun m c => .vcmpxInt d a b m c) (fun m c => .vcmpxFp d a b m c)
  | 0x2E => decVcvt d a b f
  | 0x2F => decVmisc d a b f
  | 0x30 => .ok (.vidx d (BitVec.ofNat 11 (n / 2 ^ 10)) (BitVec.ofNat 10 n))
  | 0x31 => decPred d a b f
  | 0x32 => decVred d a b f
  | 0x33 => decMatrix d a b f
  | 0x34 => decSync d a b f
  | 0x35 => decXeng d a b f
  | 0x36 => decTd d a b f
  | 0x3F => .error (.extension (n / 2 ^ 22 % 16))
  | _ => .error .reservedMajor

theorem decodeWord_eq_decodeFields (w : IWord) :
    decodeWord w = decodeFields (w.toNat / 2 ^ 26) (reg (w.toNat / 2 ^ 21)) (reg (w.toNat / 2 ^ 16)) (reg (w.toNat / 2 ^ 11))
      (w.toNat % 2 ^ 11) (w.toNat % 2 ^ 16) w.toNat := rfl

theorem decodeWord_ofNat {n : Nat} (h : n < 2 ^ 32) :
    decodeWord (BitVec.ofNat 32 n) = decodeFields (n / 2 ^ 26) (reg (n / 2 ^ 21)) (reg (n / 2 ^ 16)) (reg (n / 2 ^ 11))
      (n % 2 ^ 11) (n % 2 ^ 16) n := by
  rw [decodeWord_eq_decodeFields, toNat_word n h]

/-- Format R, and every format with three register fields and eleven bits below. -/
theorem decodeWord_fmtR {op f : Nat} (d a b : Reg) (ho : op < 64) (hf : f < 2 ^ 11) :
    decodeWord (BitVec.ofNat 32 (fmtR op d a b f)) = decodeFields op d a b f (fmtR op d a b f % 2 ^ 16) (fmtR op d a b f) := by
  rw [decodeWord_ofNat (fmtR_lt op d a b f ho hf), fmtR_op op d a b f hf, fmtR_d op d a b f hf, fmtR_a op d a b f hf,
    fmtR_b op d a b f hf, fmtR_f op d a b f hf]

/-- Formats I, I2, LS and B2. -/
theorem decodeWord_fmtI {op x : Nat} (d a : Reg) (ho : op < 64) (hx : x < 2 ^ 16) :
    decodeWord (BitVec.ofNat 32 (fmtI op d a x)) =
      decodeFields op d a (reg (fmtI op d a x / 2 ^ 11)) (fmtI op d a x % 2 ^ 11) x (fmtI op d a x) := by
  rw [decodeWord_ofNat (fmtI_lt op d a x ho hx), fmtI_op op d a x hx, fmtI_d op d a x hx, fmtI_a op d a x hx, fmtI_x op d a x hx]

/-- Format K, whose one major is LDZK. -/
theorem decodeWord_fmtK (d : Reg) (k : BitVec 2) {fn : Nat} (i : BitVec 16) (hf : fn < 8) :
    decodeWord (BitVec.ofNat 32 (fmtK 0x09 d k.toNat fn i.toNat)) = decLdzk d (fmtK 0x09 d k.toNat fn i.toNat) := by
  have hop : fmtK 0x09 d k.toNat fn i.toNat / 2 ^ 26 = 0x09 := by unfold fmtK; omega
  have hd : reg (fmtK 0x09 d k.toNat fn i.toNat / 2 ^ 21) = d := reg_val _ _ (by unfold fmtK; omega)
  rw [decodeWord_ofNat (fmtK_lt _ d _ _ _ (by decide) k.isLt hf i.isLt), hop, hd]
  simp only [decodeFields]

/-- Format B1, whose one major is BZ. -/
theorem decodeWord_fmtB1 (a : Reg) {c : Nat} (o : BitVec 18) (hc : c < 8) :
    decodeWord (BitVec.ofNat 32 (fmtB1 0x0D a c o.toNat)) = decBz a (fmtB1 0x0D a c o.toNat) := by
  have hop : fmtB1 0x0D a c o.toNat / 2 ^ 26 = 0x0D := by unfold fmtB1; omega
  have ha : reg (fmtB1 0x0D a c o.toNat / 2 ^ 21) = a := reg_val _ _ (by unfold fmtB1; omega)
  rw [decodeWord_ofNat (fmtB1_lt _ a _ _ (by decide) hc o.isLt), hop, ha]
  simp only [decodeFields]

/-- Format J, whose one major is J. -/
theorem decodeWord_fmtJ {l : Nat} (o : BitVec 25) (hl : l < 2) :
    decodeWord (BitVec.ofNat 32 (fmtJ 0x0F l o.toNat)) = decJ (fmtJ 0x0F l o.toNat) := by
  have hop : fmtJ 0x0F l o.toNat / 2 ^ 26 = 0x0F := by unfold fmtJ; omega
  rw [decodeWord_ofNat (fmtJ_lt _ _ _ (by decide) hl o.isLt), hop]
  simp only [decodeFields]

/-- Format VX, whose one major is VIDX. -/
theorem decodeWord_fmtX (vd : Reg) (start : BitVec 11) (step : BitVec 10) :
    decodeWord (BitVec.ofNat 32 (fmtX 0x30 vd start.toNat step.toNat)) = .ok (.vidx vd start step) := by
  have hop : fmtX 0x30 vd start.toNat step.toNat / 2 ^ 26 = 0x30 := by unfold fmtX; omega
  have hd : reg (fmtX 0x30 vd start.toNat step.toNat / 2 ^ 21) = vd := reg_val _ _ (by unfold fmtX; omega)
  have hstart : BitVec.ofNat 11 (fmtX 0x30 vd start.toNat step.toNat / 2 ^ 10) = start := ofNat_eq_of_mod (by unfold fmtX; omega)
  have hstep : BitVec.ofNat 10 (fmtX 0x30 vd start.toNat step.toNat) = step := ofNat_eq_of_mod (by unfold fmtX; omega)
  rw [decodeWord_ofNat (fmtX_lt _ vd _ _ (by decide) start.isLt step.isLt), hop, hd]
  simp only [decodeFields, hstart, hstep]

/-! ### The fields of each format come back -/

theorem ofNat_add_toNat {k : Nat} (c : Nat) (i : BitVec k) : BitVec.ofNat k (c * 2 ^ k + i.toNat) = i :=
  ofNat_eq_of_mod (by rw [Nat.mul_add_mod_self_right, Nat.mod_eq_of_lt i.isLt])

theorem sel_add_toNat {k : Nat} (c : Nat) (i : BitVec k) : (c * 2 ^ k + i.toNat) / 2 ^ k = c := by
  rw [Nat.mul_comm, Nat.mul_add_div (Nat.two_pow_pos k), Nat.div_eq_of_lt i.isLt, Nat.add_zero]

theorem fmtK_fn (d : Reg) (k : BitVec 2) {fn : Nat} (i : BitVec 16) (hf : fn < 8) :
    fmtK 0x09 d k.toNat fn i.toNat / 2 ^ 16 % 8 = fn := by
  unfold fmtK; omega

theorem fmtK_k (d : Reg) (k : BitVec 2) {fn : Nat} (i : BitVec 16) (hf : fn < 8) :
    BitVec.ofNat 2 (fmtK 0x09 d k.toNat fn i.toNat / 2 ^ 19) = k :=
  ofNat_eq_of_mod (by unfold fmtK; omega)

theorem fmtK_x (d : Reg) (k : BitVec 2) (fn : Nat) (i : BitVec 16) : BitVec.ofNat 16 (fmtK 0x09 d k.toNat fn i.toNat) = i :=
  ofNat_eq_of_mod (by unfold fmtK; omega)

theorem fmtB1_c (a : Reg) {c : Nat} (o : BitVec 18) (hc : c < 8) : fmtB1 0x0D a c o.toNat / 2 ^ 18 % 8 = c := by
  unfold fmtB1; omega

theorem fmtB1_off (a : Reg) (c : Nat) (o : BitVec 18) : BitVec.ofNat 18 (fmtB1 0x0D a c o.toNat) = o :=
  ofNat_eq_of_mod (by unfold fmtB1; omega)

theorem fmtJ_l {l : Nat} (o : BitVec 25) (hl : l < 2) : fmtJ 0x0F l o.toNat / 2 ^ 25 % 2 = l := by
  unfold fmtJ; omega

theorem fmtJ_off (l : Nat) (o : BitVec 25) : BitVec.ofNat 25 (fmtJ 0x0F l o.toNat) = o :=
  ofNat_eq_of_mod (by unfold fmtJ; omega)

theorem sfpFn_mid (p : Prec) (k : Nat) (hk : k < 32) : sfpFn p false k / 2 ^ 5 % 32 = 0 := by
  have hp : sfpFn p false k / 2 ^ 6 % 16 = 0 := sfpFn_zero p false k hk
  have hu : sfpFn p false k / 2 ^ 5 % 2 = 0 := sfpFn_u p false k hk
  omega

theorem mbz_zero (k : Except DecodeError Instr) : mbz 0 k = k := rfl

theorem withSlot_slotReg (g : Fin 4) (k : Fin 4 → Except DecodeError Instr) : withSlot (slotReg g) k = k g := by
  unfold withSlot
  rw [dif_pos (show (slotReg g).val < 4 from g.isLt)]
  rfl

theorem ICond.toNat_lt (c : ICond) : c.toNat < 16 := by cases c <;> decide

theorem FCond.toNat_lt (c : FCond) : c.toNat < 16 := by cases c <;> decide

theorem ICond.ofCode_toNat (c : ICond) : ICond.ofCode c.toNat = some c := by cases c <;> rfl

theorem FCond.ofCode_toNat (c : FCond) : FCond.ofCode c.toNat = some c := by cases c <;> rfl

/-- The fused majors give back VC and the mask. -/
theorem decFma_v4Fn (vc : Reg) (m : Mask) (k : Reg → Mask → Instr) : decFma (v4Fn vc m) k = .ok (k vc m) := by
  unfold decFma
  rw [v4Fn_mask, v4Fn_vc]

/-- A compare gives back its integer condition. -/
theorem decVcmp_int (m : Mask) (c : ICond) (ki : Mask → ICond → Instr) (kf : Mask → FCond → Instr) :
    decVcmp (vFn m c.toNat) ki kf = .ok (ki m c) := by
  have hc := c.toNat_lt
  have hsel : vFn m c.toNat / 2 ^ 4 % 2 = 0 := by unfold vFn; omega
  have hcode : vFn m c.toNat % 16 = c.toNat := by unfold vFn; omega
  unfold decVcmp
  rw [vFn_mask m _ (by omega), if_pos hsel, hcode, ICond.ofCode_toNat]

/-- A compare gives back its floating-point condition. -/
theorem decVcmp_fp (m : Mask) (c : FCond) (ki : Mask → ICond → Instr) (kf : Mask → FCond → Instr) :
    decVcmp (vFn m (16 + c.toNat)) ki kf = .ok (kf m c) := by
  have hc := c.toNat_lt
  have hsel : vFn m (16 + c.toNat) / 2 ^ 4 % 2 ≠ 0 := by unfold vFn; omega
  have hcode : vFn m (16 + c.toNat) % 16 = c.toNat := by unfold vFn; omega
  unfold decVcmp
  rw [vFn_mask m _ (by omega), if_neg hsel, hcode, FCond.ofCode_toNat]

theorem segOk_iff (v b : Reg) : segOk v b = true ↔ (2 ≤ b.val ∧ b.val ≤ 8) ∧ v.val + b.val - 1 ≤ 31 := by
  simp [segOk]

/-- A segmented load gives back its number of fields. -/
theorem decVld_segment {vd b : Reg} (a : Reg) (m : Mask) {t : Ty} (ht : t.plain = true) (hb : segOk vd b = true) :
    decVld vd a b (vmFn false m t) = .ok (.vldSeg vd a b m t) := by
  obtain ⟨⟨h2, h8⟩, hlast⟩ := (segOk_iff vd b).1 hb
  unfold decVld
  rw [decLoad_vmFn _ _ _ ht, if_neg (by omega), if_neg (by omega), if_pos h8, if_neg (by omega)]

/-- A segmented store gives back its number of fields. -/
theorem decVst_segment {vs b : Reg} (a : Reg) (q : Bool) (m : Mask) {t : Ty} (ht : t.plain = true) (hb : segOk vs b = true) :
    decVst vs a b (vmFn q m t) = .ok (.vstSeg vs a b q m t) := by
  obtain ⟨hrange, hlast⟩ := (segOk_iff vs b).1 hb
  unfold decVst
  rw [decStore_vmFn _ _ _ _ ht, if_neg (by omega), if_pos hrange, if_neg (by omega)]

/-- STRIP gives back the number of pointers and their sizes. -/
theorem decStrip_fields (d a : Reg) {p : Reg} {k : BitVec 2} {z : BitVec 8} (hp : p.val + k.toNat ≤ 31)
    (hz : z.toNat / 4 ^ (k.toNat + 1) = 0) : decStrip d a p (k.toNat * 2 ^ 9 + z.toNat * 2) = .ok (.strip d a p k z) := by
  have hk : BitVec.ofNat 2 ((k.toNat * 2 ^ 9 + z.toNat * 2) / 2 ^ 9) = k := ofNat_eq_of_mod (by omega)
  have hsizes : BitVec.ofNat 8 ((k.toNat * 2 ^ 9 + z.toNat * 2) / 2) = z := ofNat_eq_of_mod (by omega)
  unfold decStrip
  rw [if_neg (by omega), hk, hsizes]
  dsimp only
  rw [if_neg (by omega), if_neg (by omega)]

/-! ### Every instruction comes back -/

/-- The word of a well-formed instruction decodes to it. -/
theorem decodeWord_encodeNat (i : Instr) {n : Nat} (hw : wellFormed i = true) (h : encodeNat i = some n) :
    decodeWord (BitVec.ofNat 32 n) = .ok i := by
  cases i with
  | waitTimeout | passStart | stripCommit | passComplete | laneError | clusterRenumber | clusterRetirement | deferredTrap | interrupt
  | laneRetirementNotice | arrivalMarkerFire | jobStart | jobComplete | mmaExecute | mmaComplete | slotPeriod | rowActivationAlert
  | backoffEnd | activationWindowRelease | channelPredicted | channelFailed | failedChannelRetirement | migrationWindowStall
  | migrationWindowSwitch | launchPortWrite | launchAccept | waitConditionPoll | priorityAging | strandPlacement | preemption
  | strandRestore | launchComplete | hostBar2Read | hostBar2Write | ctxactActivate | ctxactDeactivate | registerWrite | attest
  | milepost | raslog | powermode | tenantkey | chanret | debugunlock | mailboxCtxact | extend | priResponse | priTimeout
  | atsInvalidation | ideInsecure | peerAccess | peerErrorCompletion | peerTimeout | linkTraining | portWidthChange | lifecycleFuse
  | coldReset | warmReset | illegalInstruction | emulationTrap | mccFailure | hostUnsupportedRequest | ideKm | debuggerHalt
  | powerGating =>
    nomatch h
  | nop | rte | wait | exit | brk | force | convoy | vsync | ifence | vdrop | launch | tlbi | cachewb | add | sub | and | or | xor
  | andn | sll | srl | sra | ror | slt | sltu | min | max | minu | maxu | clz | ctz | popc | sextb | sexth | sextw | zextb | zexth
  | zextw | bswap | mul | mulh | mulhu | div | divu | rem | remu | jr | jlr | setvl | setrows | pand | por | pxor | pandn | pnot | pset
  | pclr | pmov | mma | mzero | msync | mtarget | mshape | mslot | xcopy | xwait | xpoll | xcancel | tdinv | tdinvall | fenceC | fenceK
  | fenceD | fenceS =>
    obtain rfl := Option.some.inj h
    exact decodeWord_fmtR _ _ _ (by decide) (by decide)
  | trap | addi =>
    obtain rfl := Option.some.inj h
    refine (decodeWord_fmtI _ _ (by decide) (BitVec.isLt _)).trans (congrArg Except.ok (congrArg _ ?_))
    exact ofNat_eq_of_mod (fmtI_x _ _ _ _ (BitVec.isLt _))
  | mfs | mts =>
    obtain rfl := Option.some.inj h
    refine (decodeWord_fmtR _ _ _ (by decide) (BitVec.isLt _)).trans ((if_pos hw).trans (congrArg Except.ok (congrArg _ ?_)))
    exact ofNat_eq_of_mod (fmtR_f _ _ _ _ _ (BitVec.isLt _))
  | andi | ori | xori =>
    obtain rfl := Option.some.inj h
    refine (decodeWord_fmtI _ _ (by decide) (by omega)).trans ?_
    change decLogi _ _ _ = _
    simp only [decLogi, sel_add_toNat, ofNat_add_toNat]
  | slli | srli | srai | rori =>
    obtain rfl := Option.some.inj h
    refine (decodeWord_fmtI _ _ (by decide) (by omega)).trans ?_
    change decShi _ _ _ = _
    simp only [decShi, sel_add_toNat, ofNat_add_toNat]
  | slti | sltiu =>
    obtain rfl := Option.some.inj h
    refine (decodeWord_fmtI _ _ (by decide) (by omega)).trans ?_
    change decSlti _ _ _ = _
    simp only [decSlti, sel_add_toNat, ofNat_add_toNat]
  | ldb | ldbu | ldh | ldhu | ldw | ldwu | ldd =>
    obtain rfl := Option.some.inj h
    refine (decodeWord_fmtI _ _ (by decide) (by omega)).trans ?_
    change decLd _ _ _ = _
    simp only [decLd, sel_add_toNat, ofNat_add_toNat]
  | stb | sth | stw | std =>
    obtain rfl := Option.some.inj h
    refine (decodeWord_fmtI _ _ (by decide) (by omega)).trans ?_
    change decSt _ _ _ = _
    simp only [decSt, sel_add_toNat, ofNat_add_toNat]
  | beq | bne | blt | bge | bltu | bgeu =>
    obtain rfl := Option.some.inj h
    refine (decodeWord_fmtI _ _ (by decide) (by omega)).trans ?_
    change decBr2 _ _ _ = _
    simp only [decBr2, sel_add_toNat, ofNat_add_toNat]
  | ldz | ldk =>
    obtain rfl := Option.some.inj h
    refine (decodeWord_fmtK _ _ _ (by decide)).trans ?_
    simp (disch := decide) only [decLdzk, fmtK_fn, fmtK_k, fmtK_x]
  | beqz | bnez | bltz | bgez | bgtz | blez =>
    obtain rfl := Option.some.inj h
    refine (decodeWord_fmtB1 _ _ (by decide)).trans ?_
    simp (disch := decide) only [decBz, fmtB1_c, fmtB1_off]
  | b | bl =>
    obtain rfl := Option.some.inj h
    refine (decodeWord_fmtJ _ (by decide)).trans ?_
    simp (disch := decide) only [decJ, fmtJ_l, fmtJ_off]
  | vidx =>
    obtain rfl := Option.some.inj h
    exact decodeWord_fmtX _ _ _
  | amoswap | amoadd | amoand | amoor | amoxor | amomin | amomax | amominu | amomaxu | amocas | amofadd =>
    obtain rfl := Option.some.inj h
    refine (decodeWord_fmtR _ _ _ (by decide) (atomFn_lt _ _ _ _ (by decide))).trans ?_
    change decAtom _ _ _ _ = _
    simp only [decAtom, atomFn_k, atomFn_s, atomFn_o, atomFn_z, atomFn_low]
    rfl
  | lda | stl =>
    obtain rfl := Option.some.inj h
    refine (decodeWord_fmtR _ _ _ (by decide) (atomFn_lt _ _ _ _ (by decide))).trans ?_
    change decAtom _ _ _ _ = _
    simp only [decAtom, atomFn_k, atomFn_s, atomFn_o, atomFn_z, atomFn_low, mbz_zero]
    exact if_pos hw
  | fadd | fsub | fmul | fdiv | fsqrt | fmin | fmax | feq | flt | fle | fcvtp | fabs | fneg | fclass =>
    obtain rfl := Option.some.inj h
    refine (decodeWord_fmtR _ _ _ (by decide) (sfpFn_lt _ _ _ (by decide))).trans ?_
    change decSfp _ _ _ _ = _
    simp (disch := decide) only [decSfp, sfpFn_k, sfpFn_p, sfpFn_zero, sfpFn_u]
    rfl
  | fmac | fnmac =>
    obtain rfl := Option.some.inj h
    refine (decodeWord_fmtR _ _ _ (by decide) (sfpFn_lt _ _ _ (by decide))).trans ?_
    change decSfmac _ _ _ _ = _
    simp (disch := decide) only [decSfmac, sfpFn_k, sfpFn_p, sfpFn_mid]
    rfl
  | fcvti d a p u | fcvtf d a p u =>
    obtain rfl := Option.some.inj h
    refine (decodeWord_fmtR _ _ _ (by decide) (sfpFn_lt _ _ _ (by decide))).trans ?_
    change decSfp _ _ _ _ = _
    simp (disch := decide) only [decSfp, sfpFn_k, sfpFn_p, sfpFn_zero, sfpFn_u]
    cases u <;> rfl
  | strip =>
    simp only [wellFormed, Bool.and_eq_true, decide_eq_true_eq, beq_iff_eq] at hw
    obtain rfl := Option.some.inj h
    exact (decodeWord_fmtR _ _ _ (by decide) (by omega)).trans (decStrip_fields _ _ hw.1 hw.2)
  | vld vd a m t | vldFf vd a m t | vldRow vd a m t | vldCol vd a m t =>
    have ht : t.plain = true := hw
    obtain rfl := Option.some.inj h
    refine (decodeWord_fmtR _ _ _ (by decide) (vmFn_lt _ _ _)).trans ?_
    change decVld _ _ _ _ = _
    simp only [decVld, decLoad_vmFn _ _ _ ht]
    rfl
  | vlds | vldt =>
    obtain rfl := Option.some.inj h
    exact (decodeWord_fmtR _ _ _ (by decide) (vmFn_lt _ _ _)).trans (decLoad_vmFn Ty.plain _ _ hw _)
  | vldx | vldtd | vldz =>
    obtain rfl := Option.some.inj h
    exact (decodeWord_fmtR _ _ _ (by decide) (vmFn_lt _ _ _)).trans (decLoad_vmFn Ty.any _ _ rfl _)
  | vst vs a q m t =>
    have ht : t.plain = true := hw
    obtain rfl := Option.some.inj h
    refine (decodeWord_fmtR _ _ _ (by decide) (vmFn_lt _ _ _)).trans ?_
    change decVst _ _ _ _ = _
    simp only [decVst, decStore_vmFn _ _ _ _ ht]
    rfl
  | vsts | vstt | vstx | vstxadd | vsttd | vstcmp =>
    obtain rfl := Option.some.inj h
    exact (decodeWord_fmtR _ _ _ (by decide) (vmFn_lt _ _ _)).trans (decStore_vmFn Ty.plain _ _ _ hw _)
  | vstc =>
    obtain rfl := Option.some.inj h
    exact (decodeWord_fmtR _ _ _ (by decide) (vmFn_lt _ _ _)).trans (decStore_vmFn Ty.chanter _ _ _ hw _)
  | vldSeg =>
    obtain ⟨ht, hb⟩ := Bool.and_eq_true_iff.1 hw
    obtain rfl := Option.some.inj h
    exact (decodeWord_fmtR _ _ _ (by decide) (vmFn_lt _ _ _)).trans (decVld_segment _ _ ht hb)
  | vstSeg =>
    obtain ⟨ht, hb⟩ := Bool.and_eq_true_iff.1 hw
    obtain rfl := Option.some.inj h
    exact (decodeWord_fmtR _ _ _ (by decide) (vmFn_lt _ _ _)).trans (decVst_segment _ _ _ ht hb)
  | vadd | vsub | vmul | vmulh | vmulhu | vand | vor | vxor | vsll | vsrl | vsra | vmin | vmax | vminu | vmaxu | vadds | vaddsu | vsubs
  | vsubsu | vabs | vneg | vnot | vpopc | vclz =>
    obtain rfl := Option.some.inj h
    refine (decodeWord_fmtR _ _ _ (by decide) (vFn_lt _ _ (by decide))).trans ?_
    change decVint _ _ _ _ = _
    simp (disch := decide) only [decVint, vFn_mask, vFn_sub, mbz_zero]
  | vaddVintx | vsubVintx | vmulVintx | vmulhVintx | vmulhuVintx | vandVintx | vorVintx | vxorVintx | vsllVintx | vsrlVintx | vsraVintx
  | vminVintx | vmaxVintx | vminuVintx | vmaxuVintx | vaddsVintx | vaddsuVintx | vsubsVintx | vsubsuVintx =>
    obtain rfl := Option.some.inj h
    refine (decodeWord_fmtR _ _ _ (by decide) (vFn_lt _ _ (by decide))).trans ?_
    change decVintx _ _ _ _ = _
    simp (disch := decide) only [decVintx, vFn_mask, vFn_sub]
  | vfadd | vfsub | vfmul | vfdiv | vfmin | vfmax | vfabs | vfneg | vfsqrt | vfrcp | vfrsq | vfexp2 | vflog2 | vfsgnj | vfrint =>
    obtain rfl := Option.some.inj h
    refine (decodeWord_fmtR _ _ _ (by decide) (vFn_lt _ _ (by decide))).trans ?_
    change decVfp _ _ _ _ = _
    simp (disch := decide) only [decVfp, vFn_mask, vFn_sub, mbz_zero]
  | vfaddVfpx | vfsubVfpx | vfmulVfpx | vfdivVfpx | vfminVfpx | vfmaxVfpx | vfsgnjVfpx =>
    obtain rfl := Option.some.inj h
    refine (decodeWord_fmtR _ _ _ (by decide) (vFn_lt _ _ (by decide))).trans ?_
    change decVfpx _ _ _ _ = _
    simp (disch := decide) only [decVfpx, vFn_mask, vFn_sub]
  | vfma | vfms | vfnma | vfnms =>
    obtain rfl := Option.some.inj h
    exact (decodeWord_fmtR _ _ _ (by decide) (v4Fn_lt _ _)).trans (decFma_v4Fn _ _ _)
  | vcmpInt | vcmpxInt =>
    obtain rfl := Option.some.inj h
    exact (decodeWord_fmtR _ _ _ (by decide) (vFn_lt _ _ (Nat.lt_trans (ICond.toNat_lt _) (by decide)))).trans (decVcmp_int _ _ _ _)
  | vcmpFp pd va vb m c | vcmpxFp pd va vb m c =>
    obtain rfl := Option.some.inj h
    exact (decodeWord_fmtR _ _ _ (by decide) (vFn_lt _ _ (by have := FCond.toNat_lt c; omega))).trans (decVcmp_fp _ _ _ _)
  | vcvtRnd | vcvtSr | vcvtRtz | vcvtSat =>
    obtain rfl := Option.some.inj h
    refine (decodeWord_fmtR _ _ _ (by decide) (vFn_lt _ _ (by decide))).trans ?_
    change decVcvt _ _ _ _ = _
    simp (disch := decide) only [decVcvt, vFn_mask, vFn_sub, withTy_reg]
  | vcvtF4 | vcvtF4sr =>
    obtain rfl := Option.some.inj h
    refine (decodeWord_fmtR _ _ _ (by decide) (vFn_lt _ _ (by decide))).trans ?_
    change decVcvt _ _ _ _ = _
    simp (disch := decide) only [decVcvt, vFn_mask, vFn_sub]
    rfl
  | vmov | vbcast | vsel | vslide | vperm | vscansum | vreint | vrand | vrandf =>
    obtain rfl := Option.some.inj h
    refine (decodeWord_fmtR _ _ _ (by decide) (vFn_lt _ _ (by decide))).trans ?_
    change decVmisc _ _ _ _ = _
    simp (disch := decide) only [decVmisc, vFn_mask, vFn_sub, withTy_reg, mbz_zero]
  | vredsum | vredsumt | vredmax | vredmin | vredmaxu | vredminu | vredand | vredor | vredxor | vredrow | vredrowmax | vffs | vpop =>
    obtain rfl := Option.some.inj h
    refine (decodeWord_fmtR _ _ _ (by decide) (vredFn_lt _ _ _ (by decide))).trans ?_
    change decVred _ _ _ _ = _
    simp (disch := decide) only [decVred, vredFn_mask, vredFn_sub, vredFn_q, mbz_zero]
  | barArrive | barWait | barTest =>
    obtain rfl := Option.some.inj h
    refine (decodeWord_fmtR _ _ _ (by decide) (by decide)).trans ?_
    simp only [decodeFields, decSync, mbz_zero, withSlot_slotReg]

/-- Settles O54: each constructor's word, by the format of its major. -/
theorem decodeInvertsEncode : Obligations.DecodeInvertsEncode := by
  intro i w hw h
  obtain ⟨n, hn, rfl⟩ := Option.map_eq_some_iff.1 h
  exact decodeWord_encodeNat i hw hn

/-- Settles O55, by running the decoder on each word. -/
theorem decodingSanity : Obligations.DecodingSanity := by
  refine ⟨rfl, rfl, rfl, fun i h => ?_, fun i h => ?_, fun i h => ?_⟩
  · exact nomatch (show Except.error DecodeError.unlistedMember = Except.ok i from h)
  · exact nomatch (show Except.error DecodeError.mustBeZero = Except.ok i from h)
  · exact nomatch (show Except.error (DecodeError.extension 0) = Except.ok i from h)

end Sys2Proof
end

section
/-!
Words that trap at themselves (R29 to R32, R296, R297): the word in EVA, the privileged words of mode U, the words of control (R310, R311).
-/

namespace Sys2Proof.Laws.Fits

/-- No bit of an encoding is lost in its word (spec/02 R21). -/
theorem encodeNat_lt (i : Instr) {n : Nat} (h : encodeNat i = some n) : n < 2 ^ 32 :=
  Instr.casesOn (motive := Statement) i
    nop rte wait waitTimeout exit brk force convoy vsync vdrop launch tlbi cachewb ifence trap mfs mts add sub and or xor andn sll srl
    sra ror slt sltu min max minu maxu clz ctz popc sextb sexth sextw zextb zexth zextw bswap mul mulh mulhu div divu rem remu addi andi
    ori xori slli srli srai rori ldz ldk slti sltiu ldb ldbu ldh ldhu ldw ldwu ldd stb sth stw std beqz bnez bltz bgez bgtz blez beq bne
    blt bge bltu bgeu b bl jr jlr amoswap amoadd amoand amoor amoxor amomin amomax amominu amomaxu amocas amofadd lda stl fadd fsub fmul
    fdiv fsqrt fmin fmax feq flt fle fcvti fcvtf fcvtp fabs fneg fclass fmac fnmac strip setvl setrows vld vldFf vldSeg vldRow vldCol
    vlds vldt vldx vldtd vldz vst vstSeg vsts vstt vstx vstxadd vsttd vstc vstcmp vadd vsub vmul vmulh vmulhu vand vor vxor vsll vsrl
    vsra vmin vmax vminu vmaxu vadds vaddsu vsubs vsubsu vabs vneg vnot vpopc vclz vaddVintx vsubVintx vmulVintx vmulhVintx vmulhuVintx
    vandVintx vorVintx vxorVintx vsllVintx vsrlVintx vsraVintx vminVintx vmaxVintx vminuVintx vmaxuVintx vaddsVintx vaddsuVintx
    vsubsVintx vsubsuVintx vfadd vfsub vfmul vfdiv vfmin vfmax vfabs vfneg vfsqrt vfrcp vfrsq vfexp2 vflog2 vfsgnj vfrint vfaddVfpx
    vfsubVfpx vfmulVfpx vfdivVfpx vfminVfpx vfmaxVfpx vfsgnjVfpx vfma vfms vfnma vfnms vcmpInt vcmpFp vcmpxInt vcmpxFp vcvtRnd vcvtSr
    vcvtRtz vcvtSat vcvtF4 vcvtF4sr vmov vbcast vsel vslide vperm vscansum vreint vrand vrandf vidx pand por pxor pandn pnot pset pclr
    pmov vredsum vredsumt vredmax vredmin vredmaxu vredminu vredand vredor vredxor vredrow vredrowmax vffs vpop mma mzero msync mtarget
    mshape mslot barArrive barWait barTest fenceC fenceK fenceD fenceS xcopy xwait xpoll xcancel tdinv tdinvall passStart stripCommit
    passComplete laneError clusterRenumber clusterRetirement deferredTrap interrupt laneRetirementNotice arrivalMarkerFire jobStart
    jobComplete mmaExecute mmaComplete slotPeriod rowActivationAlert backoffEnd activationWindowRelease channelPredicted channelFailed
    failedChannelRetirement migrationWindowStall migrationWindowSwitch launchPortWrite launchAccept waitConditionPoll priorityAging
    strandPlacement preemption strandRestore launchComplete hostBar2Read hostBar2Write ctxactActivate ctxactDeactivate registerWrite
    attest milepost raslog powermode tenantkey chanret debugunlock mailboxCtxact extend priResponse priTimeout atsInvalidation
    ideInsecure peerAccess peerErrorCompletion peerTimeout linkTraining portWidthChange lifecycleFuse coldReset warmReset
    illegalInstruction emulationTrap mccFailure hostUnsupportedRequest ideKm debuggerHalt powerGating
    n h

end Sys2Proof.Laws.Fits

namespace Sys2Proof.Machine

/-! ### A trap at the word -/

/-- EVA takes the word, zero-extended (R32). -/
theorem ofNat_word {i : Instr} {n : Nat} {w : IWord} (hn : encodeNat i = some n) (hw : encode i = some w) :
    BitVec.ofNat 64 n = w.setWidth 64 := by
  have hlt := Laws.Fits.encodeNat_lt i hn
  obtain rfl : BitVec.ofNat 32 n = w := by
    unfold encode at hw
    rw [hn] at hw
    exact Option.some.inj hw
  apply BitVec.eq_of_toNat_eq
  rw [BitVec.toNat_setWidth, toNat_word n hlt, BitVec.toNat_ofNat]

section Word

variable {i : Instr} {n : Nat} {w : IWord} (hn : encodeNat i = some n) (hw : encode i = some w) {s : State}
include hn hw

theorem trapWord_eq (c d : Nat) : trapWord c d n s = .next (s.trapped c d (w.setWidth 64)) := by
  unfold trapWord
  rw [trapHere_eq_trapped, ofNat_word hn hw]

theorem privileged_of_user (hu : s.st.mode = .u) (k : Out) : privileged n s k = .next (s.trapped 3 0 (w.setWidth 64)) :=
  (if_pos hu).trans (trapWord_eq hn hw 3 0)

theorem matrixWord_of_core (hm : s.st.span ≠ .ctrl) (k : Out) : matrixWord n s k = .next (s.trapped 1 0 (w.setWidth 64)) :=
  (if_neg (by simpa [State.onMcc] using hm)).trans (trapWord_eq hn hw 1 0)

end Word

/-- The same of a word that is no instruction. -/
theorem trapWord_toNat (c d : Nat) (w : IWord) (s : State) : trapWord c d w.toNat s = .next (s.trapped c d (w.setWidth 64)) := by
  unfold trapWord
  rw [trapHere_eq_trapped, BitVec.ofNat_toNat]

theorem matrixWord_of_mcc {s : State} (hm : s.st.span = .ctrl) (n : Nat) (k : Out) : matrixWord n s k = k :=
  if_pos (by simp [State.onMcc, hm])

theorem privileged_of_supervisor {s : State} (hs : s.st.mode = .s) (n : Nat) (k : Out) : privileged n s k = k :=
  if_neg (by simp [hs])

/-! ### How a meaning ends -/

section Ends

variable {m : M Unit} {s t : State}

theorem runM_of_ok (h : m s = (.ok (), t)) : runM m s = .next t := by
  unfold runM
  rw [h]

theorem runM_of_wait (h : m s = (.error .wait, t)) : runM m s = .next t := by
  unfold runM
  rw [h]

theorem runM_of_trap {c d : Nat} {v : Word} (h : m s = (.error (.trap c d v), t)) : runM m s = .next ((t.at s.st.pc).trapped c d v) := by
  unfold runM
  rw [h]
  exact congrArg Host.Outcome.next (trapHere_eq_trapped c d v _)

end Ends

/-- A condition that stops the meaning first. -/
theorem guard_stops {α : Type} {c : Prop} [Decidable c] (hc : c) (m : M PUnit) (f : PUnit → M α) {s t : State} {e : Stop}
    (h : m s = (.error e, t)) : (if c then m >>= f else f ⟨⟩) s = (.error e, t) := by
  rw [if_pos hc]
  exact bind_of_error h

theorem put_eq_wrote (s : State) (d : Reg) (v : Word) : s.put d v = s.wrote d v := by
  unfold State.put State.setReg Strand.set State.wrote
  by_cases hd : d = 0
  · subst hd
    rfl
  · have hv : ¬ d.val = 0 := fun h => hd (Fin.ext h)
    rw [if_neg hv, if_neg hd]
    rfl

/-- Settles O15: each of the words asks for mode S before anything else. -/
theorem privilegeTraps : Obligations.PrivilegeTraps := by
  intro s d a b n w hu i hi _ hw
  rw [List.mem_append, List.mem_append] at hi
  rcases hi with (hi | hi) | hi
  · rcases List.mem_pair.1 hi with rfl | rfl
    · exact privileged_of_user rfl hw hu _
    · exact privileged_of_user rfl hw hu _
  · split at hi
    next hn =>
      have hpriv : privilegedState n = true := decide_eq_true hn
      rcases List.mem_pair.1 hi with rfl | rfl
      · exact (if_pos hpriv).trans (privileged_of_user rfl hw hu _)
      · exact (if_pos hpriv).trans (privileged_of_user rfl hw hu _)
    next => cases hi
  · split at hi
    next hm =>
      obtain rfl := List.mem_singleton.1 hi
      exact (matrixWord_of_mcc hm _ _).trans (privileged_of_user rfl hw hu _)
    next => cases hi

/-! ### The words of control -/

theorem aget_adel {α : Type} (d : α) (l : List (Nat × α)) (k j : Nat) : aget d (adel l k) j = if j = k then d else aget d l j := by
  induction l with
  | nil => simp [adel, aget]
  | cons p r ih =>
    obtain ⟨a, x⟩ := p
    unfold adel at ih ⊢
    by_cases ha : a = k
    · subst ha
      by_cases hj : j = a
      · simpa [hj] using ih
      · simpa [aget, hj, Ne.symm hj] using ih
    · by_cases hj : a = j
      · subst hj
        simp [aget, ha]
      · simpa [aget, ha, hj] using ih

theorem execWait_fresh {s : State} (h : s.st.waiting = false) : execWait s = .next { s with st := { s.st with waiting := true } } :=
  if_neg (by simp [h])

theorem execWait_stays {s : State} (h : s.st.waiting = true) (hw : s.st.woken = false) (hi : s.interruptFor = none) :
    execWait s = .next s := by
  unfold execWait
  rw [if_neg (by simp [hw, hi]), ← h]

/-- A WAIT under way that is over goes on at the next instruction. -/
theorem execWait_ends {s : State} (h : s.st.waiting = true) (he : s.st.woken = true ∨ s.interruptFor ≠ none) :
    execWait s = .next ({ s with st := s.st.rouse } : State).adv :=
  if_pos (by simpa [h, Option.isSome_iff_ne_none] using he)

theorem execTrap_eq (i : BitVec 16) (s : State) : execTrap i s = .next ((s.at (s.st.pc + 4)).trapped 0x17 0 (i.setWidth 64)) :=
  congrArg Host.Outcome.next (trapHere_eq_trapped 0x17 0 (zext i) (s.at (s.st.pc + 4)))

/-- Settles O17: each word of control is its meaning, a trap or the next instruction. -/
theorem systemWords : Obligations.SystemWords := by
  intro s i w
  refine ⟨execWait_fresh, execWait_stays, fun h he => ⟨_, execWait_ends h he, rfl, rfl, rfl, rfl, rfl, rfl⟩,
    fun h => ⟨_, if_pos h, rfl, rfl, rfl, rfl, rfl, rfl⟩, fun h => if_neg (by simp [h]), rfl,
    congrArg Host.Outcome.next (trapHere_eq_trapped 0x16 0 0 s), execTrap_eq i s,
    trapWord_toNat 1 0 w s, trapWord_toNat 2 0 w s,
    _, rfl, rfl, ?_, fun k hk => ?_, rfl, rfl, rfl, rfl, rfl⟩
  · exact (aget_adel ..).trans (if_pos rfl)
  · exact (aget_adel ..).trans (if_neg hk)

end Sys2Proof.Machine
end

section
/-!
The setup of the matrix engine (R227, R243, R246): what each member writes, its faults, and the overflow bits that MSYNC reads and clears.
-/

namespace Sys2Proof.Machine

section Mcc

variable {s : State} (hm : s.st.span = .ctrl)
include hm

/-- A MATRIX word of an MCC whose meaning stops with a fault of the engine. -/
theorem matrixWord_faults {i : Instr} {n k : Nat} {w : IWord} {m : M Unit} (hn : encodeNat i = some n) (hw : encode i = some w)
    (h : m s = (matrixFault k n : M Unit) s) : matrixWord n s (runM m s) = .next (s.trapped 0x12 k (w.setWidth 64)) := by
  rw [matrixWord_of_mcc hm, ← ofNat_word hn hw]
  exact runM_of_trap h

theorem mtarget_sets {a : Reg} (h : (s.reg a).toNat < 2 ^ min 24 (s.cluster s.st.cluster).logical.length) :
    execMtarget a s = .next ({ s with st := { s.st with mtarget := BitVec.ofNat 24 (s.reg a).toNat } } : State).stepped := by
  have hfits : ¬ bitsAbove (s.reg a).toNat (min 24 (s.liveCores s.st.cluster)) = true := by
    simpa [bitsAbove, State.liveCores, Nat.div_eq_zero_iff] using h
  refine (matrixWord_of_mcc hm _ _).trans (runM_of_ok ?_)
  rw [if_neg hfits]
  rfl

theorem mtarget_faults {a : Reg} {w : IWord} (hw : encode (.mtarget a) = some w)
    (h : 2 ^ min 24 (s.cluster s.st.cluster).logical.length ≤ (s.reg a).toNat) :
    execMtarget a s = .next (s.trapped 0x12 2 (w.setWidth 64)) := by
  have habove : bitsAbove (s.reg a).toNat (min 24 (s.liveCores s.st.cluster)) = true := by
    simpa [bitsAbove, State.liveCores, Nat.div_eq_zero_iff] using h
  exact matrixWord_faults hm (i := .mtarget a) rfl hw (guard_stops habove _ _ rfl)

theorem mshape_sets {a b : Reg} (h : ¬ ((s.reg a).toNat < 1 ∨ 256 < (s.reg a).toNat ∨ (s.reg b).toNat < 1 ∨ 256 < (s.reg b).toNat)) :
    execMshape a b s = .next ({ s with st := { s.st with mm := (s.reg a).toNat, mn := (s.reg b).toNat } } : State).stepped := by
  refine (matrixWord_of_mcc hm _ _).trans (runM_of_ok ?_)
  rw [if_neg h]
  rfl

theorem mshape_faults {a b : Reg} {w : IWord} (hw : encode (.mshape a b) = some w)
    (h : (s.reg a).toNat < 1 ∨ 256 < (s.reg a).toNat ∨ (s.reg b).toNat < 1 ∨ 256 < (s.reg b).toNat) :
    execMshape a b s = .next (s.trapped 0x12 1 (w.setWidth 64)) :=
  matrixWord_faults hm (i := .mshape a b) rfl hw (guard_stops h _ _ rfl)

/-- Why MSLOT refuses an entry (detail 9 of R243). -/
def State.slotRefused (s : State) (k v : Nat) : Prop :=
  k > 15 ∨ v / 2 ^ 17 ≠ 0 ∨ (slotAsids (aset (s.cluster s.st.cluster).slots k v)).length > 8

variable (hs : s.st.mode = .s)
include hs

theorem mslot_sets {d a b : Reg} (h : ¬ s.slotRefused (s.reg a).toNat (s.reg b).toNat) :
    execMslot d a b s = .next (((s.latchSlot s.st.cluster).modCluster s.st.cluster fun c =>
      { c with slots := aset c.slots (s.reg a).toNat (s.reg b).toNat }).wrote d
        (wd (aget 0 (s.cluster s.st.cluster).slots (s.reg a).toNat))) := by
  refine (matrixWord_of_mcc hm _ _).trans ((privileged_of_supervisor hs _ _).trans (runM_of_ok ?_))
  unfold State.slotRefused at h
  rw [if_neg h, ← put_eq_wrote]
  rfl

theorem mslot_faults {d a b : Reg} {w : IWord} (hw : encode (.mslot d a b) = some w) (h : s.slotRefused (s.reg a).toNat (s.reg b).toNat) :
    execMslot d a b s = .next (s.trapped 0x12 9 (w.setWidth 64)) := by
  unfold State.slotRefused at h
  unfold execMslot
  dsimp only
  rw [privileged_of_supervisor hs]
  exact matrixWord_faults hm (i := .mslot d a b) rfl hw (guard_stops h _ _ rfl)

end Mcc

/-! ### MSYNC -/

/-- The bits below `n` at which a test holds, as a number. -/
theorem testBit_foldl_two_pow (p : Nat → Prop) [DecidablePred p] (n : Nat) :
    (List.range n).foldl (fun m c => if p c then m + 2 ^ c else m) 0 < 2 ^ n ∧
      ∀ k < n, ((List.range n).foldl (fun m c => if p c then m + 2 ^ c else m) 0).testBit k = decide (p k) := by
  induction n with
  | zero => simp
  | succ n ih =>
    rw [List.range_succ, List.foldl_append]
    generalize (List.range n).foldl (fun m c => if p c then m + 2 ^ c else m) 0 = x at ih
    obtain ⟨hx, hbits⟩ := ih
    have htop : x.testBit n = false := Nat.testBit_lt_two_pow hx
    simp only [List.foldl_cons, List.foldl_nil]
    by_cases hp : p n
    · rw [if_pos hp, Nat.add_comm]
      refine ⟨by rw [Nat.pow_succ]; omega, fun k hk => ?_⟩
      rcases Nat.lt_succ_iff_lt_or_eq.1 hk with h | rfl
      · rw [Nat.testBit_two_pow_add_gt h, hbits k h]
      · rw [Nat.testBit_two_pow_add_eq, htop, decide_eq_true hp]
        rfl
    · rw [if_neg hp]
      refine ⟨by rw [Nat.pow_succ]; omega, fun k hk => ?_⟩
      rcases Nat.lt_succ_iff_lt_or_eq.1 hk with h | rfl
      · exact hbits k h
      · rw [htop, decide_eq_false hp]

/-- The overflow bits that MSYNC takes: those of the strand's context and the tensor id (R240, R246). -/
def State.overflowOf (s : State) (tid : Nat) : List (Nat × Nat × Nat) :=
  (s.cluster s.st.cluster).overflow.filter fun o => o.1 = s.st.ctx ∧ o.2.2 = tid

/-- What MSYNC reads: a bit for each core with an overflow. -/
def State.overflowWord (s : State) (tid : Nat) : Word :=
  BitVec.ofNat 64 ((List.range 24).foldl (fun m c => if (s.overflowOf tid).any fun o => o.2.1 = c then m + 2 ^ c else m) 0)

/-- The state without those bits. -/
def State.overflowCleared (s : State) (tid : Nat) : State :=
  s.modCluster s.st.cluster fun x => { x with overflow := x.overflow.filter fun o => !(s.overflowOf tid).contains o }

theorem overflowWord_bit (s : State) (tid : Nat) {k : Nat} (hk : k < 24) :
    (s.overflowWord tid).getLsbD k = decide ((s.st.ctx, k, tid) ∈ (s.cluster s.st.cluster).overflow) := by
  have hbits := (testBit_foldl_two_pow (fun c => ((s.overflowOf tid).any fun o => o.2.1 = c) = true) 24).2 k hk
  unfold State.overflowWord
  rw [BitVec.getLsbD_ofNat, hbits, decide_eq_true (show k < 64 by omega), Bool.true_and, decide_eq_decide]
  simp only [State.overflowOf, List.any_eq_true, List.mem_filter, decide_eq_true_eq]
  constructor
  · rintro ⟨⟨x, y, z⟩, ⟨hmem, rfl, rfl⟩, rfl⟩
    exact hmem
  · intro hmem
    exact ⟨_, ⟨hmem, rfl, rfl⟩, rfl⟩

theorem mem_overflowCleared (s : State) (tid : Nat) (o : Nat × Nat × Nat) :
    o ∈ ((s.overflowCleared tid).cluster s.st.cluster).overflow ↔
      o ∈ (s.cluster s.st.cluster).overflow ∧ ¬ (o.1 = s.st.ctx ∧ o.2.2 = tid) := by
  unfold State.overflowCleared
  rw [cluster_modCluster, if_pos rfl]
  simp only [State.overflowOf, List.mem_filter, Bool.not_eq_true', List.contains_eq_mem, decide_eq_true_eq, decide_eq_false_iff_not]
  tauto

section Msync

variable {s : State} (hm : s.st.span = .ctrl) {d a : Reg}
include hm

theorem msync_refuses (h : 2 ^ 12 ≤ (s.reg a).toNat) : execMsync d a s = .next (s.trapped 0x0F 0 (s.reg a)) := by
  have hid : (s.reg a).toNat / 2 ^ 12 ≠ 0 := by omega
  exact (matrixWord_of_mcc hm _ _).trans (runM_of_trap (guard_stops hid _ _ rfl))

variable (h : (s.reg a).toNat < 2 ^ 12)
include h

theorem msync_waits (ho : s.mopsOf s.st ≠ []) : execMsync d a s = .next s := by
  have hid : ¬ (s.reg a).toNat / 2 ^ 12 ≠ 0 := by omega
  have hops : (!(s.mopsOf s.st).isEmpty) = true := by simpa using ho
  refine (matrixWord_of_mcc hm _ _).trans (runM_of_wait ?_)
  rw [if_neg hid]
  exact guard_stops hops _ _ rfl

theorem msync_reads (ho : s.mopsOf s.st = []) :
    execMsync d a s = .next ((s.overflowCleared (s.reg a).toNat).put d (s.overflowWord (s.reg a).toNat)) := by
  have hid : ¬ (s.reg a).toNat / 2 ^ 12 ≠ 0 := by omega
  have hops : ¬ (!(s.mopsOf s.st).isEmpty) = true := by simp [ho]
  refine (matrixWord_of_mcc hm _ _).trans (runM_of_ok ?_)
  rw [if_neg hid, if_neg hops]
  rfl

end Msync

/-- Settles O35: each member's own check decides between its fault and its effect. -/
theorem matrixSetup : Obligations.MatrixSetup := by
  intro s d a b x y cl fault
  refine ⟨fun hcore i w hi hw => ?_, fun hm => ⟨mtarget_sets hm, fun h w hw => mtarget_faults hm hw h, fun h1 h2 h3 h4 => ?_,
    fun h w hw => mshape_faults hm hw ?_, fun hs => ⟨fun h1 h2 h3 => mslot_sets hm hs ?_, fun h w hw => mslot_faults hm hs hw ?_,
      fun h w hw => mslot_faults hm hs hw (.inr (.inr h))⟩, msync_refuses hm, msync_waits hm, fun h ho => ?_⟩⟩
  · simp only [List.mem_cons, List.not_mem_nil, or_false] at hi
    rcases hi with rfl | rfl | rfl | rfl | rfl | rfl <;> exact matrixWord_of_core rfl hw hcore _
  · exact mshape_sets hm (by omega)
  · omega
  · have hword : y / 2 ^ 17 = 0 := Nat.div_eq_of_lt h2
    rintro (h | h | h)
    · omega
    · exact h hword
    · exact Nat.not_lt.2 h3 h
  · exact h.imp id fun h => .inl (by omega)
  · refine ⟨_, _, msync_reads hm h ho, ?_, rfl, rfl, rfl, fun k hk => overflowWord_bit s x hk, fun k hk => ?_, mem_overflowCleared s x⟩
    · rw [← put_eq_wrote]
      rfl
    · exact ((mem_overflowCleared s x _).1 hk).2 ⟨rfl, rfl⟩

end Sys2Proof.Machine
end

section
/-!
When a word does not issue (R29, R131, R153, R154, R298): the wait for a pending register, the words that are illegal on an MCC or beside a
suspended pass, and the stream faults of sources and of old VD.
-/

namespace Sys2Proof.Machine

/-! ### Registers that a sink will write (R153) -/

theorem vectorWord_of_core {s : State} (hm : s.st.span ≠ .ctrl) (hs : s.suspended = false) (n : Nat) (k : Out) : vectorWord n s k = k :=
  if_neg (by simp [State.onMcc, hm, hs])

theorem syncWord_of_running {s : State} (hs : s.suspended = false) (n : Nat) (k : Out) : syncWord n s k = k := if_neg (by simp [hs])

section Pending

variable {s : State} {r : Reg} {rs : List Reg} (hr : r ∈ rs) (hp : s.pending r = true)
include hr hp

theorem whenReady_of_pending (k : Out) : whenReady rs s k = .next s := if_pos (List.any_eq_true.2 ⟨r, hr, hp⟩)

theorem vectorIssue_of_pending (hm : s.st.span ≠ .ctrl) (hs : s.suspended = false) (n : Nat) (m : M Unit) :
    vectorIssue n rs m s = .next s :=
  (vectorWord_of_core hm hs _ _).trans (ite_eq_left_iff.2 fun _ => whenReady_of_pending hr hp _)

end Pending

theorem whenReady_of_ready {s : State} {rs : List Reg} (hr : s.ready rs) (k : Out) : whenReady rs s k = k := by
  have hnone : ¬ rs.any s.pending = true := by
    rw [List.any_eq_true]
    rintro ⟨r, hmem, hp⟩
    rw [hr r hmem] at hp
    exact Bool.false_ne_true hp
  exact if_neg hnone

/-- A word on the state register `n` does not trap in mode S, nor in mode U below 0x100 (R31). -/
theorem privilegedState_stays {s : State} {n : BitVec 11} (h : s.st.mode = .u → ¬ 256 ≤ n.toNat) {w : Nat} {k : Out} :
    (if privilegedState n then privileged w s k else k) = k := by
  split
  next hn => exact if_neg fun hu => h hu (of_decide_eq_true hn)
  next => rfl

/-- A word that touches a pending register is executed again, if the rest of the state lets it come to its registers. -/
theorem exec_of_pending {s : State} {i : Instr} {r : Reg} (hr : r ∈ scalarsOf i) (hp : s.pending r = true) (hm : s.st.span ≠ .ctrl)
    (hs : s.suspended = false)
    (hu : s.st.mode = .u → (∀ a b, i ≠ .tlbi a b) ∧ ∀ a n, 256 ≤ n.toNat → i ≠ .mfs a n ∧ i ≠ .mts a n) : exec i s = .next s := by
  cases i with
  | launch | cachewb | add | sub | and | or | xor | andn | sll | srl | sra | ror | slt | sltu | min | max | minu | maxu | clz | ctz
  | popc | sextb | sexth | sextw | zextb | zexth | zextw | bswap | mul | mulh | mulhu | div | divu | rem | remu | addi | andi | ori
  | xori | slli | srli | srai | rori | ldz | ldk | slti | sltiu | ldb | ldbu | ldh | ldhu | ldw | ldwu | ldd | stb | sth | stw | std
  | beqz | bnez | bltz | bgez | bgtz | blez | beq | bne | blt | bge | bltu | bgeu | bl | jr | jlr | amoswap | amoadd | amoand | amoor
  | amoxor | amomin | amomax | amominu | amomaxu | amocas | amofadd | lda | stl | fadd | fsub | fmul | fdiv | fsqrt | fmin | fmax | feq
  | flt | fle | fcvti | fcvtf | fcvtp | fabs | fneg | fclass | fmac | fnmac | xcopy | xwait | xpoll | xcancel | tdinv =>
    exact whenReady_of_pending hr hp _
  | vld | vldFf | vldSeg | vldRow | vldCol | vlds | vldt | vldx | vldtd | vldz | vst | vstSeg | vsts | vstt | vstx | vstxadd | vsttd
  | vstc | vstcmp | vaddVintx | vsubVintx | vmulVintx | vmulhVintx | vmulhuVintx | vandVintx | vorVintx | vxorVintx | vsllVintx
  | vsrlVintx | vsraVintx | vminVintx | vmaxVintx | vminuVintx | vmaxuVintx | vaddsVintx | vaddsuVintx | vsubsVintx | vsubsuVintx
  | vfaddVfpx | vfsubVfpx | vfmulVfpx | vfdivVfpx | vfminVfpx | vfmaxVfpx | vfsgnjVfpx | vcmpxInt | vcmpxFp | vbcast | vslide | vredsum
  | vredsumt | vredmax | vredmin | vredmaxu | vredminu | vredand | vredor | vredxor | vffs | vpop =>
    exact vectorIssue_of_pending hr hp hm hs _ _
  | setvl | strip =>
    exact (vectorWord_of_core hm hs _ _).trans (ite_eq_left_iff.2 fun _ => whenReady_of_pending hr hp _)
  | setrows => exact (vectorWord_of_core hm hs _ _).trans (whenReady_of_pending hr hp _)
  | barTest => exact (syncWord_of_running hs _ _).trans (whenReady_of_pending hr hp _)
  | tlbi a b => exact (if_neg fun h => (hu h).1 a b rfl).trans (whenReady_of_pending hr hp _)
  | mfs d n =>
    have hgo : (if mfsWaits s n.toNat then .next s else whenReady [d] s (.next (s.put d (stateRead s n.toNat)))) = Host.Outcome.next s :=
      ite_eq_left_iff.2 fun _ => whenReady_of_pending hr hp _
    exact (privilegedState_stays fun h hn => ((hu h).2 d n hn).1 rfl).trans hgo
  | mts a n =>
    have hgo : (if n.toNat = 6 ∧ s.passesInFlight then .next s else whenReady [a] s (.next (stateWrite n.toNat (s.reg a) s).adv)) =
        Host.Outcome.next s := ite_eq_left_iff.2 fun _ => whenReady_of_pending hr hp _
    exact (privilegedState_stays fun h hn => ((hu h).2 a n hn).2 rfl).trans hgo
  | _ => exact absurd hr List.not_mem_nil

theorem pending_zero (s : State) : s.pending 0 = false := rfl

/-! ### Words that are illegal on an MCC or beside a suspended pass (R29, R298) -/

/-- The gate that a word of its major comes to first. -/
inductive WordGate (i : Instr) (n : Nat) (s : State) : Prop where
  | vector (major : n / 2 ^ 26 ≠ 0x34) (k : Out) (h : exec i s = vectorWord n s k)
  | sync (major : n / 2 ^ 26 = 0x34) (k : Out) (h : exec i s = syncWord n s k)
  | other (major : n / 2 ^ 26 < 0x14 ∨ 0x32 < n / 2 ^ 26 ∧ n / 2 ^ 26 ≠ 0x34)

section

variable {i : Instr} {s : State} {op f : Nat}

theorem WordGate.of_vector {d a b : Reg} {k : Out} (h : exec i s = vectorWord (fmtR op d a b f) s k) (hf : f < 2 ^ 11)
    (ho : op ≠ 0x34) : WordGate i (fmtR op d a b f) s :=
  .vector (by rwa [fmtR_op op d a b f hf]) k h

theorem WordGate.of_fmtR (d a b : Reg) (hf : f < 2 ^ 11) (ho : op < 0x14 ∨ 0x32 < op ∧ op ≠ 0x34) : WordGate i (fmtR op d a b f) s :=
  .other (by rwa [fmtR_op op d a b f hf])

end

theorem wordGate (s : State) (i : Instr) {n : Nat} (hn : encodeNat i = some n) : WordGate i n s := by
  cases i with
  | waitTimeout | passStart | stripCommit | passComplete | laneError | clusterRenumber | clusterRetirement | deferredTrap | interrupt
  | laneRetirementNotice | arrivalMarkerFire | jobStart | jobComplete | mmaExecute | mmaComplete | slotPeriod | rowActivationAlert
  | backoffEnd | activationWindowRelease | channelPredicted | channelFailed | failedChannelRetirement | migrationWindowStall
  | migrationWindowSwitch | launchPortWrite | launchAccept | waitConditionPoll | priorityAging | strandPlacement | preemption
  | strandRestore | launchComplete | hostBar2Read | hostBar2Write | ctxactActivate | ctxactDeactivate | registerWrite | attest
  | milepost | raslog | powermode | tenantkey | chanret | debugunlock | mailboxCtxact | extend | priResponse | priTimeout
  | atsInvalidation | ideInsecure | peerAccess | peerErrorCompletion | peerTimeout | linkTraining | portWidthChange | lifecycleFuse
  | coldReset | warmReset | illegalInstruction | emulationTrap | mccFailure | hostUnsupportedRequest | ideKm | debuggerHalt
  | powerGating => nomatch hn
  | nop | rte | wait | exit | brk | force | convoy | vsync | ifence | vdrop | launch | tlbi | cachewb | add | sub | and | or | xor
  | andn | sll | srl | sra | ror | slt | sltu | min | max | minu | maxu | clz | ctz | popc | sextb | sexth | sextw | zextb | zexth
  | zextw | bswap | mul | mulh | mulhu | div | divu | rem | remu | jr | jlr | mma | mzero | msync | mtarget | mshape | mslot | xcopy
  | xwait | xpoll | xcancel | tdinv | tdinvall =>
    obtain rfl := Option.some.inj hn
    exact .of_fmtR _ _ _ (by decide) (by decide)
  | mfs | mts =>
    obtain rfl := Option.some.inj hn
    exact .of_fmtR _ _ _ (BitVec.isLt _) (by decide)
  | amoswap | amoadd | amoand | amoor | amoxor | amomin | amomax | amominu | amomaxu | amocas | amofadd | lda | stl =>
    obtain rfl := Option.some.inj hn
    exact .of_fmtR _ _ _ (atomFn_lt _ _ _ _ (by decide)) (by decide)
  | fadd | fsub | fmul | fdiv | fsqrt | fmin | fmax | feq | flt | fle | fcvti | fcvtf | fcvtp | fabs | fneg | fclass | fmac | fnmac =>
    obtain rfl := Option.some.inj hn
    exact .of_fmtR _ _ _ (sfpFn_lt _ _ _ (by decide)) (by decide)
  | trap | addi | andi | ori | xori | slli | srli | srai | rori | slti | sltiu | ldb | ldbu | ldh | ldhu | ldw | ldwu | ldd | stb | sth
  | stw | std | beq | bne | blt | bge | bltu | bgeu =>
    obtain rfl := Option.some.inj hn
    exact .other (.inl (by unfold fmtI; omega))
  | ldz | ldk =>
    obtain rfl := Option.some.inj hn
    exact .other (.inl (by unfold fmtK; omega))
  | beqz | bnez | bltz | bgez | bgtz | blez =>
    obtain rfl := Option.some.inj hn
    exact .other (.inl (by unfold fmtB1; omega))
  | b | bl =>
    obtain rfl := Option.some.inj hn
    exact .other (.inl (by unfold fmtJ; omega))
  | barArrive | barWait | barTest | fenceC | fenceK | fenceD | fenceS =>
    obtain rfl := Option.some.inj hn
    exact .sync (fmtR_op _ _ _ _ _ (by decide)) _ rfl
  | setvl | setrows | pand | por | pxor | pandn | pnot | pset | pclr | pmov =>
    obtain rfl := Option.some.inj hn
    exact .of_vector rfl (by decide) (by decide)
  | strip =>
    obtain rfl := Option.some.inj hn
    exact .of_vector rfl (by omega) (by decide)
  | vld | vldFf | vldSeg | vldRow | vldCol | vlds | vldt | vldx | vldtd | vldz | vst | vstSeg | vsts | vstt | vstx | vstxadd | vsttd
  | vstc | vstcmp =>
    obtain rfl := Option.some.inj hn
    exact .of_vector rfl (vmFn_lt _ _ _) (by decide)
  | vfma | vfms | vfnma | vfnms =>
    obtain rfl := Option.some.inj hn
    exact .of_vector rfl (v4Fn_lt _ _) (by decide)
  | vredsum | vredsumt | vredmax | vredmin | vredmaxu | vredminu | vredand | vredor | vredxor | vredrow | vredrowmax | vffs | vpop =>
    obtain rfl := Option.some.inj hn
    exact .of_vector rfl (vredFn_lt _ _ _ (by decide)) (by decide)
  | vadd | vsub | vmul | vmulh | vmulhu | vand | vor | vxor | vsll | vsrl | vsra | vmin | vmax | vminu | vmaxu | vadds | vaddsu | vsubs
  | vsubsu | vabs | vneg | vnot | vpopc | vclz | vaddVintx | vsubVintx | vmulVintx | vmulhVintx | vmulhuVintx | vandVintx | vorVintx
  | vxorVintx | vsllVintx | vsrlVintx | vsraVintx | vminVintx | vmaxVintx | vminuVintx | vmaxuVintx | vaddsVintx | vaddsuVintx
  | vsubsVintx | vsubsuVintx | vfadd | vfsub | vfmul | vfdiv | vfmin | vfmax | vfabs | vfneg | vfsqrt | vfrcp | vfrsq | vfexp2 | vflog2
  | vfsgnj | vfrint | vfaddVfpx | vfsubVfpx | vfmulVfpx | vfdivVfpx | vfminVfpx | vfmaxVfpx | vfsgnjVfpx | vcvtRnd | vcvtSr | vcvtRtz
  | vcvtSat | vcvtF4 | vcvtF4sr | vmov | vbcast | vsel | vslide | vperm | vscansum | vreint | vrand | vrandf =>
    obtain rfl := Option.some.inj hn
    exact .of_vector rfl (vFn_lt _ _ (by decide)) (by decide)
  | vcmpInt | vcmpxInt =>
    obtain rfl := Option.some.inj hn
    exact .of_vector rfl (vFn_lt _ _ (Nat.lt_trans (ICond.toNat_lt _) (by decide))) (by decide)
  | vcmpFp | vcmpxFp =>
    obtain rfl := Option.some.inj hn
    exact .of_vector rfl (vFn_lt _ _ (Nat.add_lt_add_left (FCond.toNat_lt _) 16)) (by decide)
  | vidx =>
    obtain rfl := Option.some.inj hn
    exact .vector (by unfold fmtX; omega) _ rfl

theorem vectorWord_illegal {s : State} (h : s.st.span = .ctrl ∨ s.suspended = true) (n : Nat) (k : Out) :
    vectorWord n s k = trapWord 1 0 n s :=
  if_pos (by simpa [State.onMcc] using h)

theorem syncWord_illegal {s : State} (h : s.suspended = true) (n : Nat) (k : Out) : syncWord n s k = trapWord 1 0 n s := if_pos h

/-- The words of control that come to the gate of the vector words. -/
theorem exec_control_of_vectorWord {i : Instr} (hi : i ∈ ([.force, .convoy, .vsync] : List Instr) ∨ ∃ vd, i = .vdrop vd) {n : Nat}
    (hn : encodeNat i = some n) (s : State) : ∃ k, exec i s = vectorWord n s k := by
  rcases hi with hi | ⟨vd, rfl⟩
  · simp only [List.mem_cons, List.not_mem_nil, or_false] at hi
    rcases hi with rfl | rfl | rfl
    all_goals
      obtain rfl := Option.some.inj hn
      exact ⟨_, rfl⟩
  · obtain rfl := Option.some.inj hn
    exact ⟨_, rfl⟩

theorem exec_vector_of_major {s : State} {i : Instr} {n : Nat} (hn : encodeNat i = some n) (hlo : 0x14 ≤ n / 2 ^ 26)
    (hhi : n / 2 ^ 26 ≤ 0x32) : ∃ k, exec i s = vectorWord n s k := by
  cases wordGate s i hn with
  | vector _ k h => exact ⟨k, h⟩
  | sync => omega
  | other => omega

theorem exec_sync_of_major {s : State} {i : Instr} {n : Nat} (hn : encodeNat i = some n) (h34 : n / 2 ^ 26 = 0x34) :
    ∃ k, exec i s = syncWord n s k := by
  cases wordGate s i hn with
  | vector major => exact absurd h34 major
  | sync _ k h => exact ⟨k, h⟩
  | other => omega

/-- The number that a word encodes. -/
theorem encodeNat_of_encode {i : Instr} {w : IWord} (hw : encode i = some w) : encodeNat i = some w.toNat := by
  obtain ⟨n, hn, rfl⟩ := Option.map_eq_some_iff.1 hw
  rw [hn, toNat_word n (Laws.Fits.encodeNat_lt i hn)]

theorem exec_illegal_of_vector {s : State} {i : Instr} {w : IWord} (hw : encode i = some w)
    (hi : (0x14 ≤ w.toNat / 2 ^ 26 ∧ w.toNat / 2 ^ 26 ≤ 0x32) ∨ i ∈ ([.force, .convoy, .vsync] : List Instr) ∨ ∃ vd, i = .vdrop vd)
    (h : s.st.span = .ctrl ∨ s.suspended = true) : exec i s = .next (s.trapped 1 0 (w.setWidth 64)) := by
  have hn := encodeNat_of_encode hw
  obtain ⟨k, hk⟩ : ∃ k, exec i s = vectorWord w.toNat s k :=
    hi.elim (fun hmajor => exec_vector_of_major hn hmajor.1 hmajor.2) fun hctrl => exec_control_of_vectorWord hctrl hn s
  rw [hk, vectorWord_illegal h, trapWord_toNat]

theorem exec_illegal_of_sync {s : State} {i : Instr} {w : IWord} (hw : encode i = some w) (h34 : w.toNat / 2 ^ 26 = 0x34)
    (h : s.suspended = true) : exec i s = .next (s.trapped 1 0 (w.setWidth 64)) := by
  obtain ⟨k, hk⟩ := exec_sync_of_major (s := s) (encodeNat_of_encode hw) h34
  rw [hk, syncWord_illegal h, trapWord_toNat]

/-! ### Stream faults (R131): a meaning that faults at once, or has what it looked up -/

section Checks

variable {α β : Type} {n : Nat} {s : State} {m : M α} {f : α → M β} {Q : α → Prop} {P : Prop}

/-- `m` stops at once with a stream fault of the word `n`. -/
def Faults (n : Nat) (s : State) (m : M α) : Prop := m s = (.error (.trap 8 0 (BitVec.ofNat 64 n)), s)

/-- `m` changes nothing; it stops with a stream fault of the word `n` or gives a value of which `Q` holds. -/
def Checks (n : Nat) (s : State) (m : M α) (Q : α → Prop) : Prop := Faults n s m ∨ ∃ a, m s = (.ok a, s) ∧ Q a

theorem faults_faultWord : Faults n s (faultWord n : M α) := rfl

theorem Faults.bind (h : Faults n s m) : Faults n s (m >>= f) := bind_of_error h

theorem Checks.bind_or (h : Checks n s m Q) (hf : ∀ a, Q a → Faults n s (f a) ∨ P) : Faults n s (m >>= f) ∨ P := by
  rcases h with h | ⟨a, ha, hq⟩
  · exact .inl h.bind
  · exact (hf a hq).imp_left (bind_of_ok ha).trans

theorem Checks.bind {R : β → Prop} (h : Checks n s m Q) (hf : ∀ a, Q a → Checks n s (f a) R) : Checks n s (m >>= f) R := by
  rcases h with h | ⟨a, ha, hq⟩
  · exact .inl h.bind
  · have hb : (m >>= f) s = f a s := bind_of_ok ha
    exact (hf a hq).imp hb.trans fun ⟨b, h1, h2⟩ => ⟨b, hb.trans h1, h2⟩

theorem checks_pure {a : α} (h : Q a) : Checks n s (pure a) Q := .inr ⟨a, rfl, h⟩

theorem checks_faultWord : Checks n s (faultWord n) Q := .inl rfl

theorem Checks.mono {R : α → Prop} (h : Checks n s m Q) (hqr : ∀ a, Q a → R a) : Checks n s m R :=
  h.imp_right fun ⟨a, ha, hq⟩ => ⟨a, ha, hqr a hq⟩

theorem checks_get {g : State → M α} (h : Checks n s (g s) Q) : Checks n s (get >>= g) Q := h

theorem checks_ite {c : Prop} [Decidable c] {m' : M α} (h : c → Checks n s m Q) (h' : ¬ c → Checks n s m' Q) :
    Checks n s (if c then m else m') Q := by
  split
  next hc => exact h hc
  next hc => exact h' hc

theorem checks_mapM {g : β → M α} {R : β → Prop} (h : ∀ b, Checks n s (g b) fun _ => R b) (l : List β) :
    Checks n s (l.mapM g) fun _ => ∀ b ∈ l, R b := by
  induction l with
  | nil => exact checks_pure fun b hb => absurd hb List.not_mem_nil
  | cons b r ih =>
    rw [List.mapM_cons]
    exact (h b).bind fun _ hb => ih.bind fun _ hr => checks_pure (List.forall_mem_cons.2 ⟨hb, hr⟩)

end Checks

/-! ### What the checks of R131 find -/

/-- The name `r` stands for a stream of another type or shape than a word would make (R131, R148). -/
def State.clashes (s : State) (pred : Bool) (ty : Option Ty) (r : Reg) : Prop :=
  ∃ id x, afind (if pred then s.st.pnames else s.st.vnames) r.val = some id ∧ wpOf s.st.wps id = some x ∧
    (x.ty ≠ ty ∨ x.vl ≠ s.st.sr.vl ∨ x.vrows ≠ s.st.sr.vrows)

/-- The vector name `r` stands for a stream of the present shape and of type `t`. -/
def State.holds (s : State) (r : Reg) (t : Ty) : Prop := ∃ x, s.named false r x ∧ x.ty = some t

/-- The streams of a mask, as `streamsOf` lists them. -/
def maskStreams (m : Mask) : List (Bool × Reg) := m.toList.map fun p => (true, p)

section Found

variable {n : Nat} {s : State}

theorem State.named.not_misfit {pred : Bool} {r : Reg} {x : Waypoint} (h : s.named pred r x) : ¬ s.misfit pred r := by
  obtain ⟨hname, hwp, hvl, hrows⟩ := h
  intro hmis
  rcases hmis _ _ hname hwp with h | h
  · exact h hvl
  · exact h hrows

theorem State.holds.not_misfit {r : Reg} {t : Ty} (h : s.holds r t) : ¬ s.misfit false r :=
  h.elim fun _ hx => hx.1.not_misfit

theorem checks_nameSrc (pred : Bool) (r : Reg) : Checks n s (nameSrc n pred r) (s.named pred r) := by
  refine checks_get ?_
  dsimp only
  cases hname : afind (if pred then s.st.pnames else s.st.vnames) r.val with
  | none => exact checks_faultWord
  | some id =>
    cases hwp : wpOf s.st.wps id with
    | none => simpa only [hwp] using checks_faultWord
    | some x =>
      obtain rfl : x.id = id := of_decide_eq_true (List.find?_some (p := fun w : Waypoint => decide (w.id = id)) hwp)
      simp only [hwp]
      exact checks_ite (fun hshape => checks_pure ⟨hname, hwp, hshape⟩) fun _ => checks_faultWord

theorem checks_dataSrc (ok : Ty → Bool) (r : Reg) : Checks n s (dataSrc n ok r) fun p => s.holds r p.2 ∧ ok p.2 = true := by
  refine (checks_nameSrc false r).bind fun x hx => ?_
  split
  next => exact checks_faultWord
  next t ht => exact checks_ite (fun hok => checks_pure ⟨⟨x, hx, ht⟩, hok⟩) fun _ => checks_faultWord

theorem checks_predSrc (r : Reg) : Checks n s (predSrc n r) fun _ => ¬ s.misfit true r :=
  (checks_nameSrc true r).bind fun _ hx => checks_pure hx.not_misfit

theorem checks_maskSrc (m : Mask) : Checks n s (maskSrc n m) fun _ => ∀ q ∈ maskStreams m, ¬ s.misfit q.1 q.2 := by
  cases m with
  | none => exact checks_pure fun q hq => absurd hq List.not_mem_nil
  | some p => exact (checks_predSrc p).bind fun _ hp => checks_pure (List.forall_mem_singleton.2 hp)

theorem checks_oldSrc (pred : Bool) (vd : Reg) (m : Mask) (ty : Option Ty) :
    Checks n s (oldSrc n pred vd m ty) fun _ => m ≠ none → s.st.sr.vpol.toNat % 2 = 0 → ¬ s.clashes pred ty vd := by
  refine checks_get (checks_ite (fun hskip => checks_pure fun hm hv => ?_) fun _ => ?_)
  · simp [bitAt, hm, hv] at hskip
  cases hname : afind (if pred then s.st.pnames else s.st.vnames) vd.val with
  | none => exact checks_pure fun _ _ ⟨id, x, hid, _⟩ => nomatch hname.symm.trans hid
  | some id =>
    cases hwp : wpOf s.st.wps id with
    | none =>
      simp only [hwp]
      refine checks_pure fun _ _ ⟨id', x, hid, hx, _⟩ => ?_
      obtain rfl := Option.some.inj (hname.symm.trans hid)
      exact nomatch hwp.symm.trans hx
    | some x =>
      simp only [hwp]
      refine checks_ite (fun hfits => checks_pure fun _ _ ⟨id', y, hid, hy, hclash⟩ => ?_) fun _ => checks_faultWord
      obtain rfl := Option.some.inj (hname.symm.trans hid)
      obtain rfl := Option.some.inj (hwp.symm.trans hy)
      obtain ⟨hty, hvl, hrows⟩ := hfits
      rcases hclash with h | h | h
      · exact h hty
      · exact h hvl
      · exact h hrows

theorem checks_twoSrcs (ok : Ty → Bool) (va vb : Reg) :
    Checks n s (twoSrcs n ok va vb) fun p => s.holds va p.2.2 ∧ s.holds vb p.2.2 ∧ ok p.2.2 = true :=
  (checks_dataSrc ok va).bind fun _ ha => (checks_dataSrc ok vb).bind fun _ hb =>
    checks_ite (fun ht => checks_pure ⟨ha.1, ht ▸ hb.1, ha.2⟩) fun _ => checks_faultWord

theorem checks_storeSrc (t : Ty) (r : Reg) : Checks n s (storeSrc n t r) fun _ => ¬ s.misfit false r :=
  (checks_dataSrc _ r).bind fun _ h => checks_pure h.1.not_misfit

/-! ### The types of the streams that a word reads -/

theorem State.named.unique {pred : Bool} {r : Reg} {x y : Waypoint} (hx : s.named pred r x) (hy : s.named pred r y) : x = y := by
  have hid : x.id = y.id := Option.some.inj (hx.1.symm.trans hy.1)
  have hwp := hx.2.1
  rw [hid] at hwp
  exact Option.some.inj (hwp.symm.trans hy.2.1)

theorem State.holds.unique {r : Reg} {t u : Ty} (ht : s.holds r t) (hu : s.holds r u) : t = u := by
  obtain ⟨x, hx, htx⟩ := ht
  obtain ⟨y, hy, huy⟩ := hu
  rw [hx.unique hy] at htx
  exact Option.some.inj (htx.symm.trans huy)

theorem typed_data {r : Reg} {t : Ty} {l : List (Bool × Reg)} {ts : List Ty} (ht : s.holds r t) (h : s.typed ((false, r) :: l) ts) :
    ∃ us, ts = t :: us ∧ s.typed l us := by
  cases h with
  | cons hu hrest => exact ⟨_, by rw [ht.unique hu], hrest⟩

theorem typed_mask {m : Mask} {ts : List Ty} (h : s.typed (maskStreams m) ts) : ts = [] := by
  cases m with
  | none => exact List.forall₂_nil_left_iff.1 h
  | some p => exact List.forall₂_nil_left_iff.1 h

theorem typed_one {a : Reg} {t : Ty} {m : Mask} {ts : List Ty} (ha : s.holds a t) (h : s.typed ((false, a) :: maskStreams m) ts) :
    ts = [t] := by
  obtain ⟨us, rfl, hus⟩ := typed_data ha h
  rw [typed_mask hus]

theorem typed_two {a b : Reg} {t u : Ty} {m : Mask} {ts : List Ty} (ha : s.holds a t) (hb : s.holds b u)
    (h : s.typed ((false, a) :: (false, b) :: maskStreams m) ts) : ts = [t, u] := by
  obtain ⟨us, rfl, hus⟩ := typed_data ha h
  rw [typed_one hb hus]

theorem typed_three {a b c : Reg} {t u v : Ty} {m : Mask} {ts : List Ty} (ha : s.holds a t) (hb : s.holds b u) (hc : s.holds c v)
    (h : s.typed ((false, a) :: (false, b) :: (false, c) :: maskStreams m) ts) : ts = [t, u, v] := by
  obtain ⟨us, rfl, hus⟩ := typed_data ha h
  rw [typed_two hb hc hus]

end Found

/-! ### The words that read streams, class by class -/

/-- The types of the streams `l` are ones that the entry takes, and no name that the word makes stands for a stream of another type or shape
(R131, R197). -/
def State.suits (s : State) (i : Instr) (l : List (Bool × Reg)) : Prop :=
  ∀ ts, s.typed l ts → accepts i ts ∧ ∀ pred names m ty, produces i ts = some (pred, names, m, ty) → m ≠ none →
    s.st.sr.vpol.toNat % 2 = 0 → ∀ r ∈ names, ¬ s.clashes pred ty r

/-- A word that reads the streams `l` issues as every vector word does, and unless it faults the streams are as R131 asks; under DETERM a
determinism trap may come before (R332). -/
def State.Issues (s : State) (i : Instr) (n : Nat) (l : List (Bool × Reg)) : Prop :=
  ∃ m : M Unit, exec i s = vectorIssue n (scalarsOf i) m s ∧
    (s.st.sr.determ.toNat % 2 = 0 → Faults n s m ∨ ∀ q ∈ l, ¬ s.misfit q.1 q.2) ∧ (Faults n s m ∨ s.suits i l)

theorem mem_intTypes {t : Ty} (h : tyIsInt t = true) : t ∈ intTypes := by
  cases t with
  | i8 | i16 | i32 | i64 => decide
  | _ => nomatch h

theorem mem_floatTypes {t : Ty} (h : tyIsFloat t = true) : t ∈ floatTypes := by
  cases t with
  | f16 | bf16 | f32 | f64 => decide
  | _ => nomatch h

theorem mem_arithTypes {t : Ty} (h : tyIsArith t = true) : t ∈ intTypes ++ floatTypes :=
  List.mem_append.2 ((Bool.or_eq_true_iff.1 h).imp mem_intTypes mem_floatTypes)

theorem isIndexTy_iff {t : Ty} : isIndexTy t = true ↔ t = .i32 ∨ t = .i64 := by simp [isIndexTy]

/-- Streams of one type are of one of the types in a list with that type. -/
theorem oneOf_replicate (k : Nat) {ok : List Ty} {t : Ty} (h : t ∈ ok) : ∃ u ∈ ok, ∀ v ∈ List.replicate k t, v = u :=
  ⟨t, h, fun _ => List.eq_of_mem_replicate⟩

section Classes

variable {s : State} {i : Instr} {n : Nat} {pred draws : Bool} {vd va vb vc : Reg} {m : Mask} {late : M Unit} {ok : Ty → Bool}

/-- A word of one new waypoint, by what its plan checks. -/
theorem issues_one_waypoint {plan : M Plan} {l : List (Bool × Reg)} {Q : Plan → Prop}
    (hexec : exec i s = issueOne n pred vd m (scalarsOf i) plan late draws s) (hplan : Checks n s plan Q)
    (hfit : ∀ p, Q p → ∀ q ∈ l, ¬ s.misfit q.1 q.2)
    (htake : ∀ p, Q p → ∀ ts, s.typed (l ++ maskStreams m) ts →
      accepts i ts ∧ (produces i ts = some (pred, [vd], m, p.ty) ∨ produces i ts = none)) :
    s.Issues i n (l ++ maskStreams m) := by
  refine ⟨_, hexec, fun _ => ?_, ?_⟩
  · exact hplan.bind_or fun p hp => (checks_maskSrc m).bind_or fun _ hm => .inr (List.forall_mem_append.2 ⟨hfit p hp, hm⟩)
  · refine hplan.bind_or fun p hp => (checks_maskSrc m).bind_or fun _ _ => (checks_oldSrc pred vd m p.ty).bind_or fun _ hold =>
      .inr fun ts hts => ?_
    obtain ⟨hacc, hprod⟩ := htake p hp ts hts
    refine ⟨hacc, fun pred' names m' ty' h hm hv => ?_⟩
    rcases hprod with hp' | hp'
    · cases hp'.symm.trans h
      exact List.forall_mem_singleton.2 (hold hm hv)
    · exact nomatch hp'.symm.trans h

/-- One data stream, whose type is the type made or says it. -/
theorem issues_one {g : Nat × Ty → M Plan} {ty : Ty → Option Ty}
    (hexec : exec i s = issueOne n pred vd m (scalarsOf i) (dataSrc n ok va >>= g) late draws s)
    (hg : ∀ x t, ∃ o : Plan, g (x, t) = pure o ∧ o.ty = ty t) (hacc : ∀ t, ok t = true → accepts i [t])
    (hprod : ∀ t, produces i [t] = some (pred, [vd], m, ty t)) : s.Issues i n ((false, va) :: maskStreams m) := by
  refine issues_one_waypoint (l := [(false, va)]) (Q := fun o => ∃ t, s.holds va t ∧ ok t = true ∧ o.ty = ty t) hexec ?_ ?_ ?_
  · refine (checks_dataSrc ok va).bind fun ⟨x, t⟩ ⟨hva, hok⟩ => ?_
    obtain ⟨o, ho, hty⟩ := hg x t
    rw [ho]
    exact checks_pure ⟨t, hva, hok, hty⟩
  · rintro o ⟨t, hva, -⟩
    exact List.forall_mem_singleton.2 hva.not_misfit
  · rintro o ⟨t, hva, hok, hty⟩ ts hts
    rw [typed_one hva hts, hty]
    exact ⟨hacc t hok, .inl (hprod t)⟩

/-- Two data streams of one type. -/
theorem issues_two {g : Nat × Nat × Ty → M Plan} {ty : Ty → Option Ty}
    (hexec : exec i s = issueOne n pred vd m (scalarsOf i) (twoSrcs n ok va vb >>= g) late draws s)
    (hg : ∀ x y t, ∃ o : Plan, g (x, y, t) = pure o ∧ o.ty = ty t) (hacc : ∀ t, ok t = true → accepts i [t, t])
    (hprod : ∀ t, produces i [t, t] = some (pred, [vd], m, ty t)) :
    s.Issues i n ((false, va) :: (false, vb) :: maskStreams m) := by
  refine issues_one_waypoint (l := [(false, va), (false, vb)])
    (Q := fun o => ∃ t, s.holds va t ∧ s.holds vb t ∧ ok t = true ∧ o.ty = ty t) hexec ?_ ?_ ?_
  · refine (checks_twoSrcs ok va vb).bind fun ⟨x, y, t⟩ ⟨hva, hvb, hok⟩ => ?_
    obtain ⟨o, ho, hty⟩ := hg x y t
    rw [ho]
    exact checks_pure ⟨t, hva, hvb, hok, hty⟩
  · rintro o ⟨t, hva, hvb, -⟩
    exact List.forall_mem_cons.2 ⟨hva.not_misfit, List.forall_mem_singleton.2 hvb.not_misfit⟩
  · rintro o ⟨t, hva, hvb, hok, hty⟩ ts hts
    rw [typed_two hva hvb hts, hty]
    exact ⟨hacc t hok, .inl (hprod t)⟩

theorem issues_vec3 {k : Nat} (hexec : exec i s = vec3 n k vd va vb vc m s) (hregs : scalarsOf i = [])
    (hacc : ∀ t, tyIsFloat t = true → accepts i [t, t, t]) (hprod : ∀ t, produces i [t, t, t] = some (false, [vd], m, some t)) :
    s.Issues i n ((false, va) :: (false, vb) :: (false, vc) :: maskStreams m) := by
  refine issues_one_waypoint (l := [(false, va), (false, vb), (false, vc)])
    (Q := fun o => ∃ t, s.holds va t ∧ s.holds vb t ∧ s.holds vc t ∧ tyIsFloat t = true ∧ o.ty = some t)
    (by rw [hregs]; exact hexec) ?_ ?_ ?_
  · refine (checks_twoSrcs tyIsFloat va vb).bind fun ⟨x, y, t⟩ ⟨hva, hvb, hok⟩ =>
      (checks_dataSrc tyIsFloat vc).bind fun ⟨z, u⟩ ⟨hvc, _⟩ => checks_ite (fun ht => ?_) fun _ => checks_faultWord
    exact checks_pure ⟨t, hva, hvb, ht ▸ hvc, hok, rfl⟩
  · rintro o ⟨t, hva, hvb, hvc, -⟩
    exact List.forall_mem_cons.2 ⟨hva.not_misfit, List.forall_mem_cons.2 ⟨hvb.not_misfit, List.forall_mem_singleton.2 hvc.not_misfit⟩⟩
  · rintro o ⟨t, hva, hvb, hvc, hok, hty⟩ ts hts
    rw [typed_three hva hvb hvc hts, hty]
    exact ⟨hacc t hok, .inl (hprod t)⟩

theorem issues_vsel {p : Reg} (hn : encodeNat (.vsel vd va vb p) = some n) :
    s.Issues (.vsel vd va vb p) n [(false, va), (false, vb), (true, p)] := by
  obtain rfl := Option.some.inj hn
  refine issues_one_waypoint (l := [(false, va), (false, vb), (true, p)]) (m := none)
    (Q := fun o => ∃ t, s.holds va t ∧ s.holds vb t ∧ ¬ s.misfit true p ∧ tyIsArith t = true) rfl ?_ ?_ ?_
  · exact (checks_twoSrcs tyIsArith va vb).bind fun ⟨x, y, t⟩ ⟨hva, hvb, hok⟩ => (checks_predSrc p).bind fun _ hp =>
      checks_pure ⟨t, hva, hvb, hp, hok⟩
  · rintro o ⟨t, hva, hvb, hp, -⟩
    exact List.forall_mem_cons.2 ⟨hva.not_misfit, List.forall_mem_cons.2 ⟨hvb.not_misfit, List.forall_mem_singleton.2 hp⟩⟩
  · rintro o ⟨t, hva, hvb, -, hok⟩ ts hts
    rw [typed_two (m := some p) hva hvb hts]
    exact ⟨oneOf_replicate 2 (mem_arithTypes hok), .inr rfl⟩

theorem issues_vperm (hn : encodeNat (.vperm vd va vb m) = some n) :
    s.Issues (.vperm vd va vb m) n ((false, va) :: (false, vb) :: maskStreams m) := by
  obtain rfl := Option.some.inj hn
  refine issues_one_waypoint (l := [(false, va), (false, vb)])
    (Q := fun o => ∃ t u, s.holds va t ∧ s.holds vb u ∧ tyIsArith t = true ∧ isIndexTy u = true ∧ o.ty = some t) rfl ?_ ?_ ?_
  · exact (checks_dataSrc tyIsArith va).bind fun ⟨x, t⟩ ⟨hva, hok⟩ => (checks_dataSrc isIndexTy vb).bind fun ⟨y, u⟩ ⟨hvb, hidx⟩ =>
      checks_pure ⟨t, u, hva, hvb, hok, hidx, rfl⟩
  · rintro o ⟨t, u, hva, hvb, -⟩
    exact List.forall_mem_cons.2 ⟨hva.not_misfit, List.forall_mem_singleton.2 hvb.not_misfit⟩
  · rintro o ⟨t, u, hva, hvb, hok, hidx, hty⟩ ts hts
    rw [typed_two hva hvb hts, hty]
    exact ⟨⟨t, u, rfl, mem_arithTypes hok, isIndexTy_iff.1 hidx⟩, .inl rfl⟩

/-- No data stream. -/
theorem issues_none {plan : M Plan} {ty : Option Ty} (hexec : exec i s = issueOne n pred vd m (scalarsOf i) plan late draws s)
    (hplan : Checks n s plan fun o => accepts i [] ∧ o.ty = ty)
    (hprod : produces i [] = some (pred, [vd], m, ty) ∨ produces i [] = none) : s.Issues i n (maskStreams m) := by
  refine issues_one_waypoint (l := []) hexec hplan (fun _ _ q hq => absurd hq List.not_mem_nil) ?_
  rintro o ⟨hacc, hty⟩ ts hts
  rw [typed_mask hts, hty]
  exact ⟨hacc, hprod⟩

/-- A member of PRED. -/
theorem issues_pred {k : Nat} {srcs : List Reg} {l : List (Bool × Reg)} (hexec : exec i s = predOp n k vd srcs s)
    (hregs : scalarsOf i = []) (hl : l = srcs.map fun r => (true, r)) (hacc : ∀ ts, accepts i ts) (hprod : ∀ ts, produces i ts = none) :
    s.Issues i n l := by
  rw [hl, ← List.append_nil (srcs.map fun r => (true, r))]
  refine issues_one_waypoint (m := none) (Q := fun _ => ∀ r ∈ srcs, ¬ s.misfit true r) (by rw [hregs]; exact hexec) ?_ ?_ ?_
  · exact (checks_mapM checks_predSrc srcs).bind fun _ h => checks_pure h
  · exact fun _ h => List.forall_mem_map.2 h
  · exact fun _ _ ts _ => ⟨hacc ts, .inr (hprod ts)⟩

/-- What the mask and the old streams show of a load, whose types are all taken. -/
theorem suits_load {names : List Reg} {ty : Option Ty} (hacc : ∀ ts, accepts i ts)
    (hprod : ∀ ts, produces i ts = some (false, names, m, ty))
    (hold : ∀ r ∈ names, m ≠ none → s.st.sr.vpol.toNat % 2 = 0 → ¬ s.clashes false ty r) (l : List (Bool × Reg)) : s.suits i l := by
  refine fun ts _ => ⟨hacc ts, fun pred' names' m' ty' h hm hv r hr => ?_⟩
  cases (hprod ts).symm.trans h
  exact hold r hr hm hv

/-- A load at addresses in registers: mask and old stream come first. -/
theorem issues_load {g : Option Nat → M Plan} {ty : Option Ty}
    (hexec : exec i s = issueOne n false vd m (scalarsOf i) (maskSrc n m >>= fun _ => oldSrc n false vd m ty >>= g) late draws s)
    (hacc : ∀ ts, accepts i ts) (hprod : ∀ ts, produces i ts = some (false, [vd], m, ty)) : s.Issues i n (maskStreams m) := by
  refine ⟨_, hexec, fun _ => Or.imp_left Faults.bind ?_, Or.imp_left Faults.bind ?_⟩
  · exact (checks_maskSrc m).bind_or fun _ hm => .inr hm
  · exact (checks_maskSrc m).bind_or fun _ _ => (checks_oldSrc false vd m ty).bind_or fun _ hold =>
      .inr (suits_load hacc hprod (List.forall_mem_singleton.2 hold) _)

theorem issues_vldSeg {a b : Reg} {t : Ty} (hn : encodeNat (.vldSeg vd a b m t) = some n) :
    s.Issues (.vldSeg vd a b m t) n (maskStreams m) := by
  obtain rfl := Option.some.inj hn
  refine ⟨_, rfl, fun _ => ?_, ?_⟩
  · exact (checks_maskSrc m).bind_or fun _ hm => .inr hm
  · exact (checks_maskSrc m).bind_or fun _ _ => (checks_mapM (fun f => checks_oldSrc false (regPlus vd f) m _) _).bind_or fun _ hold =>
      .inr (suits_load (i := .vldSeg vd a b m t) (fun _ => trivial) (fun _ => rfl) (List.forall_mem_map.2 hold) _)

/-! A store or a reduction takes its types by statements of its own. -/

theorem issues_sink {m : M Unit} {l : List (Bool × Reg)} (hexec : exec i s = vectorIssue n (scalarsOf i) m s)
    (hm : s.st.sr.determ.toNat % 2 = 0 → Faults n s m ∨ ∀ q ∈ l, ¬ s.misfit q.1 q.2) (hacc : ∀ ts, accepts i ts)
    (hprod : ∀ ts, produces i ts = none) : s.Issues i n l :=
  ⟨m, hexec, hm, .inr fun ts _ => ⟨hacc ts, fun _ _ _ _ h => nomatch (hprod ts).symm.trans h⟩⟩

theorem issues_directStore {vss : List Reg} {q : Bool} {t : Ty} {al : List Word} {op : SOp} {l : List (Bool × Reg)}
    (hexec : exec i s = directStore n vss q m t (scalarsOf i) al op s) (hl : l = vss.map (fun r => (false, r)) ++ maskStreams m)
    (hacc : ∀ ts, accepts i ts) (hprod : ∀ ts, produces i ts = none) : s.Issues i n l := by
  subst hl
  refine issues_sink hexec (fun _ => ?_) hacc hprod
  exact (checks_mapM (checks_storeSrc t) vss).bind_or fun _ hv => (checks_maskSrc m).bind_or fun _ hm =>
    .inr (List.forall_mem_append.2 ⟨List.forall_mem_map.2 hv, hm⟩)

theorem issues_scatter {a b : Reg} {q : Bool} {t : Ty} {fits det : Bool} {op : SOp}
    (hexec : exec i s = scatter n va a b q m t fits det op s) (hregs : scalarsOf i = [a])
    (hdet : s.st.sr.determ.toNat % 2 = 0 → det = false) (hacc : ∀ ts, accepts i ts) (hprod : ∀ ts, produces i ts = none) :
    s.Issues i n ((false, va) :: (false, b) :: maskStreams m) := by
  refine issues_sink (by rw [hregs]; exact hexec) (fun hd => ?_) hacc hprod
  rw [hdet hd, if_neg Bool.false_ne_true]
  cases fits with
  | false => exact .inl rfl
  | true =>
    exact (checks_storeSrc t va).bind_or fun _ hv => (checks_dataSrc isIndexTy b).bind_or fun _ hb => (checks_maskSrc m).bind_or
      fun _ hm => .inr (List.forall_mem_cons.2 ⟨hv, List.forall_mem_cons.2 ⟨hb.1.not_misfit, hm⟩⟩)

theorem issues_tileStore {a b : Reg} {q : Bool} {t : Ty} {op : SOp} (hexec : exec i s = tileStore n va a b q m t ok draws op s)
    (hregs : scalarsOf i = [a, b]) (hacc : ∀ ts, accepts i ts) (hprod : ∀ ts, produces i ts = none) :
    s.Issues i n ((false, va) :: maskStreams m) := by
  refine issues_sink (by rw [hregs]; exact hexec) (fun _ => ?_) hacc hprod
  exact (checks_dataSrc ok va).bind_or fun _ hv => (checks_maskSrc m).bind_or fun _ hm =>
    .inr (List.forall_mem_cons.2 ⟨hv.1.not_misfit, hm⟩)

theorem issues_reduce {k : Nat} {d : Reg} {q : Bool} (hexec : exec i s = reduce n k ok d va m q s) (hregs : scalarsOf i = [d])
    (hacc : ∀ ts, accepts i ts) (hprod : ∀ ts, produces i ts = none) : s.Issues i n ((false, va) :: maskStreams m) := by
  refine issues_sink (by rw [hregs]; exact hexec) (fun hd => ?_) hacc hprod
  rw [if_neg (by simp [bitAt, hd])]
  exact (checks_dataSrc ok va).bind_or fun _ hv => (checks_maskSrc m).bind_or fun _ hm =>
    .inr (List.forall_mem_cons.2 ⟨hv.1.not_misfit, hm⟩)

theorem issues_reducePred {k : Nat} {d : Reg} {q : Bool} (hexec : exec i s = reducePred n k d va m q s) (hregs : scalarsOf i = [d])
    (hacc : ∀ ts, accepts i ts) (hprod : ∀ ts, produces i ts = none) : s.Issues i n ((true, va) :: maskStreams m) := by
  refine issues_sink (by rw [hregs]; exact hexec) (fun _ => ?_) hacc hprod
  exact (checks_predSrc va).bind_or fun _ hv => (checks_maskSrc m).bind_or fun _ hm => .inr (List.forall_mem_cons.2 ⟨hv, hm⟩)

theorem issues_reduceRows {mx : Bool} {q : Bool} (hexec : exec i s = reduceRows n mx vd va m q s) (hregs : scalarsOf i = [])
    (hacc : ∀ ts, accepts i ts) (hprod : ∀ ts, produces i ts = none) : s.Issues i n ((false, va) :: maskStreams m) := by
  refine issues_sink (by rw [hregs]; exact hexec) (fun _ => ?_) hacc hprod
  exact (checks_dataSrc tyIsArith va).bind_or fun _ hv => (checks_maskSrc m).bind_or fun _ hm =>
    .inr (List.forall_mem_cons.2 ⟨hv.1.not_misfit, hm⟩)

end Classes

theorem cvtOk_f4 {k : Nat} {t : Ty} (h : cvtOk k t .e2m1 = true) : t = .f32 := by
  cases t with
  | f32 => rfl
  | _ => nomatch h

theorem reint_accepts {t u : Ty} (h : (tyIsArith u && tyIsArith t && tyBits u == tyBits t) = true) :
    t ∈ intTypes ++ floatTypes ∧ ∀ v ∈ [u], v ∈ intTypes ++ floatTypes ∧ tyBits v = tyBits t := by
  simp only [Bool.and_eq_true, beq_iff_eq] at h
  obtain ⟨⟨hu, ht⟩, hbits⟩ := h
  exact ⟨mem_arithTypes ht, List.forall_mem_singleton.2 ⟨mem_arithTypes hu, hbits⟩⟩

theorem issues_of_streamsOf (s : State) {i : Instr} {n : Nat} {l : List (Bool × Reg)} (hl : streamsOf i = some l)
    (hn : encodeNat i = some n) : s.Issues i n l := by
  cases i with
  | vadd | vsub | vmul | vmulh | vmulhu | vand | vor | vxor | vsll | vsrl | vsra | vmin | vmax | vminu | vmaxu | vadds | vaddsu | vsubs
  | vsubsu | vcmpInt =>
    obtain rfl := Option.some.inj hl
    obtain rfl := Option.some.inj hn
    exact issues_two rfl (fun _ _ _ => ⟨_, rfl, rfl⟩) (fun _ h => oneOf_replicate 2 (mem_intTypes h)) fun _ => rfl
  | vfadd | vfsub | vfmul | vfdiv | vfmin | vfmax | vfsgnj | vcmpFp =>
    obtain rfl := Option.some.inj hl
    obtain rfl := Option.some.inj hn
    exact issues_two rfl (fun _ _ _ => ⟨_, rfl, rfl⟩) (fun _ h => oneOf_replicate 2 (mem_floatTypes h)) fun _ => rfl
  | vabs | vneg | vnot | vpopc | vclz | vaddVintx | vsubVintx | vmulVintx | vmulhVintx | vmulhuVintx | vandVintx | vorVintx | vxorVintx
  | vsllVintx | vsrlVintx | vsraVintx | vminVintx | vmaxVintx | vminuVintx | vmaxuVintx | vaddsVintx | vaddsuVintx | vsubsVintx
  | vsubsuVintx | vcmpxInt =>
    obtain rfl := Option.some.inj hl
    obtain rfl := Option.some.inj hn
    exact issues_one rfl (fun _ _ => ⟨_, rfl, rfl⟩) (fun _ h => oneOf_replicate 1 (mem_intTypes h)) fun _ => rfl
  | vfabs | vfneg | vfsqrt | vfrcp | vfrsq | vfexp2 | vflog2 | vfrint | vfaddVfpx | vfsubVfpx | vfmulVfpx | vfdivVfpx | vfminVfpx
  | vfmaxVfpx | vfsgnjVfpx | vcmpxFp =>
    obtain rfl := Option.some.inj hl
    obtain rfl := Option.some.inj hn
    exact issues_one rfl (fun _ _ => ⟨_, rfl, rfl⟩) (fun _ h => oneOf_replicate 1 (mem_floatTypes h)) fun _ => rfl
  | vmov | vscansum | vslide =>
    obtain rfl := Option.some.inj hl
    obtain rfl := Option.some.inj hn
    exact issues_one rfl (fun _ _ => ⟨_, rfl, rfl⟩) (fun _ h => oneOf_replicate 1 (mem_arithTypes h)) fun _ => rfl
  | vfma | vfms | vfnma | vfnms =>
    obtain rfl := Option.some.inj hl
    obtain rfl := Option.some.inj hn
    exact issues_vec3 rfl rfl (fun _ h => oneOf_replicate 3 (mem_floatTypes h)) fun _ => rfl
  | vcvtRnd | vcvtSr | vcvtRtz | vcvtSat =>
    obtain rfl := Option.some.inj hl
    obtain rfl := Option.some.inj hn
    exact issues_one rfl (fun _ _ => ⟨_, rfl, rfl⟩) (fun _ h => List.forall_mem_singleton.2 h) fun _ => rfl
  | vcvtF4 | vcvtF4sr =>
    obtain rfl := Option.some.inj hl
    obtain rfl := Option.some.inj hn
    exact issues_one rfl (fun _ _ => ⟨_, rfl, rfl⟩) (fun _ h => List.forall_mem_singleton.2 (cvtOk_f4 h)) fun _ => rfl
  | vreint =>
    obtain rfl := Option.some.inj hl
    obtain rfl := Option.some.inj hn
    exact issues_one rfl (fun _ _ => ⟨_, rfl, rfl⟩) (fun _ h => reint_accepts h) fun _ => rfl
  | vldx =>
    obtain rfl := Option.some.inj hl
    obtain rfl := Option.some.inj hn
    exact issues_one rfl (fun _ _ => ⟨_, rfl, rfl⟩) (fun _ h => List.forall_mem_singleton.2 (isIndexTy_iff.1 h)) fun _ => rfl
  | vldSeg =>
    obtain rfl := Option.some.inj hl
    exact issues_vldSeg hn
  | vsel =>
    obtain rfl := Option.some.inj hl
    exact issues_vsel hn
  | vperm =>
    obtain rfl := Option.some.inj hl
    exact issues_vperm hn
  | vldtd | vldz | vrand | vrandf =>
    obtain rfl := Option.some.inj hl
    obtain rfl := Option.some.inj hn
    exact issues_none rfl (checks_pure ⟨trivial, rfl⟩) (.inl rfl)
  | vidx =>
    obtain rfl := Option.some.inj hl
    obtain rfl := Option.some.inj hn
    exact issues_none (m := none) rfl (checks_pure ⟨trivial, rfl⟩) (.inr rfl)
  | vbcast =>
    obtain rfl := Option.some.inj hl
    obtain rfl := Option.some.inj hn
    exact issues_none rfl (checks_ite (fun h => checks_pure ⟨mem_arithTypes h, rfl⟩) fun _ => checks_faultWord) (.inl rfl)
  | pand | por | pxor | pandn | pnot | pset | pclr | pmov =>
    obtain rfl := Option.some.inj hl
    obtain rfl := Option.some.inj hn
    exact issues_pred rfl rfl rfl (fun _ => trivial) fun _ => rfl
  | vld | vldFf | vldRow | vldCol | vlds | vldt =>
    obtain rfl := Option.some.inj hl
    obtain rfl := Option.some.inj hn
    exact issues_load rfl (fun _ => trivial) fun _ => rfl
  | vst | vsts | vstt | vstcmp =>
    obtain rfl := Option.some.inj hl
    obtain rfl := Option.some.inj hn
    exact issues_directStore rfl rfl (fun _ => trivial) fun _ => rfl
  | vstSeg =>
    obtain rfl := Option.some.inj hl
    obtain rfl := Option.some.inj hn
    exact issues_directStore rfl (by rw [List.map_map]; rfl) (fun _ => trivial) fun _ => rfl
  | vstx =>
    obtain rfl := Option.some.inj hl
    obtain rfl := Option.some.inj hn
    exact issues_scatter rfl rfl (fun _ => rfl) (fun _ => trivial) fun _ => rfl
  | vstxadd =>
    obtain rfl := Option.some.inj hl
    obtain rfl := Option.some.inj hn
    exact issues_scatter rfl rfl (fun h => by simp [bitAt, h]) (fun _ => trivial) fun _ => rfl
  | vsttd | vstc =>
    obtain rfl := Option.some.inj hl
    obtain rfl := Option.some.inj hn
    exact issues_tileStore rfl rfl (fun _ => trivial) fun _ => rfl
  | vredsum | vredsumt | vredmax | vredmin | vredmaxu | vredminu | vredand | vredor | vredxor =>
    obtain rfl := Option.some.inj hl
    obtain rfl := Option.some.inj hn
    exact issues_reduce rfl rfl (fun _ => trivial) fun _ => rfl
  | vffs | vpop =>
    obtain rfl := Option.some.inj hl
    obtain rfl := Option.some.inj hn
    exact issues_reducePred rfl rfl (fun _ => trivial) fun _ => rfl
  | vredrow | vredrowmax =>
    obtain rfl := Option.some.inj hl
    obtain rfl := Option.some.inj hn
    exact issues_reduceRows rfl rfl (fun _ => trivial) fun _ => rfl
  | _ => nomatch hl

/-! ### What a stream fault comes to (R332) -/

section Stream

variable {s : State} {n : Nat} {rs : List Reg} {m : M Unit} (hm : s.st.span ≠ .ctrl) (hs : s.suspended = false)
include hm hs

theorem vectorIssue_of_unsettled (h : s.unsettled = true) : vectorIssue n rs m s = .next s :=
  (vectorWord_of_core hm hs _ _).trans (if_pos h)

theorem vectorIssue_of_faults {w : IWord} (h : s.unsettled = false) (hr : s.ready rs) (hf : Faults w.toNat s m) :
    vectorIssue w.toNat rs m s = .next (s.trapped 8 0 (w.setWidth 64)) := by
  refine (vectorWord_of_core hm hs _ _).trans ((if_neg (by simp [h])).trans ((whenReady_of_ready hr _).trans ?_))
  rw [← BitVec.ofNat_toNat]
  exact runM_of_trap hf

end Stream

/-- Settles O22: the gates of a word by its scalar registers and its major, and the checks of R131 of each class of words with streams. -/
theorem issueWaitsAndFaults : Obligations.IssueWaitsAndFaults := by
  refine ⟨fun _ _ _ => exec_of_pending, pending_zero,
    fun s i w hw => ⟨exec_illegal_of_vector hw, exec_illegal_of_sync hw⟩, fun s i w l hl hw hm hs => ?_⟩
  obtain ⟨m, hexec, hfit, hsuits⟩ := issues_of_streamsOf s hl (encodeNat_of_encode hw)
  rw [hexec]
  refine ⟨vectorIssue_of_unsettled hm hs, fun hset hr hdet ⟨q, hq, hmis⟩ => ?_, fun hset hr ts hts => ⟨fun hacc => ?_, ?_⟩⟩
  · exact vectorIssue_of_faults hm hs hset hr ((hfit hdet).resolve_right fun h => h q hq hmis)
  · exact vectorIssue_of_faults hm hs hset hr (hsuits.resolve_right fun h => hacc (h ts hts).1)
  · rintro pred names mask ty hprod hmask hv ⟨r, hr', hclash⟩
    exact vectorIssue_of_faults hm hs hset hr
      (hsuits.resolve_right fun h => (h ts hts).2 pred names mask ty hprod hmask hv r hr' hclash)

end Sys2Proof.Machine
end

section
/-!
Write-backs (R47, R48, R92, R264): what they leave alone, and where the bytes of a dirty line stand afterwards.
-/

namespace Sys2Proof.Machine

/-! ### Lists by key, and cells -/

theorem afind_aset {α : Type} (l : List (Nat × α)) (k : Nat) (v : α) (j : Nat) :
    afind (aset l k v) j = if k = j then some v else afind l j := by
  induction l with
  | nil => rfl
  | cons p r ih =>
    obtain ⟨a, x⟩ := p
    unfold aset
    by_cases hak : a = k
    · subst hak
      simp only [if_true, afind]
      split
      · rfl
      · rfl
    · by_cases hka : k < a
      · rw [if_neg hak, if_pos hka]
        rfl
      · rw [if_neg hak, if_neg hka]
        simp only [afind, ih]
        by_cases haj : a = j
        · subst haj
          rw [if_pos rfl, if_neg fun h => hak h.symm, if_pos rfl]
        · rw [if_neg haj, if_neg haj]

/-- What a key stands for is listed, or is the default. -/
theorem aget_mem_or {α : Type} (d : α) (l : List (Nat × α)) (k : Nat) : (k, aget d l k) ∈ l ∨ aget d l k = d := by
  induction l with
  | nil => exact .inr rfl
  | cons p r ih =>
    obtain ⟨a, x⟩ := p
    unfold aget
    by_cases ha : a = k
    · subst ha
      exact .inl (by simp)
    · rw [if_neg ha]
      exact ih.imp_left (List.mem_cons_of_mem _)

/-- Cells kept by a test of their address. -/
theorem cellRead_filter {lo : Nat} {l : List Host.Cell} (hl : cellsFrom lo l = true) (p : Nat → Bool) (x : Nat) :
    cellRead (l.filter fun c => p c.1) x = if p x = true then cellRead l x else 0 := by
  induction l generalizing lo with
  | nil => simp [cellRead]
  | cons c r ih =>
    obtain ⟨k, b⟩ := c
    simp only [cellsFrom, Bool.and_eq_true] at hl
    obtain ⟨-, hr⟩ := hl
    by_cases hkx : k = x
    · subst hkx
      have hnone : cellRead r k = 0 := cellRead_below hr (Nat.lt_succ_self k)
      by_cases hp : p k = true
      · simp [hp, cellRead]
      · rw [List.filter_cons_of_neg (p := fun c : Host.Cell => p c.1) hp, ih hr, if_neg hp, if_neg hp]
    · have hkeep : cellRead ((k, b) :: r) x = cellRead r x := by
        rw [cellRead, if_neg hkx]
        split
        next hlt => exact (cellRead_below hr (by omega)).symm
        next => rfl
      rw [hkeep, ← ih hr]
      by_cases hp : p k = true
      · rw [List.filter_cons_of_pos (p := fun c : Host.Cell => p c.1) hp, cellRead, if_neg hkx]
        split
        next hlt => exact (cellRead_below (cellsFrom_filter _ hr) (by omega)).symm
        next => rfl
      · rw [List.filter_cons_of_neg (p := fun c : Host.Cell => p c.1) hp]

/-- Cells written one after the other. -/
theorem cellRead_foldl_cellWrite {lo : Nat} {cs dst : List Host.Cell} (hc : cellsFrom lo cs = true) (hd : cellsFrom 0 dst = true) (x : Nat) :
    cellRead (cs.foldl (fun l c => cellWrite l c.1 c.2) dst) x = if cellRead cs x = 0 then cellRead dst x else cellRead cs x := by
  induction cs generalizing lo dst with
  | nil => simp [cellRead]
  | cons c r ih =>
    obtain ⟨k, b⟩ := c
    simp only [cellsFrom, Bool.and_eq_true, bne_iff_ne, ne_eq] at hc
    obtain ⟨⟨-, hb⟩, hr⟩ := hc
    rw [List.foldl_cons, ih hr (cellsFrom_cellWrite _ hd (Nat.zero_le _)), cellRead_cellWrite hd]
    by_cases hkx : k = x
    · subst hkx
      have hhead : cellRead ((k, b) :: r) k = b := if_pos rfl
      rw [hhead, cellRead_below hr (Nat.lt_succ_self k), if_pos rfl, if_pos rfl, if_neg hb]
    · by_cases hxk : x < k
      · simp [cellRead, hkx, hxk, cellRead_below hr (by omega : x < k + 1)]
      · simp [cellRead, hkx, hxk]

/-- A range that is copied reads as its source. -/
theorem cellRead_cellsCopy {src dst : List Host.Cell} {lo hi x : Nat} (hs : cellsFrom 0 src = true) (hd : cellsFrom 0 dst = true)
    (hlo : lo ≤ x) (hhi : x < hi) : cellRead (cellsCopy src dst lo hi) x = cellRead src x := by
  have hin : (decide (lo ≤ x) && decide (x < hi)) = true := by simp [hlo, hhi]
  unfold cellsCopy
  dsimp only
  rw [cellRead_foldl_cellWrite (cellsFrom_filter _ hs) (cellsFrom_filter _ hd),
    cellRead_filter hs (fun a => decide (lo ≤ a) && decide (a < hi)), cellRead_filter hd (fun a => !(decide (lo ≤ a) && decide (a < hi))),
    if_pos hin, hin]
  split
  next h => exact h.symm
  next => rfl

/-! ### What a write-back leaves alone -/

/-- `t` is `s` but for local HBM with its keys and marks, and what lies behind it. -/
def State.OnlyHbm (s t : State) : Prop :=
  ∃ hbm tags array poison msc,
    t = { s with mem := { s.mem with hbm := hbm, tags := tags, array := array, poison := poison, msc := msc } }

/-- `t` is `s` but for these and the lines of the cluster caches. -/
def State.OnlyData (s t : State) : Prop :=
  ∃ hbm tags array poison msc caches,
    t = { s with mem := { s.mem with hbm := hbm, tags := tags, array := array, poison := poison, msc := msc, caches := caches } }

theorem State.OnlyHbm.refl (s : State) : s.OnlyHbm s := ⟨_, _, _, _, _, rfl⟩

theorem State.OnlyHbm.trans {s t u : State} (h : s.OnlyHbm t) (h' : t.OnlyHbm u) : s.OnlyHbm u := by
  obtain ⟨_, _, _, _, _, rfl⟩ := h
  obtain ⟨_, _, _, _, _, rfl⟩ := h'
  exact ⟨_, _, _, _, _, rfl⟩

theorem onlyHbm_foldl {α : Type} {f : State → α → State} (hf : ∀ (s : State) x, s.OnlyHbm (f s x)) (xs : List α) (s : State) :
    s.OnlyHbm (xs.foldl f s) :=
  foldl_keeps s.OnlyHbm xs f (fun t x h => h.trans (hf t x)) s (.refl s)

theorem State.OnlyHbm.caches {s t : State} (h : s.OnlyHbm t) : t.mem.caches = s.mem.caches := by
  obtain ⟨_, _, _, _, _, rfl⟩ := h
  rfl

theorem State.OnlyHbm.toll {s t : State} (h : s.OnlyHbm t) : t.toll = s.toll := by
  obtain ⟨_, _, _, _, _, rfl⟩ := h
  rfl

theorem State.OnlyData.refl (s : State) : s.OnlyData s := ⟨_, _, _, _, _, _, rfl⟩

theorem State.OnlyData.trans {s t u : State} (h : s.OnlyData t) (h' : t.OnlyData u) : s.OnlyData u := by
  obtain ⟨_, _, _, _, _, _, rfl⟩ := h
  obtain ⟨_, _, _, _, _, _, rfl⟩ := h'
  exact ⟨_, _, _, _, _, _, rfl⟩

theorem State.OnlyData.frame {s t : State} (h : s.OnlyData t) :
    t.st = s.st ∧ t.fab = s.fab ∧ t.sys = s.sys ∧ t.bench = s.bench ∧ t.mem.win = s.mem.win := by
  obtain ⟨_, _, _, _, _, _, rfl⟩ := h
  exact ⟨rfl, rfl, rfl, rfl, rfl⟩

theorem State.OnlyHbm.setCache {s t : State} (h : s.OnlyHbm t) (c : Nat) (l : List Line) : s.OnlyData (t.setCache c l) := by
  obtain ⟨_, _, _, _, _, rfl⟩ := h
  exact ⟨_, _, _, _, _, _, rfl⟩

theorem onlyHbm_toArray (s : State) (lo hi : Nat) : s.OnlyHbm (s.toArray lo hi) := ⟨_, _, _, _, _, rfl⟩

theorem onlyHbm_devWriteByte (s : State) (ten pa : Nat) (b : Byte) : s.OnlyHbm (s.devWriteByte ten pa b) := ⟨_, _, _, _, _, rfl⟩

theorem onlyHbm_markPoison (s : State) (ln : Nat) : s.OnlyHbm (s.markPoison ln) := ⟨_, _, _, _, _, rfl⟩

/-- A line becomes dirty in the memory-side caches: only the array may take another line. -/
theorem touchLine_keeps (s : State) (ln : Nat) :
    s.OnlyHbm (s.touchLine ln) ∧ (s.touchLine ln).mem.hbm = s.mem.hbm ∧ (s.touchLine ln).mem.tags = s.mem.tags := by
  have hdirty : s.OnlyHbm (s.modMem fun m => { m with msc := ln :: m.msc }) := ⟨_, _, _, _, _, rfl⟩
  unfold State.touchLine
  dsimp only
  split
  · exact ⟨.refl s, rfl, rfl⟩
  · split
    · exact ⟨hdirty, rfl, rfl⟩
    · split
      · exact ⟨hdirty, rfl, rfl⟩
      · split
        · exact ⟨hdirty, rfl, rfl⟩
        · exact ⟨hdirty.trans (onlyHbm_toArray _ _ _), rfl, rfl⟩

/-! ### One line -/

/-- One byte of a line written back (R249, R264). -/
def State.writeBackByte (l : Line) (s : State) (p : Byte × Nat) : State :=
  if l.dirtyAt p.2 = 0 then s
  else s.devWriteByte l.tenant (l.tag * 64 + p.2) (mergeNibbles (l.dirtyAt p.2) p.1 (s.devByte l.tenant (l.tag * 64 + p.2)))

/-- A line written back is its bytes written back; only poison marks are changed besides. -/
theorem writeBackLine_eq (s : State) (l : Line) : ∃ f : List Nat → List Nat, s.writeBackLine l = if l.dirty = 0 then s else
    ((l.bytes.zipIdx).foldl (State.writeBackByte l) (s.touchLine l.tag)).modMem fun m => { m with poison := f m.poison } := by
  unfold State.writeBackLine
  dsimp only
  split
  · exact ⟨id, rfl⟩
  · split
    · exact ⟨fun ps => if ps.contains l.tag then ps else l.tag :: ps, rfl⟩
    · split
      · exact ⟨fun ps => ps.filter fun x => x ≠ l.tag, rfl⟩
      · exact ⟨id, rfl⟩

theorem onlyHbm_writeBackByte (l : Line) (s : State) (p : Byte × Nat) : s.OnlyHbm (s.writeBackByte l p) := by
  unfold State.writeBackByte
  split
  · exact .refl s
  · exact onlyHbm_devWriteByte s _ _ _

theorem onlyHbm_writeBackLine (s : State) (l : Line) : s.OnlyHbm (s.writeBackLine l) := by
  obtain ⟨f, hf⟩ := writeBackLine_eq s l
  rw [hf]
  split
  · exact .refl s
  · exact ((touchLine_keeps s l.tag).1.trans (onlyHbm_foldl (onlyHbm_writeBackByte l) _ _)).trans ⟨_, _, _, _, _, rfl⟩

/-- What a read at the memory-side cache depends on. -/
theorem devByte_congr {s t : State} (hh : t.mem.hbm = s.mem.hbm) (ht : t.mem.tags = s.mem.tags) (hk : t.toll = s.toll) (k x : Nat) :
    t.devByte k x = s.devByte k x := by
  unfold State.devByte State.keyTag
  rw [hh, ht, hk]

/-- A byte written under the tenant's own key is read as it stands. -/
theorem devByte_of_keyTag {s : State} {k x : Nat} (h : afind s.mem.tags x = some (s.keyTag k)) :
    s.devByte k x = cellRead s.mem.hbm x := by
  unfold State.devByte
  rw [h]
  exact if_pos rfl

theorem devByte_touchLine (s : State) (ln k x : Nat) : (s.touchLine ln).devByte k x = s.devByte k x := by
  obtain ⟨honly, hhbm, htags⟩ := touchLine_keeps s ln
  exact devByte_congr hhbm htags honly.toll k x

section Bytes

variable {s : State} (hs : s.mem.wf = true)
include hs

theorem devByte_devWriteByte_same (ten a : Nat) (b : Byte) : (s.devWriteByte ten a b).devByte ten a = b := by
  have htag : afind (s.devWriteByte ten a b).mem.tags a = some ((s.devWriteByte ten a b).keyTag ten) := (afind_aset ..).trans (if_pos rfl)
  rw [devByte_of_keyTag htag]
  exact (cellRead_cellWrite ((Mem.wf_iff _).1 hs).1 a a b).trans (if_pos rfl)

theorem devByte_devWriteByte_other (ten : Nat) {a x : Nat} (h : a ≠ x) (b : Byte) (k : Nat) :
    (s.devWriteByte ten a b).devByte k x = s.devByte k x := by
  have htag : afind (s.devWriteByte ten a b).mem.tags x = afind s.mem.tags x := (afind_aset ..).trans (if_neg h)
  have hcell : cellRead (s.devWriteByte ten a b).mem.hbm x = cellRead s.mem.hbm x :=
    (cellRead_cellWrite ((Mem.wf_iff _).1 hs).1 a x b).trans (if_neg h)
  unfold State.devByte
  rw [htag, hcell]
  rfl

theorem writeBackByte_wf (l : Line) (p : Byte × Nat) : (s.writeBackByte l p).mem.wf = true := by
  unfold State.writeBackByte
  split
  · exact hs
  · exact devWriteByte_wf s _ _ _ hs

theorem devByte_writeBackByte_other (l : Line) {p : Byte × Nat} {x : Nat} (h : l.tag * 64 + p.2 ≠ x) (k : Nat) :
    (s.writeBackByte l p).devByte k x = s.devByte k x := by
  unfold State.writeBackByte
  split
  · rfl
  · exact devByte_devWriteByte_other hs _ h _ k

theorem devByte_writeBackByte_same {l : Line} {i : Nat} (hd : l.dirtyAt i ≠ 0) (b : Byte) :
    (s.writeBackByte l (b, i)).devByte l.tenant (l.tag * 64 + i) =
      mergeNibbles (l.dirtyAt i) b (s.devByte l.tenant (l.tag * 64 + i)) := by
  unfold State.writeBackByte
  rw [if_neg hd]
  exact devByte_devWriteByte_same hs _ _ _

/-- Bytes from an offset on leave every byte before them and after them. -/
theorem devByte_writeBackBytes_other (l : Line) (bs : List Byte) {o x : Nat} (h : x < l.tag * 64 + o ∨ l.tag * 64 + o + bs.length ≤ x)
    (k : Nat) : ((bs.zipIdx o).foldl (State.writeBackByte l) s).devByte k x = s.devByte k x := by
  induction bs generalizing s o with
  | nil => rfl
  | cons b r ih =>
    rw [List.length_cons] at h
    rw [List.zipIdx_cons, List.foldl_cons, ih (writeBackByte_wf hs l _) (by omega)]
    exact devByte_writeBackByte_other hs l (by dsimp only; omega) k

/-- Each of the bytes that is dirty comes to stand in HBM. -/
theorem devByte_writeBackBytes {l : Line} (bs : List Byte) {o i : Nat} (hd : l.dirtyAt (o + i) ≠ 0) (hi : i < bs.length) :
    ((bs.zipIdx o).foldl (State.writeBackByte l) s).devByte l.tenant (l.tag * 64 + (o + i)) =
      mergeNibbles (l.dirtyAt (o + i)) (bs.getD i 0) (s.devByte l.tenant (l.tag * 64 + (o + i))) := by
  induction bs generalizing s o i with
  | nil => exact absurd hi (Nat.not_lt_zero i)
  | cons b r ih =>
    have hwf := writeBackByte_wf hs l (b, o)
    rw [List.zipIdx_cons, List.foldl_cons]
    cases i with
    | zero =>
      rw [devByte_writeBackBytes_other hwf l r (by omega)]
      exact devByte_writeBackByte_same hs hd b
    | succ i =>
      have hoi : o + (i + 1) = o + 1 + i := by omega
      rw [hoi] at hd ⊢
      rw [ih hwf hd (Nat.lt_of_succ_lt_succ hi), devByte_writeBackByte_other hs l (by dsimp only; omega)]
      rfl

end Bytes

section Lines

variable {s : State} (hs : s.mem.wf = true)
include hs

theorem devByte_writeBackLine_other {l : Line} (hlen : l.bytes.length = 64) {x : Nat} (h : x / 64 ≠ l.tag) (k : Nat) :
    (s.writeBackLine l).devByte k x = s.devByte k x := by
  obtain ⟨f, hf⟩ := writeBackLine_eq s l
  rw [hf]
  split
  · rfl
  · have hbytes := devByte_writeBackBytes_other (touchLine_wf s l.tag hs) l l.bytes (o := 0) (x := x) (by omega) k
    exact hbytes.trans (devByte_touchLine s _ k x)

theorem standsIn_writeBackLine {l : Line} (hlen : l.bytes.length = 64) {i : Nat} (hi : i < 64) (hd : l.dirtyAt i ≠ 0) :
    standsIn (s.writeBackLine l) s l i := by
  obtain ⟨f, hf⟩ := writeBackLine_eq s l
  have hdirty : l.dirty ≠ 0 := fun h => hd (by simp [Line.dirtyAt, h])
  have hbytes := devByte_writeBackBytes (touchLine_wf s l.tag hs) (l := l) l.bytes (o := 0) (i := i) (by rwa [Nat.zero_add]) (hlen ▸ hi)
  rw [Nat.zero_add, devByte_touchLine] at hbytes
  unfold standsIn
  rw [hf, if_neg hdirty]
  exact hbytes

/-- The lines of a list that `p` names, written back in order. -/
def State.writeBackSome (p : Nat → Bool) (s : State) (ls : List Line) : State :=
  ls.foldl (fun s l => if p l.tag then s.writeBackLine l else s) s

omit hs in
theorem onlyHbm_writeBackSome (p : Nat → Bool) (ls : List Line) : s.OnlyHbm (s.writeBackSome p ls) :=
  onlyHbm_foldl (fun s l => by
    split
    · exact onlyHbm_writeBackLine s l
    · exact .refl s) ls s

variable {p : Nat → Bool} {ls : List Line} (hlen : ∀ l ∈ ls, l.bytes.length = 64)
include hlen

theorem devByte_writeBackSome_other {x : Nat} (h : ∀ l ∈ ls, p l.tag = true → x / 64 ≠ l.tag) (k : Nat) :
    (s.writeBackSome p ls).devByte k x = s.devByte k x := by
  unfold State.writeBackSome
  induction ls generalizing s with
  | nil => rfl
  | cons l r ih =>
    obtain ⟨hl, hr⟩ := List.forall_mem_cons.1 hlen
    obtain ⟨hx, hxr⟩ := List.forall_mem_cons.1 h
    rw [List.foldl_cons]
    split
    next hp => rw [ih (writeBackLine_wf s l hs) hr hxr, devByte_writeBackLine_other hs hl (hx hp)]
    next => exact ih hs hr hxr

/-- Every dirty byte of a line that `p` names comes to stand in HBM, when no two lines are of one address. -/
theorem standsIn_writeBackSome (hnd : (ls.map Line.tag).Nodup) {l : Line} (hl : l ∈ ls) (hp : p l.tag = true) {i : Nat} (hi : i < 64)
    (hd : l.dirtyAt i ≠ 0) : standsIn (s.writeBackSome p ls) s l i := by
  unfold State.writeBackSome
  induction ls generalizing s with
  | nil => exact absurd hl List.not_mem_nil
  | cons a r ih =>
    obtain ⟨ha, hr⟩ := List.forall_mem_cons.1 hlen
    rw [List.map_cons, List.nodup_cons] at hnd
    obtain ⟨hnew, hnd⟩ := hnd
    have hline : (l.tag * 64 + i) / 64 = l.tag := by omega
    rw [List.foldl_cons]
    rcases List.mem_cons.1 hl with rfl | hmem
    · have hother := devByte_writeBackSome_other (p := p) (writeBackLine_wf s l hs) hr (x := l.tag * 64 + i)
        (fun b hb _ => by rw [hline]; exact fun h => hnew (h ▸ List.mem_map_of_mem hb)) l.tenant
      rw [if_pos hp]
      exact hother.trans (standsIn_writeBackLine hs ha hi hd)
    · have hne : (l.tag * 64 + i) / 64 ≠ a.tag := by
        rw [hline]
        exact fun h => hnew (h ▸ List.mem_map_of_mem hmem)
      split
      next =>
        have hrest := ih (writeBackLine_wf s a hs) hr hnd hmem
        unfold standsIn at hrest
        rwa [devByte_writeBackLine_other hs ha hne] at hrest
      next => exact ih hs hr hnd hmem

end Lines

/-! ### The lines of a cluster that a test names -/

/-- Either the lines that `p` names are written back and clean, or all of them were clean. -/
theorem cleanLines_cases (s : State) (c : Nat) (p : Nat → Bool) :
    s.cleanLines c p = (s.writeBackSome p (s.cache c)).setCache c ((s.cache c).map fun l => if p l.tag then { l with dirty := 0 } else l) ∨
    s.cleanLines c p = s ∧ ∀ l ∈ s.cache c, p l.tag = true → l.dirty = 0 := by
  unfold State.cleanLines
  dsimp only
  split
  next => exact .inl rfl
  next h =>
    refine .inr ⟨rfl, fun l hl hp => Decidable.byContradiction fun hd => h ?_⟩
    exact List.any_eq_true.2 ⟨l, hl, by simp [hp, hd]⟩

theorem onlyData_cleanLines (s : State) (c : Nat) (p : Nat → Bool) : s.OnlyData (s.cleanLines c p) := by
  rcases cleanLines_cases s c p with h | ⟨h, -⟩
  · rw [h]
    exact (onlyHbm_writeBackSome p _).setCache c _
  · rw [h]
    exact .refl s

theorem cache_cleanLines (s : State) (c : Nat) (p : Nat → Bool) (k : Nat) :
    (s.cleanLines c p).cache k = if k = c then (s.cache c).map (fun l => if p l.tag then { l with dirty := 0 } else l) else s.cache k := by
  rcases cleanLines_cases s c p with h | ⟨h, hclean⟩
  · rw [h]
    show aget [] (aset (s.writeBackSome p (s.cache c)).mem.caches c _) k = _
    rw [(onlyHbm_writeBackSome p _).caches, aget_aset]
    by_cases hk : k = c
    · subst hk
      simp
    · simp [hk, Ne.symm hk]
      rfl
  · rw [h]
    by_cases hk : k = c
    · subst hk
      rw [if_pos rfl]
      refine (List.map_id' _).symm.trans (List.map_congr_left fun l hl => ?_)
      split
      next hp =>
        rw [← hclean l hl hp]
      next => rfl
    · rw [if_neg hk]

/-- No line of an address is dirty in a cluster's cache. -/
def State.cleanAt (s : State) (c tag : Nat) : Prop := ∀ l ∈ s.cache c, l.tag = tag → l.dirty = 0

theorem cleanAt_cleanLines (s : State) (c : Nat) {p : Nat → Bool} {tag : Nat} (h : p tag = true) : (s.cleanLines c p).cleanAt c tag := by
  intro l hl ht
  rw [cache_cleanLines, if_pos rfl] at hl
  obtain ⟨a, -, rfl⟩ := List.mem_map.1 hl
  by_cases hp : p a.tag = true
  · rw [if_pos hp]
  · rw [if_neg hp] at ht
    exact absurd (ht ▸ h) hp

theorem State.cleanAt.cleanLines {s : State} {k tag : Nat} (h : s.cleanAt k tag) (c : Nat) (p : Nat → Bool) :
    (s.cleanLines c p).cleanAt k tag := by
  intro l hl ht
  rw [cache_cleanLines] at hl
  by_cases hk : k = c
  · subst hk
    rw [if_pos rfl] at hl
    obtain ⟨a, ha, rfl⟩ := List.mem_map.1 hl
    by_cases hp : p a.tag = true
    · rw [if_pos hp]
    · rw [if_neg hp] at ht ⊢
      exact h a ha ht
  · rw [if_neg hk] at hl
    exact h l hl ht

/-! ### A range to the array (R48) -/

/-- The lines that a range of bytes touches. -/
def rangeLines (pa n tag : Nat) : Bool := decide (pa / 64 * 64 ≤ tag * 64) && decide (tag * 64 < (pa + n + 63) / 64 * 64)

theorem rangeLines_iff {pa n tag : Nat} (hn : 0 < n) : rangeLines pa n tag = true ↔ pa / 64 ≤ tag ∧ tag ≤ (pa + n - 1) / 64 := by
  simp only [rangeLines, Bool.and_eq_true, decide_eq_true_eq]
  omega

theorem Mem.sound.cache {s : State} (hs : s.mem.sound) (c : Nat) :
    ((s.cache c).map Line.tag).Nodup ∧ ∀ l ∈ s.cache c, l.bytes.length = 64 := by
  rcases aget_mem_or [] s.mem.caches c with h | h
  · exact (hs.2 _ h).2
  · have hnil : s.cache c = [] := h
    rw [hnil]
    exact ⟨List.nodup_nil, fun l hl => absurd hl List.not_mem_nil⟩

section Clean

variable {s : State} (hs : s.mem.sound) (c : Nat)
include hs

theorem devByte_cleanLines_other {p : Nat → Bool} {x : Nat} (h : ¬ p (x / 64) = true) (k : Nat) :
    (s.cleanLines c p).devByte k x = s.devByte k x := by
  rcases cleanLines_cases s c p with he | ⟨he, -⟩
  · rw [he]
    exact devByte_writeBackSome_other hs.1 (hs.cache c).2 (fun l _ hp hx => h (hx ▸ hp)) k
  · rw [he]

theorem standsIn_cleanLines {p : Nat → Bool} {l : Line} (hl : l ∈ s.cache c) (hp : p l.tag = true) {i : Nat} (hi : i < 64)
    (hd : l.dirtyAt i ≠ 0) : standsIn (s.cleanLines c p) s l i := by
  rcases cleanLines_cases s c p with he | ⟨-, hclean⟩
  · rw [he]
    exact standsIn_writeBackSome hs.1 (hs.cache c).2 (hs.cache c).1 hl hp hi hd
  · exact absurd (by simp [Line.dirtyAt, hclean l hl hp]) hd

end Clean

/-- What stands where after a range is written to the array (R48). -/
theorem writeToArray_spec {s : State} (c pa : Nat) {n : Nat} (hs : s.mem.sound) (hn : 0 < n) (x : Nat) :
    (pa / 64 ≤ x / 64 → x / 64 ≤ (pa + n - 1) / 64 →
      cellRead (s.writeToArray c pa n).mem.array x = cellRead (s.writeToArray c pa n).mem.hbm x ∧
      x / 64 ∉ (s.writeToArray c pa n).mem.msc ∧
      (s.writeToArray c pa n).cleanAt c (x / 64) ∧
      ∀ l ∈ s.cache c, l.tag = x / 64 → l.dirtyAt (x % 64) ≠ 0 → standsIn (s.writeToArray c pa n) s l (x % 64)) ∧
    ((x / 64 < pa / 64 ∨ (pa + n - 1) / 64 < x / 64) → ∀ k, (s.writeToArray c pa n).devByte k x = s.devByte k x) := by
  obtain ⟨hhbm, harray, -⟩ := (Mem.wf_iff _).1 (cleanLines_wf s c (rangeLines pa n) hs.1)
  refine ⟨fun hlo hhi => ?_, fun hout k => ?_⟩
  · have hin : rangeLines pa n (x / 64) = true := (rangeLines_iff hn).2 ⟨hlo, hhi⟩
    refine ⟨cellRead_cellsCopy hhbm harray (by omega) (by omega), fun hmem => ?_, cleanAt_cleanLines s c hin, fun l hl ht hd => ?_⟩
    · obtain ⟨-, hkept⟩ := List.mem_filter.1 hmem
      rw [Bool.not_eq_true'] at hkept
      exact Bool.false_ne_true (hkept.symm.trans hin)
    · exact standsIn_cleanLines hs c hl (ht ▸ hin) (Nat.mod_lt _ (by decide)) hd
  · refine devByte_cleanLines_other hs c (fun hin => ?_) k
    have := (rangeLines_iff hn).1 hin
    omega

theorem onlyData_writeToArray (s : State) (c pa n : Nat) : s.OnlyData (s.writeToArray c pa n) :=
  (onlyData_cleanLines s c (rangeLines pa n)).trans ⟨_, _, _, _, _, _, rfl⟩

end Sys2Proof.Machine
end

section
/-!
TDINV, TDINVALL, TLBI and CACHEWB (R48, R60, R74, R75, R188, R312).
-/

namespace Sys2Proof.Machine

theorem bitsAt_zero (x w : Nat) : bitsAt x 0 w = x % 2 ^ w := by simp [bitsAt]

/-- The entries that a test keeps in each cache of a list. -/
theorem mem_listed_filter {α : Type} (m : List (Nat × List α)) (f : α → Bool) (k : Nat) (e : α) :
    (∃ l, (k, l) ∈ m.map (fun t => (t.1, t.2.filter f)) ∧ e ∈ l) ↔ (∃ l, (k, l) ∈ m ∧ e ∈ l) ∧ f e = true := by
  constructor
  · rintro ⟨l, hl, he⟩
    obtain ⟨⟨k', l'⟩, hmem, heq⟩ := List.mem_map.1 hl
    cases heq
    obtain ⟨he, hf⟩ := List.mem_filter.1 he
    exact ⟨⟨l', hmem, he⟩, hf⟩
  · rintro ⟨⟨l, hl, he⟩, hf⟩
    exact ⟨l.filter f, List.mem_map.2 ⟨(k, l), hl, rfl⟩, List.mem_filter.2 ⟨he, hf⟩⟩

/-! ### TDINV and TDINVALL -/

theorem State.OnlyMem.frame {s t : State} (h : s.OnlyMem t) : t.st = s.st ∧ t.fab = s.fab ∧ t.sys = s.sys ∧ t.bench = s.bench := by
  obtain ⟨m, rfl⟩ := h
  exact ⟨rfl, rfl, rfl, rfl⟩

theorem share_eq (s : State) (owner : Nat) : ∃ y, s.share owner = { s with sys := y } := by
  unfold State.share
  split
  · exact ⟨s.sys, rfl⟩
  · exact ⟨_, rfl⟩

theorem release_descs (s : State) (c : Nat) : (s.release c .dev).mem.descs = s.mem.descs := by
  obtain ⟨_, _, _, _, _, h⟩ := onlyHbm_foldl onlyHbm_writeBackLine (s.cache c) s
  have hdescs := congrArg (fun t : State => t.mem.descs) h
  exact hdescs

/-- What a release at device scope leaves alone. -/
theorem released_keeps (s : State) (c owner : Nat) :
    ((s.release c .dev).share owner).st = s.st ∧ ((s.release c .dev).share owner).fab = s.fab ∧
    ((s.release c .dev).share owner).bench = s.bench ∧ ((s.release c .dev).share owner).mem.descs = s.mem.descs := by
  obtain ⟨hst, hfab, -, hbench⟩ := (onlyMem_release s c .dev).frame
  obtain ⟨y, hy⟩ := share_eq (s.release c .dev) owner
  rw [hy]
  exact ⟨hst, hfab, hbench, release_descs s c⟩

theorem releaseAt_dev_waits {s : State} {c : Nat} (h : s.holdsDirty c = true) (owner : Nat) :
    releaseAt c owner .dev s = (.error .wait, s) := by
  have hhold : holdDirty c .dev s = (.error .wait, s) := by
    unfold holdDirty
    rw [bind_get, h]
    rfl
  exact bind_of_error hhold

theorem releaseAt_dev {s : State} {c : Nat} (h : s.holdsDirty c = false) (owner : Nat) :
    releaseAt c owner .dev s = (.ok (), (s.release c .dev).share owner) := by
  have hhold : holdDirty c .dev s = (.ok (), s) := by
    unfold holdDirty
    rw [bind_get, h]
    rfl
  exact bind_of_ok hhold

/-- A cached descriptor or table that an invalidation of `tid`, or of all, names. -/
def DescEntry.named (asid : Nat) (tid : Option Nat) (e : DescEntry) : Prop := e.asid = asid ∧ ∀ t ∈ tid, e.tid = t

theorem tdInvalidate_waits {s : State} (h : s.holdsDirty s.st.cluster = true) (tid : Option Nat) : tdInvalidate tid s = .next s :=
  runM_of_wait (bind_of_error (releaseAt_dev_waits h _))

theorem tdInvalidate_drops {s : State} (h : s.holdsDirty s.st.cluster = false) (tid : Option Nat) :
    tdInvalidate tid s = .next ((((s.release s.st.cluster .dev).share s.who.owner).dropDescs s.who.asid tid).adv) :=
  runM_of_ok (bind_of_ok (releaseAt_dev h _))

theorem dropDescs_listed (s : State) (asid : Nat) (tid : Option Nat) (k : Nat) (e : DescEntry) :
    (∃ l, (k, l) ∈ (s.dropDescs asid tid).mem.descs ∧ e ∈ l) ↔ (∃ l, (k, l) ∈ s.mem.descs ∧ e ∈ l) ∧ ¬ e.named asid tid := by
  refine (mem_listed_filter s.mem.descs _ k e).trans (and_congr_right fun _ => ?_)
  unfold DescEntry.named
  cases tid with
  | none => simp
  | some t => simp [imp_iff_not_or]

/-- What TDINV and TDINVALL come to. -/
theorem tdInvalidate_spec (s : State) (tid : Option Nat) :
    (s.holdsDirty s.st.cluster = true → tdInvalidate tid s = .next s) ∧
    (s.holdsDirty s.st.cluster = false → ∃ t, tdInvalidate tid s = .next t ∧ t.st = s.stepped.st ∧ t.fab = s.fab ∧
      t.sys = ((s.release s.st.cluster .dev).share s.who.owner).sys ∧ t.bench = s.bench ∧
      t.mem.hbm = ((s.release s.st.cluster .dev).share s.who.owner).mem.hbm ∧
      t.mem.caches = ((s.release s.st.cluster .dev).share s.who.owner).mem.caches ∧
      ∀ k e, (∃ l, (k, l) ∈ t.mem.descs ∧ e ∈ l) ↔
        (∃ l, (k, l) ∈ s.mem.descs ∧ e ∈ l) ∧ ¬ e.named (s.st.sr.context.toNat % 2 ^ 16) tid) := by
  obtain ⟨hst, hfab, hbench, hdescs⟩ := released_keeps s s.st.cluster s.who.owner
  have hasid : s.who.asid = s.st.sr.context.toNat % 2 ^ 16 := bitsAt_zero _ _
  refine ⟨fun h => tdInvalidate_waits h tid, fun h => ⟨_, tdInvalidate_drops h tid,
    congrArg (fun x : Strand => { x with pc := x.pc + 4 }) hst, hfab, rfl, hbench, rfl, rfl, fun k e => ?_⟩⟩
  rw [← hasid, ← hdescs]
  exact dropDescs_listed _ _ _ k e

theorem DescEntry.named_some (asid t : Nat) (e : DescEntry) : e.named asid (some t) ↔ e.asid = asid ∧ e.tid = t := by
  simp [DescEntry.named]

theorem DescEntry.named_none (asid : Nat) (e : DescEntry) : e.named asid none ↔ e.asid = asid := by simp [DescEntry.named]

section Tdinv

variable {s : State} {a : Reg} (hr : s.ready [a])
include hr

theorem execTdinv_faults (h : 2 ^ 12 ≤ (s.reg a).toNat) : execTdinv a s = .next (s.trapped 0x0F 0 (s.reg a)) := by
  have hbig : (s.reg a).toNat / 2 ^ 12 ≠ 0 := by omega
  refine (whenReady_of_ready hr _).trans ((if_pos hbig).trans ?_)
  rw [trapHere_eq_trapped]

theorem execTdinv_eq (h : (s.reg a).toNat < 2 ^ 12) : execTdinv a s = tdInvalidate (some (s.reg a).toNat) s := by
  have hsmall : ¬ (s.reg a).toNat / 2 ^ 12 ≠ 0 := by omega
  exact (whenReady_of_ready hr _).trans (if_neg hsmall)

end Tdinv

/-! ### TLBI -/

theorem covers_iff (asid : Nat) (a b : Word) (ea : Nat) (glob : Bool) (lo hi : Nat) :
    covers asid a b ea glob lo hi = true ↔
      if b.toNat = 0 then glob = false ∧ ea = asid
      else if b.toNat = 2 ^ 64 - 1 then True
      else (glob = true ∨ ea = asid) ∧ ∃ v, lo ≤ v ∧ v < hi ∧ a.toNat ≤ v ∧ v < a.toNat + b.toNat ∧ v < 2 ^ 64 := by
  have hzero : b = 0 ↔ b.toNat = 0 := by bv_omega
  have hall : b = BitVec.allOnes 64 ↔ b.toNat = 2 ^ 64 - 1 := by rw [← BitVec.toNat_inj, BitVec.toNat_allOnes]
  have hmeets : max lo a.toNat < min hi (min (a.toNat + b.toNat) (2 ^ 64)) ↔
      ∃ v, lo ≤ v ∧ v < hi ∧ a.toNat ≤ v ∧ v < a.toNat + b.toNat ∧ v < 2 ^ 64 :=
    ⟨fun h => ⟨max lo a.toNat, by omega⟩, fun ⟨v, h⟩ => by omega⟩
  unfold covers
  by_cases h0 : b.toNat = 0
  · rw [if_pos (hzero.2 h0), if_pos h0]
    simp
  · rw [if_neg (hzero.not.2 h0), if_neg h0]
    by_cases h1 : b.toNat = 2 ^ 64 - 1
    · rw [if_pos (hall.2 h1), if_pos h1]
      simp
    · rw [if_neg (hall.not.2 h1), if_neg h1, ← hmeets]
      simp

/-- What is reached at one step of a fold, and kept by every step, holds at its end. -/
theorem foldl_reaches {σ α : Type} (P : σ → Prop) {xs : List α} {x : α} (f : σ → α → σ) (hx : x ∈ xs) (hreach : ∀ s, P (f s x))
    (hkeep : ∀ s y, P s → P (f s y)) (s : σ) : P (xs.foldl f s) := by
  induction xs generalizing s with
  | nil => exact absurd hx List.not_mem_nil
  | cons y r ih =>
    rw [List.foldl_cons]
    rcases List.mem_cons.1 hx with rfl | hx
    · exact foldl_keeps P r f hkeep _ (hreach s)
    · exact ih hx _

theorem onlyData_foldl {α : Type} {f : State → α → State} (hf : ∀ (s : State) x, s.OnlyData (f s x)) (xs : List α) (s : State) :
    s.OnlyData (xs.foldl f s) :=
  foldl_keeps s.OnlyData xs f (fun t x h => h.trans (hf t x)) s (.refl s)

theorem onlyData_performLeaf (s : State) (c : Nat) (e : TlbEntry) : s.OnlyData (s.performLeaf c e) := by
  unfold State.performLeaf
  dsimp only
  split
  · exact .refl s
  · exact onlyData_cleanLines s c _

theorem State.cleanAt.performLeaf {s : State} {k tag : Nat} (h : s.cleanAt k tag) (c : Nat) (e : TlbEntry) :
    (s.performLeaf c e).cleanAt k tag := by
  unfold State.performLeaf
  dsimp only
  split
  · exact h
  · exact h.cleanLines c _

/-- A leaf of local HBM is performed: no line of its page stays dirty. -/
theorem cleanAt_performLeaf (s : State) (c : Nat) {e : TlbEntry} {tag : Nat} (hmt : lfMt e.leaf.toNat = 0)
    (hlo : lfFrame e.leaf.toNat * 2 ^ 16 ≤ tag * 64) (hhi : tag * 64 < lfFrame e.leaf.toNat * 2 ^ 16 + 2 ^ e.bits) :
    (s.performLeaf c e).cleanAt c tag := by
  unfold State.performLeaf
  dsimp only
  rw [if_neg (not_not.2 hmt)]
  exact cleanAt_cleanLines s c (by rw [Bool.and_eq_true, decide_eq_true_eq, decide_eq_true_eq]; exact ⟨hlo, hhi⟩)

/-- The write-backs of a shoot-down: for the entries of the translation caches, then for those that left them. -/
def State.performCovered (s : State) (asid : Nat) (a b : Word) : State :=
  s.mem.past.foldl (fun s p => if p.2.covered asid a b then s.performLeaf p.1 p.2 else s)
    (s.mem.tlbs.foldl (fun s t => t.2.foldl (fun s e => if e.covered asid a b then s.performLeaf (tlbCluster t.1) e else s) s) s)

theorem onlyData_performCovered (s : State) (asid : Nat) (a b : Word) : s.OnlyData (s.performCovered asid a b) := by
  have hstep : ∀ (s : State) (c : Nat) (e : TlbEntry), s.OnlyData (if e.covered asid a b then s.performLeaf c e else s) := by
    intro s c e
    split
    · exact onlyData_performLeaf s c e
    · exact .refl s
  exact (onlyData_foldl (fun s (t : Nat × List TlbEntry) => onlyData_foldl (fun s e => hstep s _ e) t.2 s) _ s).trans
    (onlyData_foldl (fun s (p : Nat × TlbEntry) => hstep s _ _) _ _)

theorem cleanAt_performCovered {s : State} {asid : Nat} {a b : Word} {p : Nat × TlbEntry} (hp : p ∈ s.mem.past)
    (hc : p.2.covered asid a b = true) (hmt : lfMt p.2.leaf.toNat = 0) {tag : Nat}
    (hlo : lfFrame p.2.leaf.toNat * 2 ^ 16 ≤ tag * 64) (hhi : tag * 64 < lfFrame p.2.leaf.toNat * 2 ^ 16 + 2 ^ p.2.bits) :
    (s.performCovered asid a b).cleanAt p.1 tag := by
  refine foldl_reaches (fun t : State => t.cleanAt p.1 tag) _ hp (fun t => ?_) (fun t q ht => ?_) _
  · rw [if_pos hc]
    exact cleanAt_performLeaf t p.1 hmt hlo hhi
  · split
    · exact ht.performLeaf q.1 q.2
    · exact ht

theorem execTlbi_waits {s : State} {a b : Reg} (hs : s.st.mode = .s) (hr : s.ready [a, b])
    (h : ∃ c ∈ s.mem.caches, s.holdsDirty c.1 = true) : execTlbi a b s = .next s :=
  (privileged_of_supervisor hs _ _).trans ((whenReady_of_ready hr _).trans (if_pos (List.any_eq_true.2 h)))

theorem execTlbi_shoots {s : State} {a b : Reg} (hs : s.st.mode = .s) (hr : s.ready [a, b])
    (h : ¬ ∃ c ∈ s.mem.caches, s.holdsDirty c.1 = true) :
    execTlbi a b s = .next (s.shootdown (s.st.sr.context.toNat % 2 ^ 16) (s.reg a) (s.reg b)).adv := by
  rw [← bitsAt_zero]
  exact (privileged_of_supervisor hs _ _).trans ((whenReady_of_ready hr _).trans (if_neg fun hany => h (List.any_eq_true.1 hany)))

theorem pointer_covered_iff (asid : Nat) (a b : Word) (e : WalkEntry) : e.covered asid a b = true ↔
    if b.toNat = 0 then e.asid = asid else if b.toNat = 2 ^ 64 - 1 then True
    else ∃ v, e.page * 2 ^ e.bits ≤ v ∧ v < (e.page + 1) * 2 ^ e.bits ∧ a.toNat ≤ v ∧ v < a.toNat + b.toNat ∧ v < 2 ^ 64 := by
  refine (covers_iff ..).trans ?_
  by_cases h0 : b.toNat = 0
  · obtain rfl : b = 0 := BitVec.eq_of_toNat_eq h0
    simp
  · have hne : (b != 0) = true := bne_iff_ne.2 fun h => h0 (h ▸ rfl)
    rw [hne]
    simp [h0]

theorem shootdown_spec (s : State) (asid : Nat) (a b : Word) :
    s.OnlyMem (s.shootdown asid a b) ∧ (s.shootdown asid a b).mem.win = s.mem.win ∧
    (s.shootdown asid a b).mem.past = s.mem.past.filter (fun p => !p.2.covered asid a b) ∧
    (s.shootdown asid a b).mem.walks = s.mem.walks.map (fun t => (t.1, t.2.filter fun e => !e.covered asid a b)) ∧
    (s.shootdown asid a b).mem.tlbs = s.mem.tlbs.map (fun t => (t.1, t.2.filter fun e => !e.covered asid a b)) ∧
    ∀ k, (s.shootdown asid a b).cache k = (s.performCovered asid a b).cache k := by
  have hdef : s.shootdown asid a b = (s.performCovered asid a b).modMem fun m => { m with
    tlbs := m.tlbs.map fun t => (t.1, t.2.filter fun e => !e.covered asid a b)
    past := m.past.filter fun p => !p.2.covered asid a b
    walks := m.walks.map fun t => (t.1, t.2.filter fun e => !e.covered asid a b) } := rfl
  obtain ⟨_, _, _, _, _, _, h⟩ := onlyData_performCovered s asid a b
  rw [hdef, h]
  exact ⟨⟨_, rfl⟩, rfl, rfl, rfl, rfl, fun k => rfl⟩

/-! ### The pages of CACHEWB -/

/-- One page of local HBM, of a peer, or of neither, and the pages after it. -/
def writeBackPage (w : Who) (lo hi k bits leaf : Nat) : M Unit := do
  let pa := leafPa bits leaf (BitVec.ofNat 64 lo)
  let stop := min hi ((lo / 2 ^ 16 + 1) * 2 ^ 16)
  if lfMt leaf = 0 then do
    holdIfStalled pa
    modify fun s => s.writeToArray w.cluster pa (stop - lo)
  else if lfMt leaf = 2 then askPeer w (lfPeer leaf) pa (stop - lo)
  else pure ()
  writeBackPages w stop hi k

section Pages

variable {w : Who} {lo hi : Nat} (hlt : lo < hi) (k : Nat) {s : State}
include hlt

theorem writeBackPages_window (hw : isWindow (BitVec.ofNat 64 lo) = true) :
    writeBackPages w lo hi (k + 1) = writeBackPages w ((Config.winBase + 1) * 2 ^ 29) hi k :=
  (if_neg (Nat.not_le.2 hlt)).trans (if_pos hw)

theorem writeBackPages_noncanonical (hw : ¬ isWindow (BitVec.ofNat 64 lo) = true) (hc : canonical (BitVec.ofNat 64 lo) = false) :
    writeBackPages w lo hi (k + 1) s = (.error (.trap 0x1D 0 (BitVec.ofNat 64 lo)), s) := by
  unfold writeBackPages
  dsimp only
  rw [if_neg (Nat.not_le.2 hlt), if_neg hw]
  exact guard_stops (by rw [hc]; rfl) _ _ rfl

theorem writeBackPages_page (hw : ¬ isWindow (BitVec.ofNat 64 lo) = true) (hc : canonical (BitVec.ofNat 64 lo) = true) :
    writeBackPages w lo hi (k + 1) =
      (leafOf w .load (BitVec.ofNat 64 lo) >>= fun p => writeBackPage w lo hi k p.1 p.2) := by
  refine (if_neg (Nat.not_le.2 hlt)).trans ((if_neg hw).trans ?_)
  exact if_neg (by rw [hc]; decide)

theorem writeBackPages_of_leaf {bits leaf : Nat} {t : State} (hw : ¬ isWindow (BitVec.ofNat 64 lo) = true)
    (hc : canonical (BitVec.ofNat 64 lo) = true) (hl : leafOf w .load (BitVec.ofNat 64 lo) s = (.ok (bits, leaf), t)) :
    writeBackPages w lo hi (k + 1) s = writeBackPage w lo hi k bits leaf t := by
  rw [writeBackPages_page hlt k hw hc]
  exact bind_of_ok hl

theorem writeBackPages_of_error {e : Stop} {t : State} (hw : ¬ isWindow (BitVec.ofNat 64 lo) = true)
    (hc : canonical (BitVec.ofNat 64 lo) = true) (hl : leafOf w .load (BitVec.ofNat 64 lo) s = (.error e, t)) :
    writeBackPages w lo hi (k + 1) s = (.error e, t) := by
  rw [writeBackPages_page hlt k hw hc]
  exact bind_of_error hl

end Pages

theorem isWindow_iff {lo : Nat} (hlo : lo < 2 ^ 64) : isWindow (BitVec.ofNat 64 lo) = true ↔ inClusterWindow lo := by
  unfold isWindow inClusterWindow
  rw [beq_iff_eq, BitVec.toNat_ofNat, Nat.mod_eq_of_lt hlo]
  rfl

section Page

variable {w : Who} {lo hi k bits leaf : Nat} {t : State}

theorem holdIfStalled_waits {pa : Nat} (h : t.isStalled pa = true) : holdIfStalled pa t = (.error .wait, t) := by
  unfold holdIfStalled
  rw [bind_get, if_pos h]
  rfl

theorem holdIfStalled_goes {pa : Nat} (h : t.isStalled pa = false) : holdIfStalled pa t = (.ok (), t) := by
  unfold holdIfStalled
  rw [bind_get, if_neg (by simp [h])]
  rfl

/-- Where the page of `lo` ends, or the range. -/
def pageStop (lo hi : Nat) : Nat := min hi ((lo / 2 ^ 16 + 1) * 2 ^ 16)

theorem writeBackPage_stalled (hmt : lfMt leaf = 0) (h : t.isStalled (leafPa bits leaf (BitVec.ofNat 64 lo)) = true) :
    writeBackPage w lo hi k bits leaf t = (.error .wait, t) := by
  unfold writeBackPage
  dsimp only
  rw [if_pos hmt]
  exact bind_of_error (holdIfStalled_waits h)

theorem writeBackPage_local (hmt : lfMt leaf = 0) (h : t.isStalled (leafPa bits leaf (BitVec.ofNat 64 lo)) = false) :
    writeBackPage w lo hi k bits leaf t = writeBackPages w (pageStop lo hi) hi k
      (t.writeToArray w.cluster (leafPa bits leaf (BitVec.ofNat 64 lo)) (pageStop lo hi - lo)) := by
  unfold writeBackPage
  dsimp only
  rw [if_pos hmt]
  exact bind_of_ok (holdIfStalled_goes h)

theorem writeBackPage_peer (hmt : lfMt leaf = 2) {u : State}
    (h : askPeer w (lfPeer leaf) (leafPa bits leaf (BitVec.ofNat 64 lo)) (pageStop lo hi - lo) t = (.ok (), u)) :
    writeBackPage w lo hi k bits leaf t = writeBackPages w (pageStop lo hi) hi k u := by
  unfold writeBackPage
  dsimp only
  rw [if_neg (by omega), if_pos hmt]
  exact bind_of_ok h

theorem writeBackPage_host (hmt : lfMt leaf = 1) :
    writeBackPage w lo hi k bits leaf t = writeBackPages w (pageStop lo hi) hi k t := by
  unfold writeBackPage
  dsimp only
  rw [if_neg (by omega), if_neg (by omega)]
  rfl

end Page

/-! ### CACHEWB -/

theorem askPeer_asked {w : Who} {d pa n : Nat} {s : State} (h : ∃ k ∈ s.st.asks, k.peer = d ∧ k.pa = pa ∧ k.len = n) :
    askPeer w d pa n s = (.ok (), s) := by
  obtain ⟨k, hk, rfl, rfl, rfl⟩ := h
  unfold askPeer
  rw [bind_get, if_pos (List.any_eq_true.2 ⟨k, hk, by simp⟩)]
  rfl

theorem askPeer_asks {w : Who} {d pa n : Nat} {s : State} (h : ∀ k ∈ s.st.asks, ¬ (k.peer = d ∧ k.pa = pa ∧ k.len = n))
    (hp : peerFails d s = (.ok false, s)) :
    askPeer w d pa n s = (.ok (), { s with
      st := { s.st with asks := s.st.asks ++ [⟨d, pa, n, false⟩] }
      sys := { s.sys with outbox := s.sys.outbox ++ [.peerWriteBack d pa n] } }) := by
  have hnew : ¬ (s.st.asks.any fun k => k.peer == d && k.pa == pa && k.len == n) = true := by
    rw [List.any_eq_true]
    rintro ⟨k, hk, hsame⟩
    simp only [Bool.and_eq_true, beq_iff_eq] at hsame
    exact h k hk ⟨hsame.1.1, hsame.1.2, hsame.2⟩
  unfold askPeer
  rw [bind_get, if_neg hnew]
  exact bind_of_ok hp

/-- The pages of the range of a CACHEWB. -/
def State.writeBackRange (s : State) (a b : Reg) : M Unit :=
  let lo := (s.reg a).toNat
  let hi := min (lo + (s.reg b).toNat) (2 ^ 64)
  writeBackPages s.who lo hi (hi / 2 ^ 16 - lo / 2 ^ 16 + 2)

/-- What follows the pages: the wait for the peers that were asked. -/
def awaitPeers : M Unit := do
  if (← get).st.asks.any fun k => !k.acked then waitHere
  modify fun s => (s.modAsks fun _ => []).adv

section Cachewb

variable {s t : State} {a b : Reg} (hr : s.ready [a, b])
include hr

theorem execCachewb_waits (h : s.passesInFlight = true) : execCachewb a b s = .next s :=
  (whenReady_of_ready hr _).trans (runM_of_wait (guard_stops h _ _ rfl))

theorem execCachewb_eq (h : s.passesInFlight = false) :
    execCachewb a b s = runM (s.writeBackRange a b >>= fun _ => awaitPeers) s := by
  refine (whenReady_of_ready hr _).trans ?_
  rw [if_neg (by simp [h])]
  rfl

theorem execCachewb_of_wait (h : s.passesInFlight = false) (hp : s.writeBackRange a b s = (.error .wait, t)) :
    execCachewb a b s = .next t :=
  (execCachewb_eq hr h).trans (runM_of_wait (bind_of_error hp))

theorem execCachewb_of_trap (h : s.passesInFlight = false) {c e : Nat} {v : Word}
    (hp : s.writeBackRange a b s = (.error (.trap c e v), t)) : execCachewb a b s = .next ((t.at s.st.pc).trapped c e v) :=
  (execCachewb_eq hr h).trans (runM_of_trap (bind_of_error hp))

theorem execCachewb_of_pages (h : s.passesInFlight = false) (hp : s.writeBackRange a b s = (.ok (), t)) :
    execCachewb a b s = .next (if ∃ k ∈ t.st.asks, k.acked = false then t
      else ({ t with st := { t.st with asks := [] } } : State).stepped) := by
  rw [execCachewb_eq hr h]
  have hrest : (s.writeBackRange a b >>= fun _ => awaitPeers) s = awaitPeers t := bind_of_ok hp
  have hasks : (t.st.asks.any fun k => !k.acked) = true ↔ ∃ k ∈ t.st.asks, k.acked = false := by simp
  split
  next hw =>
    refine runM_of_wait (hrest.trans ?_)
    unfold awaitPeers
    rw [bind_get]
    exact guard_stops (hasks.2 hw) _ _ rfl
  next hn =>
    refine runM_of_ok (hrest.trans ?_)
    unfold awaitPeers
    rw [bind_get, if_neg (hasks.not.2 hn)]
    rfl

end Cachewb

/-- An empty range with nothing asked of a peer: CACHEWB goes on. -/
theorem execCachewb_empty {s : State} {a b : Reg} (hr : s.ready [a, b]) (h : s.passesInFlight = false) (hb : s.reg b = 0)
    (ha : s.st.asks = []) : execCachewb a b s = .next s.stepped := by
  have hlen : (s.reg b).toNat = 0 := by rw [hb]; rfl
  have hrange : s.writeBackRange a b s = (.ok (), s) := by
    unfold State.writeBackRange writeBackPages
    dsimp only
    rw [if_pos (by rw [hlen]; exact Nat.min_le_left _ _)]
    rfl
  have hnone : ¬ ∃ k ∈ s.st.asks, k.acked = false := by simp [ha]
  rw [execCachewb_of_pages hr h hrange, if_neg hnone, ← ha]

/-- What TLBI in mode S drops, and what it leaves. -/
theorem tlbi_spec {s : State} (asid : Nat) (a b : Word) :
    let t := (s.shootdown asid a b).adv
    t.st = s.stepped.st ∧ t.bench = s.bench ∧ t.fab = s.fab ∧ t.sys = s.sys ∧ t.mem.win = s.mem.win ∧
    (∀ p, p ∈ t.mem.past → ¬ p.2.covered asid a b = true) ∧
    (∀ p ∈ s.mem.past, p.2.covered asid a b = true → lfMt p.2.leaf.toNat = 0 → ∀ l ∈ t.cache p.1,
      lfFrame p.2.leaf.toNat * 2 ^ 16 ≤ l.tag * 64 → l.tag * 64 < lfFrame p.2.leaf.toNat * 2 ^ 16 + 2 ^ p.2.bits → l.dirty = 0) ∧
    (∀ k e, (∃ l, (k, l) ∈ t.mem.walks ∧ e ∈ l) ↔ (∃ l, (k, l) ∈ s.mem.walks ∧ e ∈ l) ∧ ¬ e.covered asid a b = true) ∧
    ∀ k e, (∃ l, (k, l) ∈ t.mem.tlbs ∧ e ∈ l) ↔ (∃ l, (k, l) ∈ s.mem.tlbs ∧ e ∈ l) ∧ ¬ e.covered asid a b = true := by
  obtain ⟨honly, hwin, hpast, hwalks, htlbs, hcache⟩ := shootdown_spec s asid a b
  obtain ⟨hst, hfab, hsys, hbench⟩ := honly.frame
  have hkept : ∀ c : Bool, (!c) = true ↔ ¬ c = true := by decide
  refine ⟨congrArg (fun x : Strand => { x with pc := x.pc + 4 }) hst, hbench, hfab, hsys, hwin, fun p hp => ?_,
    fun p hp hc hmt l hl hlo hhi => ?_, fun k e => ?_, fun k e => ?_⟩
  · have hp : p ∈ (s.shootdown asid a b).mem.past := hp
    rw [hpast] at hp
    exact (hkept _).1 (List.mem_filter.1 hp).2
  · have hl : l ∈ (s.shootdown asid a b).cache p.1 := hl
    rw [hcache] at hl
    exact cleanAt_performCovered hp hc hmt hlo hhi l hl rfl
  · show (∃ l, (k, l) ∈ (s.shootdown asid a b).mem.walks ∧ e ∈ l) ↔ _
    rw [hwalks, mem_listed_filter, hkept]
  · show (∃ l, (k, l) ∈ (s.shootdown asid a b).mem.tlbs ∧ e ∈ l) ↔ _
    rw [htlbs, mem_listed_filter, hkept]

/-- Settles O38: what each invalidation drops, and CACHEWB page by page. -/
theorem invalidationsAndWriteBack : Obligations.InvalidationsAndWriteBack := by
  refine ⟨fun s a => ⟨execTdinv_faults, fun hr hsmall => ?_, ?_⟩, fun s a b hs hr => ⟨execTlbi_waits hs hr, fun h => ?_⟩,
    fun s c pa n hs hn => ?_, fun s w lo hi k hlt hmax => ⟨fun hw => ?_, fun hw hc => ?_, fun hw hc r t hleaf => ⟨?_, ?_⟩⟩,
    fun s a b hr => ⟨execCachewb_waits hr, fun hp => ⟨execCachewb_empty hr hp, fun t => ⟨execCachewb_of_pages hr hp, ?_, ?_, ?_, ?_⟩⟩⟩⟩
  · have hspec := tdInvalidate_spec s (some (s.reg a).toNat)
    simp only [DescEntry.named_some] at hspec
    rw [← execTdinv_eq hr hsmall] at hspec
    exact hspec
  · have hspec := tdInvalidate_spec s none
    simp only [DescEntry.named_none] at hspec
    exact hspec
  · have hspec := tlbi_spec (s := s) (s.st.sr.context.toNat % 2 ^ 16) (s.reg a) (s.reg b)
    simp only [pointer_covered_iff, TlbEntry.covered, covers_iff] at hspec
    exact ⟨_, execTlbi_shoots hs hr h, hspec⟩
  · obtain ⟨hst, hfab, hsys, hbench, hwin⟩ := (onlyData_writeToArray s c pa n).frame
    exact ⟨hst, hfab, hsys, hbench, hwin, fun x => writeToArray_spec c pa hs hn x⟩
  · have hbase : lo / 2 ^ 29 = Config.winBase := hw
    rw [hbase, writeBackPages_window hlt k ((isWindow_iff (by omega)).2 hw)]
  · exact writeBackPages_noncanonical hlt k ((isWindow_iff (by omega)).not.2 hw) hc
  · rintro e rfl
    exact writeBackPages_of_error hlt k ((isWindow_iff (by omega)).not.2 hw) hc hleaf
  · rintro bits leaf rfl
    have hgo := writeBackPages_of_leaf hlt k ((isWindow_iff (by omega)).not.2 hw) hc hleaf
    exact ⟨fun hmt h => hgo.trans (writeBackPage_local hmt h), fun hmt h => hgo.trans (writeBackPage_stalled hmt h),
      fun hmt u h => hgo.trans (writeBackPage_peer hmt h), fun hmt => hgo.trans (writeBackPage_host hmt)⟩
  · exact execCachewb_of_wait hr hp
  · exact fun d pa n => askPeer_asked
  · exact fun d pa n => askPeer_asks
  · exact fun c e v => execCachewb_of_trap hr hp

end Sys2Proof.Machine
end

section
/-!
Translation (R62 to R67, R316, R318): the checks of a leaf as the rules state them, and where a translated page lies.
-/

namespace Sys2Proof.Machine

/-! ### Fields of a leaf and of an address -/

theorem bitAt_iff (x i : Nat) : bitAt x i = true ↔ entryBit x i := beq_iff_eq

theorem bitAt_eq_false (x i : Nat) : bitAt x i = false ↔ ¬ entryBit x i := by
  rw [← bitAt_iff, Bool.not_eq_true]

theorem xlCause_eq (a : Acc) : xlCause a = missCause a := by
  cases a <;> rfl

theorem writesMem_iff (a : Acc) : writesMem a = true ↔ a = .store ∨ a = .atomic := by
  cases a <;> simp [writesMem]

/-- The checks of R66 are those that the rule states. -/
theorem protects_iff_denied (w : Who) (a : Acc) (leaf : Nat) : protects w a leaf = true ↔ denied a leaf w.tenant w.user := by
  unfold denied protects lfBit lfTenant bitsAt
  simp only [← bitAt_iff]
  cases a <;> cases w.user <;> simp [imp_iff_not_or]

/-- Bits 63 to 55 equal bit 54 when the top ten bits are all clear or all set (R62). -/
theorem canonical_iff (va : Word) : canonical va = true ↔ ∀ i, 54 < i → i < 64 → va.getLsbD i = va.getLsbD 54 := by
  have htop : va.toNat / 2 ^ 54 = (va.extractLsb' 54 10).toNat := by
    rw [BitVec.extractLsb'_toNat, Nat.shiftRight_eq_div_pow]
    have := va.isLt
    omega
  have hbits : ∀ i, 54 < i → i < 64 → (va.getLsbD i = va.getLsbD 54 ↔
      (va.extractLsb' 54 10).getLsbD (i - 54) = (va.extractLsb' 54 10).getLsbD 0) := by
    intro i h1 h2
    simp [show i - 54 < 10 by omega, show 54 + (i - 54) = i by omega]
  have hten : ∀ x : BitVec 10, (x.toNat = 0 ∨ x.toNat = 2 ^ 10 - 1) ↔ ∀ j < 10, x.getLsbD j = x.getLsbD 0 := by decide +kernel
  unfold canonical
  rw [Bool.or_eq_true, beq_iff_eq, beq_iff_eq, htop, hten]
  constructor
  · intro h i h1 h2
    exact (hbits i h1 h2).2 (h _ (by omega))
  · intro h j hj
    rcases Nat.eq_zero_or_pos j with rfl | h0
    · rfl
    · simpa using (hbits (54 + j) (by omega) (by omega)).1 (h _ (by omega) (by omega))

/-! ### The checks on a leaf -/

section Checks

variable {w : Who} {a : Acc} {bits leaf : Nat} {va : Word} {s : State}

theorem checkLeaf_beyond (h : lfMt leaf = 0 ∧ leafPa bits leaf va ≥ s.capacity) :
    checkLeaf w a bits leaf va s = (.error (.trap (missCause a) 0 va), s) := by
  rw [← xlCause_eq]
  unfold checkLeaf
  rw [bind_get]
  exact guard_stops h _ _ rfl

theorem checkLeaf_denied (h : ¬ (lfMt leaf = 0 ∧ leafPa bits leaf va ≥ s.capacity)) (hd : denied a leaf w.tenant w.user) :
    checkLeaf w a bits leaf va s = (.error (.trap 7 0 va), s) := by
  unfold checkLeaf
  rw [bind_get, if_neg h]
  exact guard_stops ((protects_iff_denied w a leaf).2 hd) _ _ rfl

theorem checkLeaf_passes (h : ¬ (lfMt leaf = 0 ∧ leafPa bits leaf va ≥ s.capacity)) (hd : ¬ denied a leaf w.tenant w.user) :
    checkLeaf w a bits leaf va s = (.ok (), s) := by
  unfold checkLeaf
  rw [bind_get, if_neg h, if_neg ((protects_iff_denied w a leaf).not.2 hd)]
  rfl

end Checks

/-! ### From a leaf to a location -/

/-- Where the page of a leaf lies (R65), once the access need not wait. -/
def placeByLeaf (w : Who) (a : Acc) (va : Word) (bits leaf : Nat) : M Loc := do
  let pa := leafPa bits leaf va
  match lfMt leaf with
  | 0 => do
    holdIfStalled pa
    holdIfFull w.cluster
    pure (.hbm pa (lfTenant leaf))
  | 1 => do
    linkOpen w va
    let h ← atsPage w a va pa
    pure (.host h)
  | _ => pure (.peer (lfPeer leaf) pa)

section Leaf

variable {w : Who} {a : Acc} {va : Word} {n bits leaf : Nat} {s t : State} (hwin : isWindow va = false)
include hwin

theorem translate_noncanonical (hc : canonical va = false) : translate w a va n s = (.error (.trap 0x1D 0 va), s) := by
  refine bind_of_error ?_
  unfold translateFull
  rw [if_neg (by simp [hwin]), if_pos (by simp [hc])]
  rfl

variable (hc : canonical va = true)
include hc

theorem translate_of_leaf (hl : leafOf w a va s = (.ok (bits, leaf), t)) : translate w a va n s = placeByLeaf w a va bits leaf t := by
  unfold translate translateFull placeByLeaf
  rw [if_neg (by simp [hwin]), if_neg (by simp [hc]), bind_assoc, bind_of_ok hl]
  dsimp only
  generalize lfMt leaf = mt
  rcases mt with _ | _ | _ <;> simp only [bind_assoc, pure_bind]

theorem translate_of_leafError {e : Stop} (hl : leafOf w a va s = (.error e, t)) : translate w a va n s = (.error e, t) := by
  refine bind_of_error ?_
  unfold translateFull
  rw [if_neg (by simp [hwin]), if_neg (by simp [hc])]
  exact bind_of_error hl

end Leaf

section Place

variable {w : Who} {a : Acc} {va : Word} {bits leaf : Nat} {s : State}

theorem placeByLeaf_local (hmt : lfMt leaf = 0) (hst : s.fab.stalled = none) :
    placeByLeaf w a va bits leaf s = (.ok (.hbm (leafPa bits leaf va) (lfTenant leaf)), s) := by
  have hfull : holdIfFull w.cluster s = (.ok (), s) := by
    unfold holdIfFull
    rw [bind_get, if_neg (by simp [hst])]
    rfl
  unfold placeByLeaf
  rw [hmt]
  exact (bind_of_ok (holdIfStalled_goes (by simp [State.isStalled, hst]))).trans (bind_of_ok hfull)

theorem placeByLeaf_peer (hmt : lfMt leaf = 2) :
    placeByLeaf w a va bits leaf s = (.ok (.peer (lfPeer leaf) (leafPa bits leaf va)), s) := by
  unfold placeByLeaf
  rw [hmt]
  rfl

variable (hmt : lfMt leaf = 1)
include hmt

theorem placeByLeaf_linkStopped {e : Stop} (h : linkOpen w va s = (.error e, s)) : placeByLeaf w a va bits leaf s = (.error e, s) := by
  unfold placeByLeaf
  rw [hmt]
  exact bind_of_error h

theorem placeByLeaf_host (h : linkOpen w va s = (.ok (), s)) :
    placeByLeaf w a va bits leaf s = (atsPage w a va (leafPa bits leaf va) >>= fun p => pure (.host p)) s := by
  unfold placeByLeaf
  rw [hmt]
  exact bind_of_ok h

end Place

/-! ### Host pages (R316, R318) -/

section Host

variable {w : Who} {a : Acc} {va : Word} {pa : Nat} {s : State} {c : Ctx} (hctx : s.ctx? w.ctx = some c)
include hctx

theorem linkOpen_waits (hl : c.hfn ∈ s.host.insecure) (ho : w.owner ≠ 0) : linkOpen w va s = (.error .wait, s) := by
  unfold linkOpen
  rw [bind_get, hctx]
  dsimp only
  rw [if_pos (by simpa using hl), if_neg ho]
  rfl

theorem linkOpen_goes (hl : c.hfn ∉ s.host.insecure) : linkOpen w va s = (.ok (), s) := by
  unfold linkOpen
  rw [bind_get, hctx]
  dsimp only
  rw [if_neg (by simpa using hl)]
  rfl

theorem atsPage_untranslated (h : c.ats = false) : atsPage w a va pa s = (.ok pa, s) := by
  unfold atsPage
  rw [bind_get, hctx]
  dsimp only
  rw [if_pos (by simp [h])]
  rfl

variable (hats : c.ats = true)
include hats

theorem atsPage_held {e : Nat × Nat × Nat} (h : (s.mem.atc.find? fun e => e.1 = w.asid ∧ e.2.1 = pa / 2 ^ 12) = some e) :
    atsPage w a va pa s = (.ok (e.2.2 * 2 ^ 12 + pa % 2 ^ 12), s) := by
  unfold atsPage
  simp only [bind_get, hctx, hats, Bool.not_true, Bool.false_eq_true, if_false, h]
  rfl

variable (hmiss : (s.mem.atc.find? fun e => e.1 = w.asid ∧ e.2.1 = pa / 2 ^ 12) = none)
include hmiss

theorem atsPage_asks (h : (s.sys.pri.find? fun p => p.asid = w.asid ∧ p.page = pa / 2 ^ 12) = none) :
    atsPage w a va pa s = (.error .wait, { s with sys := { s.sys with
      pri := s.sys.pri ++ [⟨w.ctx, w.asid, pa / 2 ^ 12, none⟩]
      outbox := s.sys.outbox ++ [.pageRequest c.hfn w.asid (pa / 2 ^ 12)] } }) := by
  unfold atsPage
  simp only [bind_get, hctx, hats, Bool.not_true, Bool.false_eq_true, if_false, hmiss, h]
  rfl

variable {p : Pri} (h : (s.sys.pri.find? fun p => p.asid = w.asid ∧ p.page = pa / 2 ^ 12) = some p)
include h

theorem atsPage_unanswered (hp : p.answer = none) : atsPage w a va pa s = (.error .wait, s) := by
  unfold atsPage
  simp only [bind_get, hctx, hats, Bool.not_true, Bool.false_eq_true, if_false, hmiss, h, hp]
  rfl

/-- The requests that are left once an access has taken the answer of one. -/
def State.tookAnswer (s : State) (p : Pri) : State := { s with sys := { s.sys with pri := s.sys.pri.filter fun q => q ≠ p } }

theorem atsPage_refused (hp : p.answer = some none) :
    atsPage w a va pa s = (.error (.trap (missCause a) 0 va), s.tookAnswer p) := by
  rw [← xlCause_eq]
  unfold atsPage
  simp only [bind_get, hctx, hats, Bool.not_true, Bool.false_eq_true, if_false, hmiss, h, hp]
  rfl

theorem atsPage_answered {f : Nat} (hp : p.answer = some (some f)) :
    atsPage w a va pa s = (.ok (f * 2 ^ 12 + pa % 2 ^ 12),
      { s.tookAnswer p with mem := { s.mem with atc := ((w.asid, pa / 2 ^ 12, f) :: s.mem.atc).take 4096 } }) := by
  unfold atsPage
  simp only [bind_get, hctx, hats, Bool.not_true, Bool.false_eq_true, if_false, hmiss, h, hp]
  rfl

end Host

/-! ### A leaf that the translation cache holds -/

section Cached

variable {w : Who} {a : Acc} {va : Word} {e : TlbEntry} {s : State}
  (hfind : ((aget [] s.mem.tlbs w.tlb).find? fun e => (e.asid = w.asid ∨ e.glob) ∧ e.page = va.toNat / 2 ^ e.bits) = some e)
  (hd : (a = .store ∨ a = .atomic) → entryBit e.leaf.toNat 8)
include hfind hd

theorem leafOf_cached : leafOf w a va s = (checkLeaf w a e.bits e.leaf.toNat va >>= fun _ => pure (e.bits, e.leaf.toNat)) s := by
  have hmod : va.toNat % 2 ^ 64 = va.toNat := Nat.mod_eq_of_lt va.isLt
  have hdirty : ¬ (writesMem a && !lfBit e.leaf.toNat 8) = true := by
    rw [Bool.and_eq_true, writesMem_iff]
    rintro ⟨hw, hclean⟩
    have := (bitAt_iff _ _).2 (hd hw)
    simp [lfBit, this] at hclean
  unfold leafOf
  rw [bind_get]
  simp only [hmod]
  rw [hfind]
  dsimp only
  rw [if_neg hdirty]

theorem leafOf_cached_error {x : Stop} (h : checkLeaf w a e.bits e.leaf.toNat va s = (.error x, s)) :
    leafOf w a va s = (.error x, s) := by
  rw [leafOf_cached hfind hd]
  exact bind_of_error h

theorem leafOf_cached_ok (h : checkLeaf w a e.bits e.leaf.toNat va s = (.ok (), s)) :
    leafOf w a va s = (.ok (e.bits, e.leaf.toNat), s) := by
  rw [leafOf_cached hfind hd]
  exact bind_of_ok h

end Cached

/-- An address outside the window. -/
theorem isWindow_eq_false {va : Word} (h : va.toNat / 2 ^ 29 ≠ 0x7FFF0000000000 / 2 ^ 29) : isWindow va = false := by
  unfold isWindow
  exact beq_false_of_ne h

/-- Settles O8: the canonical check, then the checks on the leaf that is held, then the place by its memory type. -/
theorem cachedTranslation : Obligations.CachedTranslation := by
  intro s a va n hva w
  have hwin := isWindow_eq_false hva
  refine ⟨fun ⟨i, h1, h2, hne⟩ => translate_noncanonical hwin ?_, ?_⟩
  · rw [← Bool.not_eq_true, canonical_iff]
    exact fun h => hne (h i h1 h2)
  intro hbits e hfind leaf pa mt hd
  have hc := (canonical_iff va).2 hbits
  have hstop : ∀ {x}, checkLeaf w a e.bits leaf va s = (.error x, s) → translate w a va n s = (.error x, s) :=
    fun h => translate_of_leafError hwin hc (leafOf_cached_error hfind hd h)
  refine ⟨fun hmt hcap => hstop (checkLeaf_beyond ⟨hmt, hcap⟩), fun hin hden => hstop (checkLeaf_denied hin hden), fun hden => ?_⟩
  have hgo : ¬ (mt = 0 ∧ s.capacity ≤ pa) → translate w a va n s = placeByLeaf w a va e.bits leaf s :=
    fun hin => translate_of_leaf hwin hc (leafOf_cached_ok hfind hd (checkLeaf_passes hin hden))
  refine ⟨fun hmt hcap hst => (hgo (by omega)).trans (placeByLeaf_local hmt hst),
    fun hmt => (hgo (by omega)).trans (placeByLeaf_peer hmt), fun hmt c hctx => ?_⟩
  have hgo := hgo (by omega)
  refine ⟨fun hl hsid => hgo.trans (placeByLeaf_linkStopped hmt (linkOpen_waits hctx hl ?_)), fun hl hats => ?_, fun hl hats => ?_⟩
  · exact Nat.mul_ne_zero two_ne_zero hsid.ne'
  · exact (hgo.trans (placeByLeaf_host hmt (linkOpen_goes hctx hl))).trans (bind_of_ok (atsPage_untranslated hctx hats))
  intro page held asked left
  have hhost := hgo.trans (placeByLeaf_host hmt (linkOpen_goes hctx hl))
  refine ⟨fun x hx => hhost.trans (bind_of_ok (atsPage_held hctx hats hx)), fun hmiss => ⟨fun hnew => ?_, fun p hp => ⟨?_, ?_, ?_⟩⟩⟩
  · exact hhost.trans (bind_of_error (atsPage_asks hctx hats hmiss hnew))
  · exact fun ha => hhost.trans (bind_of_error (atsPage_unanswered hctx hats hmiss hp ha))
  · exact fun ha => hhost.trans (bind_of_error (atsPage_refused hctx hats hmiss hp ha))
  · exact fun f ha => hhost.trans (bind_of_ok (atsPage_answered hctx hats hmiss hp ha))

end Sys2Proof.Machine
end

section
/-!
A walk of the page table (R63, R64, R67, R69): one level, the whole walk, and the bits A and D that it sets in its leaf.
-/

namespace Sys2Proof.Machine

/-! ### One bit more in a number -/

/-- A bit that is clear, once set, leaves every field above it. -/
theorem add_pow_div {x k : Nat} (h : ¬ entryBit x k) {lo : Nat} (hlo : k < lo) : (x + 2 ^ k) / 2 ^ lo = x / 2 ^ lo := by
  unfold entryBit at h
  have hsplit : 2 ^ lo = 2 ^ k * 2 * 2 ^ (lo - k - 1) := by
    rw [← Nat.pow_succ, ← Nat.pow_add]
    congr 1
    omega
  rw [hsplit, ← Nat.div_div_eq_div_mul, ← Nat.div_div_eq_div_mul, Nat.add_div_right _ (Nat.two_pow_pos k),
    ← Nat.div_div_eq_div_mul, ← Nat.div_div_eq_div_mul]
  congr 1
  omega

theorem entryBit_add_pow {x k : Nat} (h : ¬ entryBit x k) (i : Nat) : entryBit (x + 2 ^ k) i ↔ i = k ∨ entryBit x i := by
  rcases Nat.lt_trichotomy i k with hi | rfl | hi
  · have hsplit : 2 ^ k = 2 ^ i * (2 * 2 ^ (k - i - 1)) := by
      rw [← Nat.mul_assoc, ← Nat.pow_succ, ← Nat.pow_add]
      congr 1
      omega
    have hne : i ≠ k := hi.ne
    unfold entryBit
    rw [hsplit, Nat.add_mul_div_left _ _ (Nat.two_pow_pos i), Nat.add_mul_mod_self_left]
    simp [hne]
  · unfold entryBit at h ⊢
    rw [Nat.add_div_right _ (Nat.two_pow_pos i)]
    simp only [true_or, iff_true]
    omega
  · have hne : i ≠ k := hi.ne'
    unfold entryBit
    rw [add_pow_div h hi]
    simp [hne]

/-- A number with a bit set. -/
def withBit (x k : Nat) : Nat := if lfBit x k then x else x + 2 ^ k

theorem entryBit_withBit (x k i : Nat) : entryBit (withBit x k) i ↔ i = k ∨ entryBit x i := by
  unfold withBit
  split
  next h =>
    have hk : entryBit x k := (bitAt_iff x k).1 h
    exact ⟨.inr, fun hi => hi.elim (fun e => e ▸ hk) id⟩
  next h => exact entryBit_add_pow ((bitAt_iff x k).not.1 h) i

theorem withBit_div (x : Nat) {k lo : Nat} (hlo : k < lo) : withBit x k / 2 ^ lo = x / 2 ^ lo := by
  unfold withBit
  split
  next => rfl
  next h => exact add_pow_div ((bitAt_iff x k).not.1 h) hlo

/-! ### The leaf after the access (R67) -/

/-- A leaf after an access of a kind: A is set, and D by a store or an atomic. -/
def usedLeaf (a : Acc) (e : Nat) : Nat := if writesMem a then withBit (withBit e 7) 8 else withBit e 7

/-- What `walkLeaf` adds to an entry sets these bits. -/
theorem add_need_eq (a : Acc) (e : Nat) :
    e + ((if lfBit e 7 then 0 else 2 ^ 7) + (if writesMem a && !lfBit e 8 then 2 ^ 8 else 0)) = usedLeaf a e := by
  have h8 : lfBit (withBit e 7) 8 = lfBit e 8 := by
    rw [Bool.eq_iff_iff]
    exact (bitAt_iff _ 8).trans ((entryBit_withBit e 7 8).trans ((or_iff_right (by decide)).trans (bitAt_iff e 8).symm))
  have h7 : e + (if lfBit e 7 then 0 else 2 ^ 7) = withBit e 7 := by
    unfold withBit
    split <;> rfl
  rw [← Nat.add_assoc, h7]
  unfold usedLeaf
  cases writesMem a with
  | false => rfl
  | true =>
    show _ = withBit (withBit e 7) 8
    unfold withBit
    rw [← withBit, h8]
    cases lfBit e 8 <;> rfl

theorem need_ne_zero_iff (a : Acc) (e : Nat) :
    (if lfBit e 7 then 0 else 2 ^ 7) + (if writesMem a && !lfBit e 8 then 2 ^ 8 else 0) ≠ 0 ↔ usedLeaf a e ≠ e := by
  have := add_need_eq a e
  omega

theorem entryBit_usedLeaf (a : Acc) (e i : Nat) :
    entryBit (usedLeaf a e) i ↔ i = 7 ∨ (i = 8 ∧ writesMem a = true) ∨ entryBit e i := by
  unfold usedLeaf
  cases writesMem a with
  | false => simp [entryBit_withBit]
  | true => simp [entryBit_withBit, or_left_comm]

/-- No field above bit 8 changes. -/
theorem usedLeaf_div (a : Acc) (e : Nat) {lo : Nat} (h : 8 < lo) : usedLeaf a e / 2 ^ lo = e / 2 ^ lo := by
  have h7 := withBit_div e (k := 7) (lo := lo) (by omega)
  unfold usedLeaf
  split
  next => rw [withBit_div _ h, h7]
  next => exact h7

theorem usedLeaf_lt (a : Acc) {e : Nat} (h : e < 2 ^ 64) : usedLeaf a e < 2 ^ 64 := by
  have := usedLeaf_div a e (lo := 64) (by decide)
  omega

theorem leNat_lt (bs : List Byte) : leNat bs < 256 ^ bs.length := by
  induction bs with
  | nil => simp [leNat]
  | cons b r ih =>
    have := b.isLt
    rw [leNat, List.length_cons, Nat.pow_succ]
    omega

theorem entry_lt (s : State) (k x : Nat) : leNat (s.devRead k x 8) < 2 ^ 64 := by
  have h := leNat_lt (s.devRead k x 8)
  simpa [State.devRead] using h

/-! ### A write at the memory-side cache -/

theorem onlyHbm_touchLines (s : State) (pa n : Nat) : s.OnlyHbm (s.touchLines pa n) := by
  unfold State.touchLines
  split
  · exact .refl s
  · exact onlyHbm_foldl (fun s i => (touchLine_keeps s _).1) _ s

theorem devByte_touchLines (s : State) (pa n k x : Nat) : (s.touchLines pa n).devByte k x = s.devByte k x := by
  unfold State.touchLines
  split
  · rfl
  · exact foldl_keeps (fun t : State => t.devByte k x = s.devByte k x) _ _ (fun t i h => (devByte_touchLine t _ k x).trans h) s rfl

/-- A write is its bytes written one after the other; poison marks apart, nothing else of what is read changes. -/
theorem devWrite_eq (s : State) (ten pa : Nat) (bs : List Byte) : ∃ f : List Nat → List Nat, s.devWrite ten pa bs =
    (((bs.zipIdx).foldl (fun s p => s.devWriteByte ten (pa + p.2) p.1) (s.touchLines pa bs.length)).modMem fun m =>
      { m with poison := f m.poison }) := by
  unfold State.devWrite
  dsimp only
  split
  · exact ⟨id, rfl⟩
  · exact ⟨_, rfl⟩

theorem onlyHbm_devWrite (s : State) (ten pa : Nat) (bs : List Byte) : s.OnlyHbm (s.devWrite ten pa bs) := by
  obtain ⟨f, hf⟩ := devWrite_eq s ten pa bs
  rw [hf]
  exact ((onlyHbm_touchLines s pa _).trans (onlyHbm_foldl (fun s (p : Byte × Nat) => onlyHbm_devWriteByte s ten _ p.1) _ _)).trans
    ⟨_, _, _, _, _, rfl⟩

section Written

variable {s : State} (hs : s.mem.wf = true) (ten pa : Nat)
include hs

theorem devByte_devWriteBytes_other (bs : List Byte) {o x : Nat} (h : x < pa + o ∨ pa + o + bs.length ≤ x) (k : Nat) :
    ((bs.zipIdx o).foldl (fun s p => s.devWriteByte ten (pa + p.2) p.1) s).devByte k x = s.devByte k x := by
  induction bs generalizing s o with
  | nil => rfl
  | cons b r ih =>
    rw [List.length_cons] at h
    rw [List.zipIdx_cons, List.foldl_cons, ih (devWriteByte_wf s _ _ _ hs) (by omega)]
    exact devByte_devWriteByte_other hs ten (by dsimp only; omega) _ k

theorem devByte_devWriteBytes (bs : List Byte) {o i : Nat} (hi : i < bs.length) :
    ((bs.zipIdx o).foldl (fun s p => s.devWriteByte ten (pa + p.2) p.1) s).devByte ten (pa + (o + i)) = bs[i] := by
  induction bs generalizing s o i with
  | nil => exact absurd hi (Nat.not_lt_zero i)
  | cons b r ih =>
    have hwf := devWriteByte_wf s ten (pa + o) b hs
    rw [List.zipIdx_cons, List.foldl_cons]
    cases i with
    | zero =>
      rw [devByte_devWriteBytes_other hwf ten pa r (by omega)]
      exact devByte_devWriteByte_same hs ten _ b
    | succ i =>
      have hoi : o + (i + 1) = o + 1 + i := by omega
      rw [hoi]
      exact ih hwf _

theorem devByte_devWrite_other (bs : List Byte) {x : Nat} (h : x < pa ∨ pa + bs.length ≤ x) (k : Nat) :
    (s.devWrite ten pa bs).devByte k x = s.devByte k x := by
  obtain ⟨f, hf⟩ := devWrite_eq s ten pa bs
  rw [hf]
  have hbytes := devByte_devWriteBytes_other (touchLines_wf s pa bs.length hs) ten pa bs (o := 0) (x := x) h k
  exact hbytes.trans (devByte_touchLines s pa _ k x)

/-- What was written is read back under the same key. -/
theorem devRead_devWrite (bs : List Byte) : (s.devWrite ten pa bs).devRead ten pa bs.length = bs := by
  obtain ⟨f, hf⟩ := devWrite_eq s ten pa bs
  rw [hf]
  refine List.ext_getElem (by simp [State.devRead]) fun i hi hi' => ?_
  have hbyte := devByte_devWriteBytes (touchLines_wf s pa bs.length hs) ten pa bs (o := 0) hi'
  rw [Nat.zero_add] at hbyte
  simp only [State.devRead, List.getElem_map, List.getElem_range]
  exact hbyte

end Written

/-! ### What a translation leaves alone -/

theorem State.sameBut.trans {s t u : State} (h : s.sameBut t) (h' : t.sameBut u) : s.sameBut u := by
  obtain ⟨h1, h2, h3, h4, h5, h6, h7, h8, h9, h10, h11, h12, h13⟩ := h
  obtain ⟨k1, k2, k3, k4, k5, k6, k7, k8, k9, k10, k11, k12, k13⟩ := h'
  exact ⟨k1.trans h1, k2.trans h2, k3.trans h3, k4.trans h4, k5.trans h5, k6.trans h6, k7.trans h7, k8.trans h8, k9.trans h9,
    k10.trans h10, k11.trans h11, k12.trans h12, k13.trans h13⟩

theorem State.OnlyHbm.sameBut {s t : State} (h : s.OnlyHbm t) : s.sameBut t := by
  obtain ⟨_, _, _, _, _, rfl⟩ := h
  exact ⟨rfl, rfl, rfl, rfl, rfl, rfl, rfl, rfl, rfl, rfl, rfl, rfl, rfl⟩

/-- A page-table entry, read with tenant 0's key (R63). -/
def State.entry (s : State) (x : Nat) : Nat := leNat (s.devRead 0 x 8)

/-- The bytes of local HBM are as before. -/
def State.sameBytes (s t : State) : Prop := ∀ k x, t.devByte k x = s.devByte k x

theorem State.sameBytes.entry {s t : State} (h : s.sameBytes t) (x : Nat) : t.entry x = s.entry x :=
  congrArg leNat (List.map_congr_left fun _ _ => h 0 _)

theorem State.sameBut.ctx? {s t : State} (h : s.sameBut t) (n : Nat) : t.ctx? n = s.ctx? n := by
  obtain ⟨-, -, -, -, -, -, -, -, -, -, hctxs, -, -⟩ := h
  unfold State.ctx?
  rw [hctxs]

theorem learn_keeps (s : State) (c : Nat) (es : List WalkEntry) :
    s.sameBut (s.modMem fun m => m.learn c es) ∧ s.sameBytes (s.modMem fun m => m.learn c es) ∧
      ((s.modMem fun m => m.learn c es).mem.wf = true ↔ s.mem.wf = true) := by
  unfold Mem.learn
  split
  · exact ⟨State.OnlyHbm.sameBut (.refl s), fun _ _ => rfl, Iff.rfl⟩
  · exact ⟨⟨rfl, rfl, rfl, rfl, rfl, rfl, rfl, rfl, rfl, rfl, rfl, rfl, rfl⟩, fun _ _ => rfl, Iff.rfl⟩

theorem takeLeaf_keeps (s : State) (w : Who) (te : TlbEntry) :
    s.sameBut (s.modMem fun m => m.takeLeaf w te) ∧ s.sameBytes (s.modMem fun m => m.takeLeaf w te) :=
  ⟨⟨rfl, rfl, rfl, rfl, rfl, rfl, rfl, rfl, rfl, rfl, rfl, rfl, rfl⟩, fun _ _ => rfl⟩

/-! ### One level of the walk -/

/-- An entry that a walk can read: below capacity and not poisoned. -/
def State.canRead (s : State) (x : Nat) : Prop := x < s.capacity ∧ s.linePoison (x / 64) = false

/-- The address of the entry of a level's table for an address (R63). -/
def entryAt (level table : Nat) (va : Word) : Nat :=
  table + 8 * (if level = 1 then bitsAt va.toNat 34 21 else bitsAt va.toNat (levelBits level) 9)

/-- An entry with V = 1 is a leaf (R64). -/
def isLeaf (e : Nat) : Prop := entryBit e 1 ∨ entryBit e 2 ∨ entryBit e 3

/-- An entry with V = 1 that is malformed at a level (R64). -/
def State.badEntry (s : State) (level e : Nat) : Prop :=
  (¬ isLeaf e ∧ badPointer s.capacity level e = true) ∨ (isLeaf e ∧ badLeaf s.fab.domain level e = true)

theorem isPointer_iff (e : Nat) : isPointer e = true ↔ ¬ isLeaf e := by
  unfold isPointer isLeaf entryBit
  rw [beq_iff_eq]
  omega

/-- What a walk does with the entry that it has read at a level. -/
def walkEntry (s : State) (w : Who) (a : Acc) (va : Word) (level pa e fuel : Nat) : M ((Nat × Nat × Nat) × List WalkEntry) := do
  if !bitAt e 0 then raise (xlCause a) 0 va
  if isPointer e then
    if badPointer s.capacity level e then raise (xlCause a) 0 va
    let t := bitsAt e 12 40 * 2 ^ 12
    let (r, es) ← walkFrom w a va (level + 1) t fuel
    pure (r, ⟨w.asid, va.toNat / 2 ^ levelBits level, levelBits level, t⟩ :: es)
  else
    if badLeaf s.fab.domain level e then raise (xlCause a) 0 va
    pure ((pa, e, level), [])

section Level

variable {s : State} {w : Who} {a : Acc} {va : Word} {level table : Nat} (fuel : Nat) (hst : s.fab.stalled = none)
  (hread : s.canRead (entryAt level table va))
include hst hread

theorem readEntry_eq : readEntry (entryAt level table va) s = (.ok (s.entry (entryAt level table va)), s) := by
  unfold readEntry
  rw [bind_of_ok (holdIfStalled_goes (by simp [State.isStalled, hst])), bind_get, if_neg (by simp [hread.2])]
  rfl

/-- The walk at a level, its entry read. -/
theorem walkFrom_read : walkFrom w a va level table (fuel + 1) s =
    walkEntry s w a va level (entryAt level table va) (s.entry (entryAt level table va)) fuel s := by
  rw [walkFrom, bind_get]
  refine (congrFun (if_neg (Nat.not_le.2 hread.1)) s).trans ?_
  exact bind_of_ok (readEntry_eq hst hread)

/-- An entry that is not valid or malformed fails the translation. -/
theorem walkFrom_faults (h : ¬ entryBit (s.entry (entryAt level table va)) 0 ∨ s.badEntry level (s.entry (entryAt level table va))) :
    walkFrom w a va level table (fuel + 1) s = (.error (.trap (missCause a) 0 va), s) := by
  rw [walkFrom_read fuel hst hread, ← xlCause_eq]
  unfold walkEntry
  dsimp only
  by_cases hv : bitAt (s.entry (entryAt level table va)) 0 = true
  · rw [if_neg (by simp [hv])]
    rcases h.resolve_left (not_not.2 ((bitAt_iff _ _).1 hv)) with ⟨hl, hbad⟩ | ⟨hl, hbad⟩
    · rw [if_pos ((isPointer_iff _).2 hl)]
      exact guard_stops hbad _ _ rfl
    · rw [if_neg ((isPointer_iff _).not.2 (not_not.2 hl))]
      exact guard_stops hbad _ _ rfl
  · exact guard_stops (by simp [hv]) _ _ rfl

variable (hv : entryBit (s.entry (entryAt level table va)) 0) (hgood : ¬ s.badEntry level (s.entry (entryAt level table va)))
include hv hgood

theorem walkFrom_leaf (hl : isLeaf (s.entry (entryAt level table va))) :
    walkFrom w a va level table (fuel + 1) s = (.ok ((entryAt level table va, s.entry (entryAt level table va), level), []), s) := by
  rw [walkFrom_read fuel hst hread]
  unfold walkEntry
  dsimp only
  rw [if_neg (by simp [(bitAt_iff _ _).2 hv]), if_neg ((isPointer_iff _).not.2 (not_not.2 hl)),
    if_neg fun hbad => hgood (.inr ⟨hl, hbad⟩)]
  rfl

variable (hp : ¬ isLeaf (s.entry (entryAt level table va)))
include hp

/-- A pointer hands the walk on to the table that it names. -/
theorem walkFrom_pointer : walkFrom w a va level table (fuel + 1) s =
    (walkFrom w a va (level + 1) (bitsAt (s.entry (entryAt level table va)) 12 40 * 2 ^ 12) fuel >>= fun q =>
      pure (q.1, ⟨w.asid, va.toNat / 2 ^ levelBits level, levelBits level,
        bitsAt (s.entry (entryAt level table va)) 12 40 * 2 ^ 12⟩ :: q.2)) s := by
  rw [walkFrom_read fuel hst hread]
  unfold walkEntry
  dsimp only
  rw [if_neg (by simp [(bitAt_iff _ _).2 hv]), if_pos ((isPointer_iff _).2 hp), if_neg fun hbad => hgood (.inl ⟨hp, hbad⟩)]

end Level

/-! ### The whole walk -/

/-- A walk from a level's table ends in `q`, whatever pointers it met, and leaves the state. -/
def WalkEnds (s : State) (w : Who) (a : Acc) (va : Word) (level table fuel : Nat) (q : Except Stop (Nat × Nat × Nat)) : Prop :=
  ∃ es, walkFrom w a va level table fuel s = (q.map fun r => (r, es), s)

/-- A valid and well-formed pointer to a table (R64). -/
def State.pointsTo (s : State) (x t : Nat) : Prop :=
  entryBit (s.entry x) 0 ∧ s.entry x / 2 % 2 ^ 11 = 0 ∧ s.entry x / 2 ^ 52 = 0 ∧ t = s.entry x / 2 ^ 12 % 2 ^ 40 * 2 ^ 12 ∧ t < s.capacity

theorem levelBits_eq (level : Nat) : levelBits level = if level = 1 then 34 else if level = 2 then 25 else 16 := by
  unfold levelBits
  split <;> simp_all

theorem badPointer_iff (cap level e : Nat) :
    badPointer cap level e = true ↔ level = 3 ∨ e / 2 % 2 ^ 11 ≠ 0 ∨ e / 2 ^ 52 ≠ 0 ∨ cap ≤ e / 2 ^ 12 % 2 ^ 40 * 2 ^ 12 := by
  simp [badPointer, bitsAt, or_assoc]

theorem badLeaf_iff (dom : Option Nat) (level e : Nat) : badLeaf dom level e = true ↔
    entryBit e 2 ∧ ¬ entryBit e 1 ∨ e / 2 ^ 46 % 4 = 3 ∨ e / 2 ^ 48 % 2 ^ 12 ≠ 0 ∧ e / 2 ^ 46 % 4 ≠ 2 ∨
      e / 2 ^ 46 % 4 = 2 ∧ dom = some (e / 2 ^ 48 % 2 ^ 12) ∨
      level = 1 ∧ e / 2 ^ 10 % 2 ^ 18 ≠ 0 ∨ level = 2 ∧ e / 2 ^ 10 % 2 ^ 9 ≠ 0 := by
  have hframe : ∀ k, k ≤ 36 → lfFrame e % 2 ^ k = e / 2 ^ 10 % 2 ^ k := fun k hk => Nat.mod_mod_of_dvd _ (Nat.pow_dvd_pow 2 hk)
  unfold badLeaf
  rw [hframe 18 (by decide), hframe 9 (by decide), ← bitAt_iff, ← bitAt_iff]
  simp [lfBit, lfMt, lfPeer, bitsAt, or_assoc]

section Walk

variable {s : State} {w : Who} {a : Acc} {va : Word} (hst : s.fab.stalled = none)
include hst

theorem WalkEnds.through {level table fuel t : Nat} {q : Except Stop (Nat × Nat × Nat)} (hlevel : level ≠ 3)
    (hread : s.canRead (entryAt level table va)) (hp : s.pointsTo (entryAt level table va) t)
    (h : WalkEnds s w a va (level + 1) t fuel q) : WalkEnds s w a va level table (fuel + 1) q := by
  obtain ⟨hv, hlow, hhigh, rfl, hcap⟩ := hp
  obtain ⟨es, hes⟩ := h
  have hptr : ¬ isLeaf (s.entry (entryAt level table va)) := by
    rw [← isPointer_iff, isPointer, beq_iff_eq]
    omega
  have hgood : ¬ s.badEntry level (s.entry (entryAt level table va)) := by
    rintro (⟨-, hbad⟩ | ⟨hl, -⟩)
    · rw [badPointer_iff] at hbad
      omega
    · exact hptr hl
  unfold WalkEnds
  rw [walkFrom_pointer fuel hst hread hv hgood hptr]
  cases q with
  | error e => exact ⟨[], bind_of_error hes⟩
  | ok r => exact ⟨_, bind_of_ok hes⟩

/-- Where the walk of an address stands at an entry: everything that the walk from there ends in, the walk from the first level ends in. -/
theorem walkEnds_of_reached {level at_ : Nat}
    (h : (level = 1 ∧ at_ = entryAt 1 w.ptb va) ∨
      (level = 2 ∧ ∃ t, s.canRead (entryAt 1 w.ptb va) ∧ s.pointsTo (entryAt 1 w.ptb va) t ∧ at_ = entryAt 2 t va) ∨
      (level = 3 ∧ ∃ t u, s.canRead (entryAt 1 w.ptb va) ∧ s.pointsTo (entryAt 1 w.ptb va) t ∧
        s.canRead (entryAt 2 t va) ∧ s.pointsTo (entryAt 2 t va) u ∧ at_ = entryAt 3 u va)) :
    ∃ table fuel, at_ = entryAt level table va ∧
      ∀ q, WalkEnds s w a va level table (fuel + 1) q → WalkEnds s w a va 1 w.ptb 3 q := by
  rcases h with ⟨rfl, rfl⟩ | ⟨rfl, t, hr, hp, rfl⟩ | ⟨rfl, t, u, hr, hp, hr', hp', rfl⟩
  · exact ⟨w.ptb, 2, rfl, fun q h => h⟩
  · exact ⟨t, 1, rfl, fun q h => h.through hst (by decide) hr hp⟩
  · exact ⟨u, 0, rfl, fun q h => (h.through hst (by decide) hr' hp').through hst (by decide) hr hp⟩

omit hst

variable (hw : aget [] s.mem.walks w.cluster = [])
include hw

theorem walk_of_error {e : Stop} (h : WalkEnds s w a va 1 w.ptb 3 (.error e)) : walk w a va s = (.error e, s) := by
  obtain ⟨es, hes⟩ := h
  unfold walk
  rw [bind_get, hw]
  exact bind_of_error hes

theorem walk_of_ok (hcap : w.tlbCap ≠ 0) {r : Nat × Nat × Nat} (h : WalkEnds s w a va 1 w.ptb 3 (.ok r)) :
    ∃ es, walk w a va s = (.ok r, s.modMem fun m => m.learn w.cluster es) := by
  obtain ⟨es, hes⟩ := h
  refine ⟨es, ?_⟩
  unfold walk
  rw [bind_get, hw]
  refine (bind_of_ok hes).trans ?_
  dsimp only
  rw [if_neg hcap]
  rfl

end Walk

/-! ### A translation by a walk -/

/-- The state after the bits of an entry are written back, if any is new. -/
def State.markUsed (s : State) (a : Acc) (pa e : Nat) : State :=
  if usedLeaf a e = e then s else s.devWrite 0 pa (leBytes 8 (usedLeaf a e))

theorem onlyHbm_markUsed (s : State) (a : Acc) (pa e : Nat) : s.OnlyHbm (s.markUsed a pa e) := by
  unfold State.markUsed
  split
  · exact .refl s
  · exact onlyHbm_devWrite s _ _ _

theorem devByte_markUsed_other {s : State} (hs : s.mem.wf = true) (a : Acc) (pa e : Nat) {x : Nat} (h : x < pa ∨ pa + 8 ≤ x) (k : Nat) :
    (s.markUsed a pa e).devByte k x = s.devByte k x := by
  unfold State.markUsed
  split
  · rfl
  · exact devByte_devWrite_other hs 0 pa _ (by rwa [leBytes_length]) k

/-- The entry reads back with its bits set. -/
theorem entry_markUsed {s : State} (hs : s.mem.wf = true) (a : Acc) (pa : Nat) :
    (s.markUsed a pa (s.entry pa)).entry pa = usedLeaf a (s.entry pa) := by
  unfold State.markUsed
  split
  next h => exact h.symm
  next =>
    have hback := devRead_devWrite hs 0 pa (leBytes 8 (usedLeaf a (s.entry pa)))
    rw [leBytes_length] at hback
    unfold State.entry at hback ⊢
    rw [hback, leNat_leBytes]
    exact Nat.mod_eq_of_lt (usedLeaf_lt a (entry_lt s 0 pa))

section WalkLeaf

variable {s u : State} {w : Who} {a : Acc} {va : Word}

theorem walkLeaf_of_walkError {e : Stop} (h : walk w a va s = (.error e, s)) : walkLeaf w a va s = (.error e, s) :=
  bind_of_error h

/-- A leaf that the checks let through: its bits are set, and the translation cache takes it. -/
theorem walkLeaf_of_walk {pa e level : Nat} (hcap : w.tlbCap ≠ 0) (h : walk w a va s = (.ok (pa, e, level), u))
    (hcheck : checkLeaf w a (levelBits level) e va u = (.ok (), u)) :
    ∃ te, walkLeaf w a va s = (.ok (levelBits level, usedLeaf a e), (u.markUsed a pa e).modMem fun m => m.takeLeaf w te) := by
  refine ⟨⟨w.asid, lfBit (usedLeaf a e) 6, va.toNat / 2 ^ levelBits level, levelBits level, BitVec.ofNat 64 (usedLeaf a e)⟩, ?_⟩
  unfold walkLeaf
  rw [bind_of_ok h]
  dsimp only
  rw [bind_of_ok hcheck, add_need_eq]
  simp only [need_ne_zero_iff, if_neg hcap]
  unfold State.markUsed
  by_cases hnew : usedLeaf a e = e
  · rw [if_neg (not_not.2 hnew), if_pos hnew]
    rfl
  · rw [if_pos hnew, if_neg hnew]
    rfl

/-- Nothing cached for the strand: the translation of the leaf is a walk. -/
theorem leafOf_of_empty (h : aget [] s.mem.tlbs w.tlb = []) : leafOf w a va s = walkLeaf w a va s := by
  unfold leafOf
  rw [bind_get, h]
  rfl

end WalkLeaf

section Used

variable (a : Acc) (e : Nat)

theorem lfMt_usedLeaf : lfMt (usedLeaf a e) = lfMt e := by
  unfold lfMt bitsAt
  rw [usedLeaf_div a e (by decide)]

theorem lfPeer_usedLeaf : lfPeer (usedLeaf a e) = lfPeer e := by
  unfold lfPeer bitsAt
  rw [usedLeaf_div a e (by decide)]

theorem lfTenant_usedLeaf : lfTenant (usedLeaf a e) = lfTenant e := by
  unfold lfTenant bitsAt
  rw [usedLeaf_div a e (by decide)]

theorem leafPa_usedLeaf (bits : Nat) (va : Word) : leafPa bits (usedLeaf a e) va = leafPa bits e va := by
  unfold leafPa lfFrame bitsAt
  rw [usedLeaf_div a e (by decide)]

end Used

/-- An address of either canonical half (R62). -/
theorem canonical_of_half {va : Word} (h : va.toNat < 2 ^ 54 ∨ 2 ^ 64 - 2 ^ 54 ≤ va.toNat) : canonical va = true := by
  have := va.isLt
  unfold canonical
  rw [Bool.or_eq_true, beq_iff_eq, beq_iff_eq]
  omega

theorem isWindow_of_half {va : Word} (h : va.toNat < 2 ^ 54 ∨ 2 ^ 64 - 2 ^ 54 ≤ va.toNat) : isWindow va = false := by
  have := va.isLt
  refine isWindow_eq_false ?_
  omega

/-- Where a leaf places an access that need not wait, the host's page being translated by none but the device (R65). -/
theorem placeByLeaf_ready {w : Who} {a : Acc} {va : Word} {bits leaf : Nat} {s : State} (hst : s.fab.stalled = none)
    (hmt : lfMt leaf ≠ 3) (hhost : lfMt leaf = 1 → ∃ c, s.ctx? w.ctx = some c ∧ c.hfn ∉ s.host.insecure ∧ c.ats = false) :
    placeByLeaf w a va bits leaf s = (.ok (if lfMt leaf = 0 then .hbm (leafPa bits leaf va) (lfTenant leaf)
      else if lfMt leaf = 1 then .host (leafPa bits leaf va) else .peer (lfPeer leaf) (leafPa bits leaf va)), s) := by
  have hlt : lfMt leaf < 4 := Nat.mod_lt _ (by decide)
  obtain h0 | h1 | h2 : lfMt leaf = 0 ∨ lfMt leaf = 1 ∨ lfMt leaf = 2 := by omega
  · rw [placeByLeaf_local h0 hst, if_pos h0]
  · obtain ⟨c, hctx, hl, hats⟩ := hhost h1
    rw [placeByLeaf_host h1 (linkOpen_goes hctx hl), if_neg (by omega), if_pos h1]
    exact bind_of_ok (atsPage_untranslated hctx hats)
  · rw [placeByLeaf_peer h2, if_neg (by omega), if_neg (by omega)]

/-- The strand's own translation cache has room. -/
theorem who_tlbCap_ne_zero (s : State) : s.who.tlbCap ≠ 0 := by
  exact (by decide : (32 : Nat) ≠ 0)

section Walked

variable {s u : State} {a : Acc} {va : Word} {n level pa : Nat} (hcan : canonical va = true) (hwin : isWindow va = false)
  (hst : s.fab.stalled = none) (htlb : aget [] s.mem.tlbs s.who.tlb = []) (hwf : s.mem.wf = true)
include hcan hwin hst htlb hwf

/-- A walk that ends at a leaf that the checks let through: the location, and what the walk has changed. -/
theorem translate_of_walk {es : List WalkEntry}
    (hwalk : walk s.who a va s = (.ok (pa, s.entry pa, level), s.modMem fun m => m.learn s.who.cluster es))
    (hin : ¬ (lfMt (s.entry pa) = 0 ∧ leafPa (levelBits level) (s.entry pa) va ≥ s.capacity))
    (hden : ¬ denied a (s.entry pa) s.who.tenant s.who.user) (hmt : lfMt (s.entry pa) ≠ 3)
    (hhost : lfMt (s.entry pa) = 1 → ∃ c, s.ctx? s.who.ctx = some c ∧ c.hfn ∉ s.host.insecure ∧ c.ats = false) :
    let e := s.entry pa
    let loc := leafPa (levelBits level) e va
    ∃ t, translate s.who a va n s = (.ok (if lfMt e = 0 then .hbm loc (lfTenant e) else if lfMt e = 1 then .host loc
        else .peer (lfPeer e) loc), t) ∧
      s.sameBut t ∧ t.entry pa = usedLeaf a e ∧ ∀ x, x < pa ∨ pa + 8 ≤ x → ∀ k, t.devByte k x = s.devByte k x := by
  intro e loc
  obtain ⟨hlearn, hbytes, hwf'⟩ := learn_keeps s s.who.cluster es
  have hsame : (s.modMem fun m => m.learn s.who.cluster es).entry pa = e := hbytes.entry pa
  generalize (s.modMem fun m => m.learn s.who.cluster es) = u at *
  have hcap : u.capacity = s.capacity := by
    unfold State.capacity
    rw [hlearn.2.2.1]
  have hcheck : checkLeaf s.who a (levelBits level) e va u = (.ok (), u) := checkLeaf_passes (hcap.symm ▸ hin) hden
  obtain ⟨te, hleaf⟩ := walkLeaf_of_walk (who_tlbCap_ne_zero s) hwalk hcheck
  have hmark := onlyHbm_markUsed u a pa e
  obtain ⟨hkept, hkeptBytes⟩ := takeLeaf_keeps (u.markUsed a pa e) s.who te
  have hbut := (hlearn.trans hmark.sameBut).trans hkept
  refine ⟨_, ?_, hbut, ?_, fun x hx k => ?_⟩
  · have hctx := hbut.ctx? s.who.ctx
    obtain ⟨-, -, hfab, hhosts, -⟩ := hbut
    rw [translate_of_leaf hwin hcan ((leafOf_of_empty htlb).trans hleaf), placeByLeaf_ready (hfab ▸ hst)
      ((lfMt_usedLeaf a e).symm ▸ hmt) (by rw [lfMt_usedLeaf, hctx, hhosts]; exact hhost)]
    rw [lfMt_usedLeaf, leafPa_usedLeaf, lfTenant_usedLeaf, lfPeer_usedLeaf]
  · rw [hkeptBytes.entry, ← hsame]
    exact entry_markUsed (hwf'.2 hwf) a pa
  · rw [hkeptBytes, devByte_markUsed_other (hwf'.2 hwf) a pa e hx, hbytes]

end Walked

/-- An entry that is not valid or malformed ends the walk and the translation, and nothing has changed. -/
theorem translate_of_walkError {s : State} {a : Acc} {va : Word} {n : Nat} {e : Stop} (hcan : canonical va = true)
    (hwin : isWindow va = false) (htlb : aget [] s.mem.tlbs s.who.tlb = []) (h : walk s.who a va s = (.error e, s)) :
    translate s.who a va n s = (.error e, s) :=
  translate_of_leafError hwin hcan ((leafOf_of_empty htlb).trans (walkLeaf_of_walkError h))

/-- What the rule calls malformed at a level. -/
theorem badEntry_iff (s : State) (level e : Nat) : s.badEntry level e ↔
    (¬ isLeaf e ∧ (level = 3 ∨ e / 2 % 2 ^ 11 ≠ 0 ∨ e / 2 ^ 52 ≠ 0 ∨ s.capacity ≤ e / 2 ^ 12 % 2 ^ 40 * 2 ^ 12)) ∨
    (isLeaf e ∧ (entryBit e 2 ∧ ¬ entryBit e 1 ∨ e / 2 ^ 46 % 4 = 3 ∨ e / 2 ^ 48 % 2 ^ 12 ≠ 0 ∧ e / 2 ^ 46 % 4 ≠ 2 ∨
      e / 2 ^ 46 % 4 = 2 ∧ s.fab.domain = some (e / 2 ^ 48 % 2 ^ 12) ∨
      level = 1 ∧ e / 2 ^ 10 % 2 ^ 18 ≠ 0 ∨ level = 2 ∧ e / 2 ^ 10 % 2 ^ 9 ≠ 0)) := by
  unfold State.badEntry
  rw [badPointer_iff, badLeaf_iff]

/-- Settles O9: the walk comes to the entry by its pointers, and there it faults or ends at the leaf. -/
theorem firstLevelWalk : Obligations.FirstLevelWalk := by
  intro s a va n level at_ w entry read points first second third e off pa mt peer leaf malformed hhalf htlb hwalks hst hpos hread
  have hcan := canonical_of_half hhalf
  have hwin := isWindow_of_half hhalf
  obtain ⟨table, fuel, rfl, hends⟩ := walkEnds_of_reached (a := a) hst (w := w) (va := va) (level := level) (at_ := at_) hpos
  have hbits : levelBits level = off := levelBits_eq level
  have hbad : s.badEntry level e ↔ malformed := badEntry_iff s level e
  refine ⟨fun h => ?_, fun hv hl hgood hin hden hwf hhost => ?_⟩
  · refine translate_of_walkError hcan hwin htlb (walk_of_error hwalks (hends _ ⟨[], ?_⟩))
    exact walkFrom_faults fuel hst hread (h.imp_right hbad.2)
  · have hleaf := walkFrom_leaf (w := w) (a := a) fuel hst hread hv (hbad.not.2 hgood) hl
    obtain ⟨es, hwalk⟩ := walk_of_ok hwalks (who_tlbCap_ne_zero s) (hends (.ok _) ⟨[], hleaf⟩)
    have hmt : mt ≠ 3 := fun h3 => hgood (.inr ⟨hl, .inr (.inl h3)⟩)
    obtain ⟨t, ht, hbut, hused, hother⟩ := translate_of_walk (n := n) hcan hwin hst htlb hwf hwalk
      (by rw [hbits]; exact fun ⟨h0, hge⟩ => Nat.not_lt.2 hge (hin h0)) hden hmt hhost
    rw [hbits] at ht
    refine ⟨t, ht, hbut, ⟨_, rfl, ?_⟩, hother⟩
    have hused : leNat (t.devRead 0 (entryAt level table va) 8) = usedLeaf a e := hused
    simp only [hused, entryBit_usedLeaf, writesMem_iff]
    exact ⟨.inl trivial, fun hw => .inr (.inl ⟨trivial, hw⟩), fun i h7 h8 => by simp [h7, h8]⟩

end Sys2Proof.Machine
end

section
/-!
What reading leaves alone (R67, R92, R122): translations, reads at a location, releases and descriptor reads change what caches hold, the
A and D bits of page tables, and what the device has asked of the host and of peers.
-/

namespace Sys2Proof.Machine

/-! ### Changes that nothing can read -/

theorem State.sameBut.refl (s : State) : s.sameBut s := State.OnlyHbm.sameBut (.refl s)

section Changes

variable {s t : State} (h : s.sameBut t)
include h

/-- A change of the memory that leaves the windows, the host's memory and that of the peers. -/
theorem State.sameBut.modMem {f : Mem → Mem} (hf : ∀ m, (f m).win = m.win ∧ (f m).winPoison = m.winPoison ∧ (f m).hostMem = m.hostMem ∧
    (f m).peerMem = m.peerMem) : s.sameBut (t.modMem f) := by
  obtain ⟨hwin, hpoison, hhost, hpeer⟩ := hf t.mem
  exact h.trans ⟨rfl, rfl, rfl, rfl, rfl, rfl, hwin, hpoison, hhost, hpeer, rfl, rfl, rfl⟩

/-- A change of the system that leaves the contexts, the launches and the agenda. -/
theorem State.sameBut.modSys {f : Sys → Sys} (hf : ∀ y, (f y).ctxs = y.ctxs ∧ (f y).launches = y.launches ∧ (f y).agenda = y.agenda) :
    s.sameBut (t.modSys f) := by
  obtain ⟨hctxs, hlaunches, hagenda⟩ := hf t.sys
  exact h.trans ⟨rfl, rfl, rfl, rfl, rfl, rfl, rfl, rfl, rfl, rfl, hctxs, hlaunches, hagenda⟩

theorem State.sameBut.onlyData {u : State} (hu : t.OnlyData u) : s.sameBut u := by
  obtain ⟨_, _, _, _, _, _, rfl⟩ := hu
  exact h.trans ⟨rfl, rfl, rfl, rfl, rfl, rfl, rfl, rfl, rfl, rfl, rfl, rfl, rfl⟩

theorem State.sameBut.share (o : Nat) : s.sameBut (t.share o) := by
  unfold State.share
  split
  · exact h
  · exact h.modSys fun _ => ⟨rfl, rfl, rfl⟩

theorem State.sameBut.writeBackAll (c : Nat) : s.sameBut (t.writeBackAll c) :=
  (h.onlyData ((onlyHbm_foldl onlyHbm_writeBackLine _ t).setCache c _)).modMem fun _ => ⟨rfl, rfl, rfl, rfl⟩

theorem State.sameBut.release (c : Nat) (sc : Scope) : s.sameBut (t.release c sc) := by
  cases sc with
  | core | clu => exact h
  | dev | sys => exact h.writeBackAll c

end Changes

theorem State.OnlyData.setCache {s t : State} (h : s.OnlyData t) (c : Nat) (l : List Line) : s.OnlyData (t.setCache c l) := by
  obtain ⟨_, _, _, _, _, _, rfl⟩ := h
  exact ⟨_, _, _, _, _, _, rfl⟩

theorem onlyData_flushLine (s : State) (c ln : Nat) : s.OnlyData (s.flushLine c ln) := by
  unfold State.flushLine
  split
  · exact .refl s
  · exact (onlyHbm_writeBackLine s _).setCache c _

theorem onlyData_makeRoom (s : State) (c : Nat) : s.OnlyData (s.makeRoom c) := by
  unfold State.makeRoom
  dsimp only
  split
  · exact .refl s
  · split
    · exact .refl s
    · exact onlyData_flushLine s c _

theorem onlyData_fillLine (s : State) (c ten ln : Nat) : s.OnlyData (s.fillLine c ten ln).1 := by
  unfold State.fillLine
  split
  · split
    · exact .refl s
    · exact (onlyData_flushLine s c ln).setCache c _
  · exact (onlyData_makeRoom s c).setCache c _

theorem onlyData_cluRead (s : State) (c ten pa n : Nat) : s.OnlyData (s.cluRead c ten pa n).1 := onlyData_fillLine s c ten (pa / 64)

section Reads

variable {s : State}

theorem reads_modMem {f : Mem → Mem} (hf : ∀ m, (f m).win = m.win ∧ (f m).winPoison = m.winPoison ∧ (f m).hostMem = m.hostMem ∧
    (f m).peerMem = m.peerMem) : Keeps s.sameBut (modify fun t => t.modMem f : M PUnit) :=
  keeps_modify fun _ h => h.modMem hf

theorem reads_modSys {f : Sys → Sys} (hf : ∀ y, (f y).ctxs = y.ctxs ∧ (f y).launches = y.launches ∧ (f y).agenda = y.agenda) :
    Keeps s.sameBut (modify fun t => t.modSys f : M PUnit) :=
  keeps_modify fun _ h => h.modSys hf

theorem reads_onlyData {f : State → State} (hf : ∀ t : State, t.OnlyData (f t)) : Keeps s.sameBut (modify f : M PUnit) :=
  keeps_modify fun t h => h.onlyData (hf t)

/-! ### Releases and acquires -/

theorem reads_settle (o : Nat) : Keeps s.sameBut (settle o) :=
  keeps_bind keeps_get fun _ => keeps_ite (keeps_pure _) (keeps_bind (reads_modSys fun _ => ⟨rfl, rfl, rfl⟩) fun _ => keeps_wait)

theorem reads_releaseEverywhere : Keeps s.sameBut releaseEverywhere :=
  keeps_bind keeps_get fun _ => keeps_guard keeps_wait (keeps_bind (keeps_modify fun t h =>
    foldl_keeps s.sameBut _ _ (fun _ c hu => hu.release c.1 .sys) t h) fun _ => reads_settle 0)

/-! ### Translation -/

theorem reads_walk (w : Who) (a : Acc) (va : Word) : Keeps s.sameBut (walk w a va) := by
  unfold walk
  refine keeps_bind keeps_get fun _ => keeps_bind ?_ fun _ => keeps_ite (keeps_pure _)
    (keeps_bind (keeps_modify fun t h => h.trans (learn_keeps t _ _).1) fun _ => keeps_pure _)
  split
  · exact keeps_walkFrom w a va _ _ _
  · split
    · exact keeps_walkFrom w a va _ _ _
    · exact keeps_walkFrom w a va _ _ _

theorem reads_walkLeaf (w : Who) (a : Acc) (va : Word) : Keeps s.sameBut (walkLeaf w a va) :=
  keeps_bind (reads_walk w a va) fun _ => keeps_bind (keeps_checkLeaf w a _ _ va) fun _ =>
    keeps_guard (keeps_modify fun t h => h.trans (onlyHbm_devWrite t _ _ _).sameBut)
      (keeps_ite (keeps_pure _) (keeps_bind (keeps_modify fun t h => h.trans (takeLeaf_keeps t _ _).1) fun _ => keeps_pure _))

theorem reads_leafOf (w : Who) (a : Acc) (va : Word) : Keeps s.sameBut (leafOf w a va) := by
  refine keeps_bind keeps_get fun _ => ?_
  split
  · exact keeps_ite (reads_walkLeaf w a va) (keeps_bind (keeps_checkLeaf w a _ _ va) fun _ => keeps_pure _)
  · exact reads_walkLeaf w a va

theorem reads_atsPage (w : Who) (a : Acc) (va : Word) (pa : Nat) : Keeps s.sameBut (atsPage w a va pa) := by
  refine keeps_bind keeps_get fun _ => ?_
  split
  · refine keeps_ite (keeps_pure _) ?_
    split
    · exact keeps_pure _
    · split
      · exact keeps_bind (reads_modSys fun _ => ⟨rfl, rfl, rfl⟩) fun _ => keeps_wait
      · split
        · exact keeps_wait
        · refine keeps_bind (reads_modSys fun _ => ⟨rfl, rfl, rfl⟩) fun _ => ?_
          split
          · exact keeps_raise _ _ _
          · exact keeps_bind (reads_modMem fun _ => ⟨rfl, rfl, rfl, rfl⟩) fun _ => keeps_pure _
  · exact keeps_pure _

theorem reads_translateFull (w : Who) (a : Acc) (va : Word) (n : Nat) : Keeps s.sameBut (translateFull w a va n) := by
  refine keeps_ite (keeps_bind (keeps_windowKey w a va n) fun _ => keeps_pure _) (keeps_ite (keeps_raise _ _ _) ?_)
  refine keeps_bind (reads_leafOf w a va) fun ⟨bits, leaf⟩ => ?_
  dsimp only
  split
  · exact keeps_bind (keeps_holdIfStalled _) fun _ => keeps_bind (keeps_holdIfFull _) fun _ => keeps_pure _
  · exact keeps_bind (keeps_linkOpen w va) fun _ => keeps_bind (reads_atsPage w a va _) fun _ => keeps_pure _
  · exact keeps_pure _

theorem reads_translate (w : Who) (a : Acc) (va : Word) (n : Nat) : Keeps s.sameBut (translate w a va n) :=
  keeps_bind (reads_translateFull w a va n) fun _ => keeps_pure _

/-! ### Reads at a location -/

theorem reads_peerFails (d : Nat) : Keeps s.sameBut (peerFails d) :=
  keeps_bind keeps_get fun _ => keeps_ite (keeps_pure _)
    (keeps_ite (keeps_bind (reads_modSys fun _ => ⟨rfl, rfl, rfl⟩) fun _ => keeps_pure _) (keeps_pure _))

theorem reads_readLoc (w : Who) (va : Word) (l : Loc) (n : Nat) : Keeps s.sameBut (readLoc w va l n) := by
  cases l with
  | hbm pa ten => exact fun t h => h.onlyData (onlyData_cluRead t w.cluster ten pa n)
  | win key => exact keeps_bind keeps_get fun _ => keeps_pure _
  | host pa => exact keeps_bind keeps_get fun _ => keeps_pure _
  | peer d pa =>
    exact keeps_bind (reads_peerFails d) fun _ => keeps_guard (keeps_raise _ _ _) (keeps_bind keeps_get fun _ => keeps_pure _)

/-- What every read ends with: poisoned data stops it. -/
theorem reads_readClean {α : Type} (w : Who) (va : Word) (l : Loc) (n : Nat) (f : List Byte → α) :
    Keeps s.sameBut (do
      let (bs, p) ← readLoc w va l n
      if p then raise 0x13 0 ((← get).poisonedWord va l n)
      pure (f bs)) :=
  keeps_bind (reads_readLoc w va l n) fun _ =>
    keeps_ite (keeps_bind keeps_get fun _ => keeps_bind (keeps_raise _ _ _) fun _ => keeps_pure _) (keeps_pure _)

theorem reads_loadAt (w : Who) (va : Word) (n : Nat) : Keeps s.sameBut (loadAt w va n) :=
  keeps_bind (reads_translate w .load va n) fun l => reads_readClean w va l n _

theorem reads_pointRead (w : Who) (sc : Scope) (ea : Word) (l : Loc) (n : Nat) : Keeps s.sameBut (pointRead w sc ea l n) := by
  cases l with
  | hbm pa ten =>
    exact keeps_ite (keeps_bind (reads_onlyData fun t => onlyData_flushLine t _ _) fun _ =>
      keeps_bind keeps_get fun _ => keeps_guard (keeps_raise _ _ _) (keeps_pure _)) (reads_readClean w ea _ n _)
  | _ => exact reads_readClean w ea _ n _

theorem reads_metUnsupported (ea : Word) : Keeps s.sameBut (metUnsupported ea) :=
  keeps_bind keeps_get fun _ => keeps_ite (keeps_bind (reads_modSys fun _ => ⟨rfl, rfl, rfl⟩) fun _ => keeps_raise _ _ _) (keeps_pure _)

theorem reads_hostAtomic (fn : Bool) (op : AmoOp) (ea : Word) (l : Loc) : Keeps s.sameBut (hostAtomic fn op ea l) := by
  cases l with
  | host pa =>
    cases op with
    | swap | add | cas => exact keeps_bind (reads_metUnsupported ea) fun _ => reads_modSys fun _ => ⟨rfl, rfl, rfl⟩
    | _ => exact keeps_raise _ _ _
  | _ => exact keeps_pure _

/-! ### Descriptors and level tables -/

theorem reads_devLoad (w : Who) (va : Word) (n : Nat) : Keeps s.sameBut (devLoad w va n) := by
  refine keeps_bind (reads_translate w .load va _) fun l => ?_
  cases l with
  | hbm pa ten =>
    refine keeps_bind keeps_get fun _ => ?_
    split
    · exact keeps_raise _ _ _
    · exact keeps_pure _
  | _ => exact reads_readClean w va _ n id

theorem reads_cachedRead (w : Who) (tid : Nat) (table : Option (Nat × Nat)) (va : Word) (n : Nat) :
    Keeps s.sameBut (cachedRead w tid table va n) := by
  refine keeps_bind keeps_get fun _ => ?_
  split
  · exact keeps_pure _
  · exact keeps_bind (reads_devLoad w va n) fun _ => keeps_bind (reads_modMem fun _ => ⟨rfl, rfl, rfl, rfl⟩) fun _ => keeps_pure _

theorem reads_readTable (w : Who) (d : Desc) (tid k : Nat) : Keeps s.sameBut (readTable w d tid k) :=
  keeps_bind (reads_cachedRead w tid _ _ _) fun _ => keeps_pure _

theorem reads_checkHeader (w : Who) (d : Desc) (tid h : Nat) (va : Word) : Keeps s.sameBut (checkHeader w d tid h va) :=
  keeps_guard (keeps_raise _ _ _) (keeps_ite (keeps_bind (reads_readTable w d tid _) fun _ =>
    keeps_guard (keeps_raise _ _ _) (keeps_pure _)) (keeps_pure _))

end Reads

end Sys2Proof.Machine
end

section
/-!
What an ended context leaves (R73, R76, R286, R289): no strand, job, matrix operation, launch or group of it.
-/

namespace Sys2Proof.Machine

/-! ### Meanings that come to an end -/

/-- Where `m` starts with `P` and goes on, it leaves `R`. -/
def Leads {α : Type} (P : State → Prop) (m : M α) (R : State → Prop) : Prop := ∀ s, P s → ∀ a t, m s = (.ok a, t) → R t

section Leads

variable {α β : Type} {P Q R : State → Prop}

theorem Keeps.leads {m : M α} (h : Keeps P m) : Leads P m P := by
  intro s hs a t ht
  have hm := h s hs
  rwa [ht] at hm

theorem leads_modify {f : State → State} (h : ∀ s, P s → R (f s)) : Leads P (modify f : M PUnit) R := by
  intro s hs a t ht
  obtain rfl : f s = t := congrArg Prod.snd ht
  exact h s hs

theorem leads_bind {m : M α} {f : α → M β} (hm : Leads P m Q) (hf : ∀ a, Leads Q (f a) R) : Leads P (m >>= f) R := by
  intro s hs b t ht
  rw [bind_apply] at ht
  split at ht
  next a u hu => exact hf a u (hm s hs a u hu) b t ht
  next => cases ht

/-- The state that is read meets what is known of it. -/
theorem leads_get_bind {f : State → M β} (h : ∀ s, P s → Leads (fun t => t = s) (f s) R) : Leads P (get >>= f : M β) R :=
  fun s hs b t ht => h s hs s rfl b t ht

theorem Leads.of_imp {m : M α} (h : Leads Q m R) (hP : ∀ s, P s → Q s) : Leads P m R := fun s hs => h s (hP s hs)

end Leads

/-- What holds however a state differs from one in nothing but what reading changes, reading keeps. -/
theorem keeps_of_reads {α : Type} {P : State → Prop} {m : M α} (hm : ∀ s : State, Keeps s.sameBut m) (hP : ∀ s t, s.sameBut t → P s → P t) :
    Keeps P m :=
  fun s hs => hP s _ (hm s s (.refl s)) hs

/-! ### A context whose launches are ended one by one -/

/-- No strand of the context stands anywhere, and no cluster holds a job or a matrix operation of it. -/
def State.workless (t : State) (n : Nat) : Prop :=
  (∀ y ∈ t.strands, y.ctx = n → y.stand = .none) ∧
  ∀ c ∈ t.fab.clusters, (∀ j ∈ c.2.jobs, j.ctx ≠ n) ∧ ∀ o ∈ c.2.mops, o.ctx ≠ n

/-- Of the context's launches only those are left that are among `ls`. -/
def State.ending (n : Nat) (ls : List Launch) (t : State) : Prop :=
  t.workless n ∧ ∀ x ∈ t.sys.launches, x.ctx = n → ∃ l ∈ ls, l.id = x.id

theorem mem_aset {α : Type} {l : List (Nat × α)} {k : Nat} {v : α} {p : Nat × α} (h : p ∈ aset l k v) : p = (k, v) ∨ p ∈ l := by
  induction l with
  | nil => simpa [aset] using h
  | cons q r ih =>
    obtain ⟨a, x⟩ := q
    unfold aset at h
    split at h
    · rcases List.mem_cons.1 h with rfl | h
      · exact .inl rfl
      · exact .inr (List.mem_cons_of_mem _ h)
    · split at h
      · rcases List.mem_cons.1 h with rfl | h
        · exact .inl rfl
        · exact .inr h
      · rcases List.mem_cons.1 h with rfl | h
        · exact .inr List.mem_cons_self
        · exact (ih h).imp_right (List.mem_cons_of_mem _)

theorem workless_congr {s t : State} {n : Nat} (hst : t.st = s.st) (hbench : t.bench = s.bench) (hfab : t.fab.clusters = s.fab.clusters)
    (h : s.workless n) : t.workless n := by
  unfold State.workless State.strands
  rw [hst, hbench, hfab]
  exact h

/-- A change of a cluster that gives it no job and no matrix operation. -/
theorem workless_modCluster {s : State} {n : Nat} (h : s.workless n) (c : Nat) {g : Cluster → Cluster}
    (hg : ∀ x, (g x).jobs = x.jobs ∧ (g x).mops = x.mops) : (s.modCluster c g).workless n := by
  obtain ⟨hstrands, hclusters⟩ := h
  refine ⟨hstrands, fun p hp => ?_⟩
  rcases mem_aset hp with rfl | hp
  · obtain ⟨hjobs, hmops⟩ := hg (s.fab.cluster c)
    dsimp only
    rw [hjobs, hmops]
    rcases aget_mem_or Cluster.fresh s.fab.clusters c with hmem | hfresh
    · exact hclusters _ hmem
    · have hnew : s.fab.cluster c = Cluster.fresh := hfresh
      rw [hnew]
      exact ⟨fun j hj => absurd hj List.not_mem_nil, fun o ho => absurd ho List.not_mem_nil⟩
  · exact hclusters p hp

/-- The signal of a vector changes pending bits and what is sent to the host only. -/
theorem signalVector_eq (s : State) (fn : Bool) (v : Nat) :
    ∃ host outbox, s.signalVector fn v = { s with host := host, sys := { s.sys with outbox := outbox } } := by
  unfold State.signalVector
  split
  · exact ⟨s.host, s.sys.outbox, rfl⟩
  · split
    · exact ⟨_, s.sys.outbox, rfl⟩
    · exact ⟨s.host, _, rfl⟩

theorem signalBoth_eq (s : State) (v : Nat) :
    ∃ host outbox, s.signalBoth v = { s with host := host, sys := { s.sys with outbox := outbox } } := by
  obtain ⟨_, _, h⟩ := signalVector_eq s false v
  obtain ⟨_, _, h'⟩ := signalVector_eq (s.signalVector false v) true v
  unfold State.signalBoth
  rw [h', h]
  exact ⟨_, _, rfl⟩

section Ending

variable {n : Nat} {ls : List Launch}

theorem ending_of_sameBut {s t : State} (h : s.sameBut t) (hs : s.ending n ls) : t.ending n ls := by
  obtain ⟨hst, hbench, hfab, -, -, -, -, -, -, -, -, hlaunches, -⟩ := h
  refine ⟨workless_congr hst hbench (congrArg Fabric.clusters hfab) hs.1, ?_⟩
  rw [hlaunches]
  exact hs.2

theorem ending_owe {s : State} (h : s.ending n ls) (o : Nat) (k : Link) : (s.owe o k).ending n ls := by
  unfold State.owe
  split
  · exact h
  · exact h

theorem ending_signalVector {s : State} (h : s.ending n ls) (fn : Bool) (v : Nat) : (s.signalVector fn v).ending n ls := by
  obtain ⟨_, _, heq⟩ := signalVector_eq s fn v
  rw [heq]
  exact h

theorem ending_rasEvent {s : State} (h : s.ending n ls) (c : Nat) : (s.rasEvent c).ending n ls :=
  ending_signalVector (ending_signalVector
    (show State.ending n ls (s.modCluster c fun x => { x with ras := x.ras ++ [s.lastSeq] }) from
      ⟨workless_modCluster h.1 c fun _ => ⟨rfl, rfl⟩, h.2⟩) false 1) true 1

theorem ending_wake {s : State} (h : s.ending n ls) (who : Strand → Bool) : (s.wake who).ending n ls := by
  obtain ⟨⟨hstrands, hclusters⟩, hlaunches⟩ := h
  refine ⟨⟨fun y hy => ?_, hclusters⟩, hlaunches⟩
  have hmap : (s.wake who).strands = s.strands.map fun t => if t.waiting && who t then { t with woken := true } else t := rfl
  rw [hmap] at hy
  obtain ⟨x, hx, rfl⟩ := List.mem_map.1 hy
  split
  · exact hstrands x hx
  · exact hstrands x hx

theorem ending_writeLoc (w : Who) (l : Loc) (bs : List Byte) : Keeps (State.ending n ls) (writeLoc w l bs) := by
  cases l with
  | hbm pa ten =>
    exact keeps_modify fun s h => ending_of_sameBut
      ((State.sameBut.refl s).onlyData ((onlyData_fillLine s w.cluster ten (pa / 64)).setCache _ _)) h
  | win key => exact keeps_modify fun _ h => h
  | host pa => exact keeps_modify fun s h => ending_owe (show State.ending n ls (s.modMem _) from h) _ _
  | peer d pa =>
    exact keeps_bind (keeps_of_reads (fun _ => reads_peerFails d) fun _ _ => ending_of_sameBut) fun _ => keeps_ite
      (keeps_modify fun s h => ending_rasEvent (show State.ending n ls (s.milepost 10 0 0 d 0) from h) _)
      (keeps_modify fun s h => ending_owe (show State.ending n ls (s.modMem _) from h) _ _)

theorem ending_pointWrite (w : Who) (sc : Scope) (l : Loc) (k v : Nat) : Keeps (State.ending n ls) (pointWrite w sc l k v) := by
  cases l with
  | hbm pa ten =>
    refine keeps_ite (keeps_bind (keeps_modify fun s h => ?_) fun _ => keeps_modify fun s h => ?_) (ending_writeLoc w _ _)
    · exact ending_of_sameBut ((State.sameBut.refl s).onlyData (onlyData_flushLine s _ _)) h
    · exact ending_of_sameBut (onlyHbm_devWrite s _ _ _).sameBut h
  | _ => exact ending_writeLoc w _ _

theorem ending_reads {α : Type} {m : M α} (hm : ∀ s : State, Keeps s.sameBut m) : Keeps (State.ending n ls) m :=
  keeps_of_reads hm fun _ _ => ending_of_sameBut

theorem ending_writeRecord (c : Ctx) (cra handle : Word) (status : Nat) (va : Word) :
    Keeps (State.ending n ls) (writeRecord c cra handle status va) := by
  have hput : ∀ off v, Keeps (State.ending n ls) (do
      let l ← translate c.who .store (cra + BitVec.ofNat 64 off) 8
      pointWrite c.who .sys l 8 v) := fun off v =>
    keeps_bind (ending_reads fun _ => reads_translate _ _ _ 8) fun _ => ending_pointWrite _ _ _ 8 v
  refine keeps_bind (ending_reads fun _ => reads_releaseEverywhere) fun _ =>
    keeps_bind (keeps_attempt (keeps_guard (keeps_raise _ _ _) ?_)) fun r => ?_
  · exact keeps_bind (hput 8 _) fun _ => keeps_bind (hput 16 _) fun _ => keeps_bind (hput 24 _) fun _ =>
      keeps_bind (ending_reads fun _ => reads_translate _ _ _ 8) fun _ =>
        keeps_bind (ending_reads fun _ => reads_hostAtomic _ _ _ _) fun _ =>
          keeps_bind (ending_reads fun _ => reads_pointRead _ _ _ _ 8) fun _ => ending_pointWrite _ _ _ 8 _
  · split
    · refine keeps_bind (keeps_modify fun s h => ?_) fun _ => keeps_pure _
      unfold State.signal
      split
      · exact h
      · exact ending_signalVector h _ _
    · exact keeps_throw _
    · exact keeps_pure _

/-- A launch that is finished is left no longer. -/
theorem leads_finishLaunch (l : Launch) (status : Nat) (va : Word) :
    Leads (State.ending n (l :: ls)) (finishLaunch l status va) (State.ending n ls) := by
  have hend : Leads (State.ending n (l :: ls)) (modify fun s => (s.modSys fun y =>
      { y with launches := y.launches.filter fun x => x.id ≠ l.id }).wake fun t => t.ctx == l.ctx : M PUnit) (State.ending n ls) := by
    refine leads_modify fun s h => ending_wake ?_ _
    refine ⟨h.1, fun x hx hctx => ?_⟩
    obtain ⟨hx, hne⟩ := List.mem_filter.1 hx
    obtain ⟨k, hk, hid⟩ := h.2 x hx hctx
    rcases List.mem_cons.1 hk with rfl | hk
    · exact absurd hid.symm (of_decide_eq_true hne)
    · exact ⟨k, hk, hid⟩
  refine leads_bind keeps_get.leads fun u => ?_
  split
  · exact hend
  · refine leads_bind (ending_writeRecord _ _ _ _ _).leads fun ok => leads_bind (Keeps.leads ?_) fun _ => hend
    exact keeps_ite (keeps_pure _) (keeps_modify fun _ h => h)

theorem leads_finishLaunches (ls : List Launch) (status : Nat) (va : Word) :
    Leads (State.ending n ls) (ls.forM fun l => finishLaunch l status va) (State.ending n []) := by
  induction ls with
  | nil => exact (keeps_pure _).leads
  | cons l r ih => exact leads_bind (leads_finishLaunch l status va) fun _ => ih

end Ending

/-- The part of a context's end that takes its strands, its matrix operations and its jobs. -/
def State.dropWork (n : Nat) (s : State) : State :=
  let s0 := s.strands.foldl (fun s1 t => if t.ctx = n ∧ t.stand ≠ .none then s1.share (2 * t.sid) else s1) s
  let s1 := s0.mapStrands fun t => if t.ctx = n ∧ t.stand ≠ .none then t.gone [] else t
  s1.modFab fun f => { f with clusters := f.clusters.map fun c => (c.1, { c.2 with
    mops := c.2.mops.filter fun o => o.ctx ≠ n
    jobs := c.2.jobs.filter fun j => j.ctx ≠ n }) }

theorem workless_dropWork (n : Nat) (s : State) : (s.dropWork n).workless n := by
  unfold State.dropWork
  generalize s.strands.foldl _ s = s0
  refine ⟨fun y hy hctx => ?_, fun c hc => ?_⟩
  · have hmap : y ∈ s0.strands.map fun t => if t.ctx = n ∧ t.stand ≠ .none then t.gone [] else t := hy
    obtain ⟨x, -, rfl⟩ := List.mem_map.1 hmap
    by_cases hx : x.ctx = n ∧ x.stand ≠ .none
    · rw [if_pos hx]
      rfl
    · rw [if_neg hx] at hctx ⊢
      exact Decidable.byContradiction fun hs => hx ⟨hctx, hs⟩
  · obtain ⟨c, -, rfl⟩ := List.mem_map.1 hc
    exact ⟨fun j hj => of_decide_eq_true (List.mem_filter.1 hj).2, fun o ho => of_decide_eq_true (List.mem_filter.1 ho).2⟩

/-- What the end of a context leaves. -/
theorem endContext_leaves (n status : Nat) (va : Word) {s t : State} (h : endContext n status va s = (.ok (), t)) :
    t.workless n ∧ (∀ l ∈ t.sys.launches, l.ctx ≠ n) ∧ ∀ c ∈ t.sys.ctxs, c.num = n → c.groups = [] := by
  have hleads : Leads (fun _ => True) (endContext n status va) fun t =>
      t.workless n ∧ (∀ l ∈ t.sys.launches, l.ctx ≠ n) ∧ ∀ c ∈ t.sys.ctxs, c.num = n → c.groups = [] := by
    unfold endContext
    refine leads_bind (Q := fun _ => True) (fun _ _ _ _ _ => trivial) fun _ =>
      leads_bind (leads_modify (R := fun t => t.workless n) fun s _ => workless_dropWork n s) fun _ => leads_get_bind fun u hu => ?_
    refine leads_bind (Q := State.ending n []) ((leads_finishLaunches (n := n) _ status va).of_imp ?_) fun _ => leads_modify fun w hw => ?_
    · rintro _ rfl
      exact ⟨hu, fun x hx hctx => ⟨x, List.mem_filter.2 ⟨hx, decide_eq_true hctx⟩, rfl⟩⟩
    · obtain ⟨hwork, hlaunches⟩ := hw
      refine ⟨hwork, fun l hl hctx => ?_, fun c hc hnum => ?_⟩
      · obtain ⟨k, hk, -⟩ := hlaunches l hl hctx
        exact absurd hk List.not_mem_nil
      · obtain ⟨b, -, rfl⟩ := List.mem_map.1 hc
        by_cases hb : b.num = n
        · rw [if_pos hb]
        · rw [if_neg hb] at hnum
          exact absurd hnum hb
  exact hleads s trivial () t h

end Sys2Proof.Machine
end

section
/-!
Contexts and links (O51): what arrives at the ingress and what a context's entry says; page requests and ATS invalidations; keyed and
insecure links (R73, R75, R76, R286, R289, R316, R318, R319).
-/

namespace Sys2Proof.Machine

/-! ### The ingress -/

/-- An access is performed as it arrives: its link is not cut, and no access of its function is held. -/
def State.takesNow (s : State) (a : Ingress) : Prop :=
  s.cut a = false ∧ (s.sys.held.any fun h => h.source.isSome && h.source == a.source) = false

theorem takesNow_of_linkFree {s : State} {fn : Bool} {a : Ingress} (h : s.linkFree fn) (ha : a.source = some fn) : s.takesNow a := by
  obtain ⟨hsecure, hheld⟩ := h
  unfold State.takesNow State.cut
  rw [ha]
  refine ⟨by simpa using hsecure, List.any_eq_false.2 fun x hx => ?_⟩
  have hne := hheld x hx
  simp [hne]

/-- The end of a context is nothing that a function sends. -/
theorem takesNow_endContext (s : State) (n : Nat) (fault : Option Word) : s.takesNow (.endContext n fault) := by
  refine ⟨rfl, List.any_eq_false.2 fun x _ => ?_⟩
  cases hx : x.source <;> simp [Ingress.source]

section Arrives

variable {s t : State} {a : Ingress}

theorem arrives_of_ok (h : s.takesNow a) (hp : performIngress a s = (.ok (), t)) : s.arrives a = t := by
  unfold State.arrives
  rw [h.1, h.2, hp]
  rfl

theorem arrives_of_error {e : Stop} (h : s.takesNow a) (hp : performIngress a s = (.error e, t)) :
    s.arrives a = (s.afterWait t).holding a := by
  unfold State.arrives
  rw [h.1, h.2, hp]
  rfl

end Arrives

/-! ### Activation and deactivation -/

theorem performIngress_activate {s : State} (fn : Bool) (n : Nat) (hrec : s.toll.recovery = false) :
    performIngress (.activate fn n) s =
      if s.heldRange (s.entryPa n) 64 then (.error .wait, s) else (.ok (), (s.activate n).1) := by
  unfold performIngress holdRange
  dsimp only
  rw [bind_get, if_neg (by rw [hrec]; decide)]
  by_cases hheld : s.heldRange (s.entryPa n) 64 = true
  · rw [if_pos hheld]
    exact bind_of_error (by rw [bind_get, if_pos hheld]; rfl)
  · rw [if_neg hheld]
    exact bind_of_ok (by rw [bind_get, if_neg hheld]; rfl)

theorem performIngress_deactivate {s : State} (fn : Bool) (n : Nat) (hrec : s.toll.recovery = false) :
    performIngress (.deactivate fn n) s = if s.ctx? n = none then (.ok (), s) else deactivate n s := by
  unfold performIngress
  dsimp only
  rw [bind_get, hrec]
  cases hctx : s.ctx? n <;> rfl

theorem performIngress_endContext (s : State) (n : Nat) (fault : Option Word) :
    performIngress (.endContext n fault) s =
      if s.ctx? n = none then (.ok (), s) else endContext n (if fault = none then 0xFE else 0x15) (fault.getD 0) s := by
  unfold performIngress
  dsimp only
  rw [bind_get]
  cases hctx : s.ctx? n
  · rfl
  · cases fault <;> rfl

theorem deactivate_of_ok {s t : State} {n : Nat} (h : endContext n 0xFE 0 s = (.ok (), t)) :
    deactivate n s = (.ok (), t.forgetCtx n) :=
  bind_of_ok h

theorem deactivate_of_error {s t : State} {n : Nat} {e : Stop} (h : endContext n 0xFE 0 s = (.error e, t)) :
    deactivate n s = (.error e, t) :=
  bind_of_error h

theorem forgetCtx_ctx? (s : State) (n : Nat) : (s.forgetCtx n).ctx? n = none :=
  List.find?_eq_none.2 fun c hc => by simpa using (List.mem_filter.1 hc).2

theorem forgetCtx_cores (s : State) (n : Nat) : ∀ q ∈ (s.forgetCtx n).fab.cores, q.2.ctx ≠ some n := by
  intro q hq
  obtain ⟨k, -, rfl⟩ := List.mem_map.1 hq
  by_cases hk : k.2.ctx = some n
  · simp [hk]
  · simp [hk]

/-- What the valid bit and the fields that must be zero of an entry say. -/
theorem entryValid_iff (x : Nat) : entryValid x = true ↔ x / 2 ^ 511 % 2 = 1 ∧ x / 2 ^ 429 % 2 ^ 82 = 0 ∧ x / 2 ^ 404 % 2 ^ 12 = 0 := by
  unfold entryValid bitAt bitsAt
  simp only [Bool.and_eq_true, beq_iff_eq, and_assoc]

theorem entryValid_of_bad {x : Nat} (h : x / 2 ^ 511 % 2 = 0 ∨ x / 2 ^ 429 % 2 ^ 82 ≠ 0 ∨ x / 2 ^ 404 % 2 ^ 12 ≠ 0) :
    ¬ entryValid x = true := by
  rw [entryValid_iff]
  rintro ⟨hv, hzero, hzero'⟩
  rcases h with h | h | h
  · omega
  · exact h hzero
  · exact h hzero'

theorem activate_of_active {s : State} {n : Nat} (h : s.ctx? n ≠ none) : (s.activate n).1 = s := by
  unfold State.activate
  cases hctx : s.ctx? n with
  | none => exact absurd hctx h
  | some c => rfl

/-- The entry of a context that is not active, where it can be read. -/
theorem activate_of_readable {s : State} {n : Nat} (hctx : s.ctx? n = none) (hcap : s.entryPa n + 64 ≤ s.capacity)
    (hclean : s.linePoison (s.entryPa n / 64) = false) :
    (s.activate n).1 = if entryValid (leNat (s.devRead 0 (s.entryPa n) 64)) then
      s.modSys fun y => { y with ctxs := y.ctxs ++ [parseCtx n (leNat (s.devRead 0 (s.entryPa n) 64))] } else s := by
  unfold State.activate
  dsimp only
  rw [hctx, hclean, if_neg (by simp), if_neg (by simpa using hcap), apply_ite Prod.fst]

section Commands

variable {s : State} {fn : Bool} (n : BitVec 8) (hfree : s.linkFree fn) (hrec : s.toll.recovery = false)
include hfree hrec

theorem exec_activate_held (hheld : s.heldRange (s.entryPa n.toNat) 64 = true) :
    exec (.ctxactActivate ⟨fn, n⟩) s = .next (s.holding (.activate fn n.toNat)) :=
  congrArg Host.Outcome.next (arrives_of_error (takesNow_of_linkFree hfree rfl)
    ((performIngress_activate fn _ hrec).trans (if_pos hheld)))

theorem exec_activate (hheld : s.heldRange (s.entryPa n.toNat) 64 = false) :
    exec (.ctxactActivate ⟨fn, n⟩) s = .next (s.activate n.toNat).1 :=
  congrArg Host.Outcome.next (arrives_of_ok (takesNow_of_linkFree hfree rfl)
    ((performIngress_activate fn _ hrec).trans (if_neg (ne_true_of_eq_false hheld))))

theorem exec_deactivate_none (hctx : s.ctx? n.toNat = none) : exec (.ctxactDeactivate ⟨fn, n⟩) s = .next s :=
  congrArg Host.Outcome.next (arrives_of_ok (takesNow_of_linkFree hfree rfl)
    ((performIngress_deactivate fn n.toNat hrec).trans (if_pos hctx)))

theorem exec_deactivate_ended (hctx : s.ctx? n.toNat ≠ none) {t : State} (ht : endContext n.toNat 0xFE 0 s = (.ok (), t)) :
    exec (.ctxactDeactivate ⟨fn, n⟩) s = .next (t.forgetCtx n.toNat) :=
  congrArg Host.Outcome.next (arrives_of_ok (takesNow_of_linkFree hfree rfl)
    (((performIngress_deactivate fn n.toNat hrec).trans (if_neg hctx)).trans (deactivate_of_ok ht)))

theorem exec_deactivate_waits (hctx : s.ctx? n.toNat ≠ none) {e : Stop} {t : State}
    (ht : endContext n.toNat 0xFE 0 s = (.error e, t)) :
    exec (.ctxactDeactivate ⟨fn, n⟩) s = .next ((s.afterWait t).holding (.deactivate fn n.toNat)) :=
  congrArg Host.Outcome.next (arrives_of_error (takesNow_of_linkFree hfree rfl)
    (((performIngress_deactivate fn n.toNat hrec).trans (if_neg hctx)).trans (deactivate_of_error ht)))

end Commands

/-! ### Page requests -/

theorem answerPri_pri (s : State) (k j : Nat) (ans : Option Nat) {p : Pri} (h : s.sys.pri[j]? = some p) :
    (s.answerPri k ans).sys.pri[j]? = some (if j = k ∧ p.answer = none then { p with answer := some ans } else p) := by
  have hpri : (s.answerPri k ans).sys.pri = s.sys.pri.zipIdx.map fun p =>
    if p.2 = k ∧ p.1.answer.isNone then { p.1 with answer := some ans } else p.1 := rfl
  simp [hpri, h]

/-! ### Insecure links -/

theorem rasEvent_recorded (s : State) (kind new old object count c : Nat) :
    s.recorded ((s.milepost kind new old object count).rasEvent c) kind new old object count := by
  obtain ⟨_, _, heq⟩ := signalBoth_eq ((s.milepost kind new old object count).modCluster c fun x =>
    { x with ras := x.ras ++ [(s.milepost kind new old object count).lastSeq] }) 1
  unfold State.rasEvent
  rw [heq]
  refine ⟨fun h => ⟨_, if_pos h, rfl, rfl, rfl, rfl, rfl, rfl⟩, fun h => if_neg (by omega), fun h => if_pos (by omega)⟩

/-- The event of an insecure link stands in the service queue, with the number of its record. -/
theorem rasEvent_ras (s : State) (c : Nat) : ((s.rasEvent c).cluster c).ras = (s.cluster c).ras ++ [s.lastSeq] := by
  obtain ⟨host, outbox, heq⟩ := signalBoth_eq (s.modCluster c fun x => { x with ras := x.ras ++ [s.lastSeq] }) 1
  have hfab : (s.rasEvent c).fab = (s.modCluster c fun x => { x with ras := x.ras ++ [s.lastSeq] }).fab := by
    unfold State.rasEvent
    rw [heq]
  unfold State.cluster
  rw [hfab]
  exact congrArg Cluster.ras ((cluster_modCluster s c _ c).trans (if_pos rfl))

theorem rasEvent_leaves (s : State) (c : Nat) :
    s.untouched (s.rasEvent c) ∧ (s.rasEvent c).sys.launches = s.sys.launches ∧ (s.rasEvent c).sys.held = s.sys.held ∧
    (s.rasEvent c).toll = s.toll := by
  obtain ⟨_, _, heq⟩ := signalBoth_eq (s.modCluster c fun x => { x with ras := x.ras ++ [s.lastSeq] }) 1
  unfold State.rasEvent
  rw [heq]
  exact ⟨⟨rfl, rfl, rfl, rfl⟩, rfl, rfl, rfl⟩

/-- A link whose stream has become insecure: its traffic stops, and what it owed is void (R318). -/
def State.cutLink (fn : Bool) (s : State) : State :=
  { s with
    host := { s.host with
      insecure := if s.host.insecure.contains fn then s.host.insecure else s.host.insecure ++ [fn]
      ideKeys := s.host.ideKeys.filter fun k => k.1 ≠ fn }
    sys := { s.sys with owed := s.sys.owed.filter fun o => o.link ≠ .host fn } }

theorem mem_addOnce {α : Type} [BEq α] [LawfulBEq α] (l : List α) (a b : α) :
    b ∈ (if l.contains a then l else l ++ [a]) ↔ b ∈ l ∨ b = a := by
  split
  next h => exact ⟨.inl, fun hb => hb.elim id fun hb => hb ▸ List.contains_iff_mem.1 h⟩
  next => simp

theorem cutLink_insecure (fn : Bool) (s : State) : fn ∈ (s.cutLink fn).host.insecure :=
  (mem_addOnce s.host.insecure fn fn).2 (.inr rfl)

theorem cutLink_ideKeys (fn : Bool) (s : State) : ∀ q ∈ (s.cutLink fn).host.ideKeys, q.1 ≠ fn :=
  fun _ hq => of_decide_eq_true (List.mem_filter.1 hq).2

theorem mem_cutLink_owed (fn : Bool) (s : State) (o : Owed) :
    o ∈ (s.cutLink fn).sys.owed ↔ o ∈ s.sys.owed ∧ o.link ≠ .host fn := by
  refine List.mem_filter.trans (and_congr_right fun _ => ?_)
  simp

/-! ### The obligation -/

/-- Settles O51: each access is performed as it arrives, by the laws of the ingress, of a context's entry and of its end. -/
theorem contextsAndLinks : Obligations.ContextsAndLinks := by
  intro s n k g asid pg fn st pa x field
  refine ⟨fun hfree hrec hheld => exec_activate_held n hfree hrec hheld, fun hfree hrec hheld => ?_,
    fun hfree hrec hctx => ⟨fun t ht => ?_, fun e t ht => exec_deactivate_waits n hfree hrec hctx ht⟩,
    fun hfree hrec hctx => exec_deactivate_none n hfree hrec hctx,
    fun m fault => ⟨fun hctx => ?_, fun hctx => ⟨fun t ht => ?_, fun e t ht => ?_⟩, fun t ht => ?_⟩,
    fun i ans hi => ?_, ?_, ?_, fun hkeys => ?_, fun hkeys => ?_⟩
  · rw [exec_activate n hfree hrec hheld]
    refine ⟨fun hctx => congrArg Host.Outcome.next (activate_of_active hctx), fun hctx hcap hclean => ?_⟩
    rw [activate_of_readable hctx hcap hclean]
    refine ⟨fun hbad => congrArg Host.Outcome.next (if_neg (entryValid_of_bad hbad)), fun hv hz hz' => ?_⟩
    exact ⟨parseCtx n.toNat x, congrArg Host.Outcome.next (if_pos ((entryValid_iff x).2 ⟨hv, hz, hz'⟩)), rfl, rfl, rfl, rfl, rfl, rfl,
      rfl, rfl, rfl, rfl, rfl, bitAt_iff x 427, bitAt_iff x 428, rfl, rfl, rfl⟩
  · exact ⟨_, exec_deactivate_ended n hfree hrec hctx ht, forgetCtx_ctx? t _, forgetCtx_cores t _, rfl, rfl, rfl⟩
  · exact arrives_of_ok (takesNow_endContext s m fault) ((performIngress_endContext s m fault).trans (if_pos hctx))
  · exact arrives_of_ok (takesNow_endContext s m fault) ((performIngress_endContext s m fault).trans ((if_neg hctx).trans ht))
  · exact arrives_of_error (takesNow_endContext s m fault) ((performIngress_endContext s m fault).trans ((if_neg hctx).trans ht))
  · obtain ⟨⟨hstrands, hclusters⟩, hlaunches, hgroups⟩ := endContext_leaves m _ _ ht
    exact ⟨hstrands, hlaunches, hclusters, hgroups⟩
  · have hans : exec i s = .next (s.answerPri k ans) := by
      rcases hi with ⟨rfl, rfl⟩ | ⟨rfl, rfl⟩ <;> rfl
    refine ⟨_, hans, ?_, ⟨rfl, rfl, rfl, rfl⟩, fun j p hp => answerPri_pri s k j ans hp⟩
    simp [State.answerPri, State.modSys]
  · refine ⟨_, rfl, rfl, rfl, rfl, fun e => List.mem_filter.trans (and_congr_right fun _ => ?_),
      fun q => List.mem_filter.trans (and_congr_right fun _ => ?_)⟩
    · cases pg <;> simp [imp_iff_not_or]
    · cases pg <;> simp [imp_iff_not_or]
  · refine ⟨_, rfl, (mem_addOnce s.host.ideKeys (fn, st.val) _).2 (.inr rfl), fun h => ?_, fun q hq => ?_, rfl, rfl, rfl, rfl⟩
    · exact of_decide_eq_true (List.mem_filter.1 h).2 rfl
    · exact (mem_addOnce s.host.ideKeys (fn, st.val) q).trans (or_iff_left hq)
  · have hany : (s.host.ideKeys.any fun k => k.1 = fn) = false :=
      List.any_eq_false.2 fun q hq => by simpa using hkeys q hq
    exact if_pos (by rw [hany]; rfl)
  · have hany : ¬ (!s.host.ideKeys.any fun k => k.1 = fn) = true := by
      obtain ⟨q, hq, hfn⟩ := hkeys
      rw [List.any_eq_true.2 ⟨q, hq, decide_eq_true hfn⟩]
      decide
    let s2 := (s.sys.ctxs.filter fun c => c.hfn = fn).foldl (fun u c => u.arrives (.endContext c.num none)) (s.cutLink fn)
    obtain ⟨hleaves, hlaunches, hheld, htoll⟩ := rasEvent_leaves (s2.milepost 10 0 0 0 0) Sys2Proof.Config.deviceQueue
    refine ⟨s.cutLink fn, _, if_neg hany, cutLink_insecure fn s, cutLink_ideKeys fn s, mem_cutLink_owed fn s, ⟨rfl, rfl, rfl, rfl⟩,
      rfl, rfl, rasEvent_recorded s2 10 0 0 0 0 _, hleaves, hlaunches, hheld, ?_⟩
    rw [rasEvent_ras]
    exact congrArg (fun l => _ ++ [List.length l]) (congrArg Toll.milepost htoll.symm)

end Sys2Proof.Machine
end

section
/-!
What the evaluation of a pass reads (R142 to R147, R165 to R167): the elements of its nodes, the folds and the targets of its sinks, and the
chunks that it drew on change nothing but what reading changes.
-/

namespace Sys2Proof.Machine

section Elements

variable {s : State}

/-! ### Accesses of an element -/

theorem reads_bywayRead (w : Who) (va : Word) (n : Nat) : Keeps s.sameBut (bywayRead w va n) := by
  refine keeps_bind (reads_translate w .load va n) fun l => ?_
  cases l with
  | hbm pa ten =>
    exact keeps_bind (reads_onlyData fun t => onlyData_cleanLines t _ _) fun _ => keeps_bind keeps_get fun _ =>
      keeps_guard (keeps_raise _ _ _) (keeps_pure _)
  | _ => exact reads_readClean w va _ n _

theorem reads_readSpan (w : Who) (size : Nat) (va : Word) (n fuel : Nat) : Keeps s.sameBut (readSpan w size va n fuel) := by
  induction fuel generalizing va n with
  | zero => exact keeps_pure _
  | succ fuel ih =>
    refine keeps_ite (keeps_pure _) (keeps_bind (reads_translate w .load va size) fun l => keeps_bind (reads_readLoc w va l _) fun r => ?_)
    have hrest : ∀ va n, Keeps s.sameBut (readSpan w size va n fuel >>= fun r' => pure (r.1 ++ r')) :=
      fun va n => keeps_bind (ih va n) fun _ => keeps_pure _
    exact keeps_ite (keeps_bind keeps_get fun _ => keeps_bind (keeps_raise _ _ _) fun _ => hrest _ _) (hrest _ _)

theorem reads_readChunk (w : Who) (size : Nat) (d : Desc) (j : Nat) : Keeps s.sameBut (readChunk w size d j) := by
  refine keeps_bind (reads_readSpan w size _ 16 2) fun h => keeps_guard (keeps_raise _ _ _)
    (keeps_bind (reads_readSpan w size _ _ _) fun data => ?_)
  split
  · exact keeps_raise _ _ _
  · exact keeps_pure _

theorem readsE_chunkFor (x : Strip) (node e : Nat) (b : Word) (d : Desc) (j : Nat) : KeepsE s.sameBut (chunkFor x node e b d j) := by
  refine keepsE_bind keepsE_get fun v => ?_
  split
  · exact keepsE_bind (keepsE_modify _) fun _ => keepsE_pure _
  · refine keepsE_bind (keepsE_atElem e node b (reads_readChunk _ _ d j)) fun r => ?_
    split
    · exact keepsE_pure _
    · exact keepsE_bind (keepsE_touch _ _ _) fun _ => keepsE_bind (keepsE_modify _) fun _ => keepsE_pure _

theorem readsE_chanterElem (x : Strip) (w : Waypoint) (node e : Nat) (d : Desc) (tid row col : Nat) {code : E (Option Nat)}
    (hcode : KeepsE s.sameBut code) : KeepsE s.sameBut (chanterElem x w node e d tid row col code) := by
  refine keepsE_bind (keepsE_touch _ _ _) fun _ => keepsE_bind (keepsE_atElem e node w.pc (reads_loadAt _ _ 4)) fun h => ?_
  split
  · exact keepsE_pure _
  · refine keepsE_bind (keepsE_atElem e node w.pc (reads_checkHeader _ d tid _ _)) fun ls => ?_
    split
    · exact keepsE_pure _
    · refine keepsE_bind hcode fun c => ?_
      split
      · exact keepsE_pure _
      · exact keepsE_bind (keepsE_noteFlags _ _ _ _ _) fun _ => keepsE_pure _

theorem readsE_tensorElem (x : Strip) (w : Waypoint) (node e : Nat) (t : Ty) (tid row col : Nat) (gather : Bool) :
    KeepsE s.sameBut (tensorElem x w node e t tid row col gather) := by
  have hread : ∀ w va n, Keeps s.sameBut ((if gather then bywayRead else loadAt) w va n) := by
    cases gather with
    | true => exact reads_bywayRead
    | false => exact reads_loadAt
  have htouch : ∀ va, KeepsE s.sameBut (touch node va (szOf t)) := fun va => keepsE_touch node va (szOf t)
  have hrd := fun va nib => keepsE_bind (htouch va) fun _ =>
    keepsE_bind (keepsE_atElem e node w.pc (hread (x.who e) va (szOf t))) fun r =>
      keepsE_pure (r.map fun raw => pickCode t raw nib)
  exact keepsE_ite (readsE_chanterElem x w node e _ tid row col (hrd _ _)) (keepsE_orLost (hrd _ _) _)

theorem readsE_chunkElem (x : Strip) (w : Waypoint) (node e : Nat) (t : Ty) (tid i : Nat) :
    KeepsE s.sameBut (chunkElem x w node e t tid i) := by
  have hrd : ∀ j (f : List Byte → Nat), KeepsE s.sameBut (do
      match ← chunkFor x node e w.pc (x.p.desc tid) j with
      | none => pure none
      | some bs => pure (some (f bs))) := by
    intro j f
    refine keepsE_bind (readsE_chunkFor x node e w.pc _ j) fun r => ?_
    cases r with
    | none => exact keepsE_pure _
    | some bs => exact keepsE_pure _
  exact keepsE_ite (readsE_chanterElem x w node e _ tid _ _ (hrd _ _)) (keepsE_orLost (hrd _ _) _)

theorem readsE_directRead (x : Strip) (node e : Nat) (b : Word) (f : Form) (va : Word) (n : Nat) :
    KeepsE s.sameBut (directRead x node e b f va n) := by
  have hload := keepsE_atElem e node b (reads_loadAt (s := s) (x.who e) va n)
  refine keepsE_bind (keepsE_touch _ _ _) fun _ => ?_
  split
  · exact hload
  · refine keepsE_bind keepsE_get fun v => ?_
    split
    · exact keepsE_pure _
    · exact keepsE_bind hload fun _ => keepsE_bind (keepsE_modify _) fun _ => keepsE_pure _

/-! ### The elements of the waypoints -/

theorem readsE_evalElem (x : Strip) (node : Nat) (w : Waypoint) (r : Res) (e : Nat) (ss : List Elem) :
    KeepsE s.sameBut (evalElem x node w r e ss) := by
  unfold evalElem
  generalize w.op = op
  cases op with
  | vld | vlds | vldt =>
    dsimp only [WOp.direct]
    exact keepsE_orLost (readsE_directRead x node e w.pc _ _ _) _
  | vldx tid mt =>
    refine keepsE_ite (keepsE_pure _) (keepsE_ite ?_ (readsE_tensorElem x w node e mt tid _ _ true))
    exact keepsE_bind (keepsE_noteFault _ _ _ _ _ _) fun _ => keepsE_pure _
  | vldtd => exact readsE_tensorElem x w node e _ _ _ _ false
  | vldz => exact readsE_chunkElem x w node e _ _ _
  | vfp | fma | cmpF => exact keepsE_valueOr (keepsE_ofFmt w node e _ _)
  | cvt => exact keepsE_valueOr (keepsE_flagged _ _ _ _)
  | scan => exact keepsE_valueOr (keepsE_scanElem _ _ _ _ _)
  | vint | cmpI | pred | mov | reint => exact keepsE_valueOr (keepsE_pure _)
  | sel =>
    dsimp only
    split
    · exact keepsE_ite (keepsE_pure _) (keepsE_pure _)
    · exact keepsE_pure _
  | perm => exact keepsE_ite (keepsE_pure _) (keepsE_pure _)
  | bcast | slide | rand | randf | idx | rowres => exact keepsE_pure _

theorem readsE_evalWp (x : Strip) (node : Nat) (w : Waypoint) (r : Res) : KeepsE s.sameBut (evalWp x node w r) := by
  refine keepsE_foldlM (fun acc i => keepsE_ite (keepsE_pure _) ?_) _ _
  split
  · exact keepsE_guard (keepsE_scanLose _ _ _) (keepsE_pure _)
  · refine keepsE_bind (keepsE_scanLost _ _) fun _ => keepsE_ite (keepsE_pure _) ?_
    exact keepsE_bind (readsE_evalElem x node w r _ _) fun _ => keepsE_bind (keepsE_scanLose _ _ _) fun _ =>
      keepsE_guard (keepsE_countActive _) (keepsE_pure _)

theorem readsE_evalNodes (x : Strip) (want : Nat → Bool) (ns : List Node) : KeepsE s.sameBut (evalNodes x want ns) := by
  refine keepsE_foldlM (fun r n => ?_) _ _
  cases n with
  | sink k => exact keepsE_pure _
  | wp w more =>
    exact keepsE_foldlM (fun r v => keepsE_ite (keepsE_bind (readsE_evalWp x _ v r) fun _ => keepsE_pure _) (keepsE_pure _)) _ _

theorem reads_evalAhead (x : Strip) (roots : List Nat) (parts : List Partial) : Keeps s.sameBut (evalAhead x roots parts) := by
  have hgo := fun y want ns => keeps_bind (readsE_evalNodes (s := s) y want ns (Ev.start parts)) fun r : Res × Ev =>
    keeps_pure (r.1, r.2.best)
  refine keeps_bind (keeps_probe _) fun r => ?_
  split
  · exact keeps_pure _
  · exact hgo _ _ _

end Elements

section Sinks

variable {s : State}

/-! ### The targets of a store -/

theorem readsE_targetOf (x : Strip) (k : Sink) (e : Nat) (va : Word) (n size : Nat) : KeepsE s.sameBut (targetOf x k e va n size) :=
  keepsE_bind (keepsE_touch _ _ _) fun _ => keepsE_atElem e k.id k.pc (reads_translate _ _ va size)

theorem reads_addTarget (w : Who) (va : Word) (n : Nat) : Keeps s.sameBut (addTarget w va n) := by
  refine keeps_bind (reads_translate w .atomic va n) fun l => keeps_bind keeps_get fun t => ?_
  cases l with
  | hbm pa ten => exact keeps_ite (keeps_raise _ _ _) (keeps_pure _)
  | win key => exact keeps_ite (keeps_raise _ _ _) (keeps_pure _)
  | host pa => exact keeps_pure _
  | peer d pa => exact keeps_bind (reads_peerFails d) fun _ => keeps_ite (keeps_raise _ _ _) (keeps_pure _)

/-- The writes of a location that is found, where it is. -/
theorem keepsE_orNone {P : State → Prop} {m : E (Option Loc)} (hm : KeepsE P m) (d : List Wr) (f : Loc → List Wr) :
    KeepsE P (do
      match ← m with
      | none => pure d
      | some l => pure (f l)) := by
  refine keepsE_bind hm fun r => ?_
  cases r with
  | none => exact keepsE_pure _
  | some c => exact keepsE_pure _

theorem readsE_tailWrites (x : Strip) (k : Sink) (e : Nat) (sp : Int × Int) : KeepsE s.sameBut (tailWrites x k e sp) := by
  have hn : ∀ (half : List Wr) va n size (f : Loc → List Wr), KeepsE s.sameBut (do
      if n = 0 then pure half
      else
        match ← targetOf x k e va n size with
        | none => pure half
        | some l => pure (half ++ f l)) := fun half va n size f =>
    keepsE_ite (keepsE_pure _) (keepsE_orNone (readsE_targetOf x k e va n size) half fun l => half ++ f l)
  exact keepsE_bind (keepsE_ite (keepsE_orNone (readsE_targetOf x k e _ 1 _) _ _) (keepsE_pure _)) fun half => hn half _ _ _ _

theorem readsE_tailAfter (x : Strip) (k : Sink) (e : Nat) : KeepsE s.sameBut (tailAfter x k e) := by
  refine keepsE_ite ?_ (keepsE_pure _)
  split
  · exact keepsE_pure _
  · exact readsE_tailWrites x k e _

theorem readsE_storeElem (x : Strip) (k : Sink) (r : Res) (e i : Nat) : KeepsE s.sameBut (storeElem x k r e i) := by
  have hat : ∀ va (f : Loc → List Wr), KeepsE s.sameBut (do
      match ← target x k e va (szOf (k.ty.getD .i8)) with
      | none => pure []
      | some l => pure (f l) : E (List Wr)) := fun va f => keepsE_orNone (readsE_targetOf x k e va _ _) [] f
  unfold storeElem
  generalize hop : k.op = op
  cases op with
  | vst | vsts | vstt =>
    refine keepsE_foldlM (fun acc q => ?_) _ _
    split
    · exact keepsE_pure _
    · exact keepsE_bind (hat _ _) fun _ => keepsE_pure _
  | vstx tid =>
    exact keepsE_ite (keepsE_bind (keepsE_noteFault _ _ _ _ _ _) fun _ => keepsE_pure _) (hat _ _)
  | vstxadd tid =>
    exact keepsE_ite (keepsE_bind (keepsE_noteFault _ _ _ _ _ _) fun _ => keepsE_pure _)
      (keepsE_bind (keepsE_touch _ _ _) fun _ => keepsE_orNone (keepsE_atElem e k.id k.pc (reads_addTarget _ _ _)) _ _)
  | vsttd row col tid => exact hat _ _
  | vstcmp base d => exact keepsE_bind keepsE_get fun _ => keepsE_bind (keepsE_modify _) fun _ => hat _ _
  | vstc | red | rowred => exact keepsE_pure _

/-! ### Quantised blocks -/

theorem reads_candTables (w : Who) (d : Desc) (tid : Nat) : Keeps s.sameBut (candTables w d tid) :=
  keeps_ite (keeps_mapM _ fun _ => keeps_bind (reads_readTable w d tid _) fun _ => keeps_pure _) (keeps_pure _)

theorem readsE_writeBlock (x : Strip) (k : Sink) (e tid row b : Nat) (els : List BlockElem) :
    KeepsE s.sameBut (writeBlock x k e tid row b els) := by
  refine keepsE_bind (keepsE_atElem e k.id k.pc (reads_candTables _ _ tid)) fun r => ?_
  cases r with
  | none => exact keepsE_pure _
  | some tabs =>
    refine keepsE_bind (readsE_targetOf x k e _ _ _) fun l1 => keepsE_bind (readsE_targetOf x k e _ _ _) fun l2 =>
      keepsE_bind (keepsE_modify _) fun _ => ?_
    split
    · exact keepsE_pure _
    · exact keepsE_pure _

theorem readsE_quantElem (x : Strip) (k : Sink) (r : Res) (row0 col0 : Int) (tid e i : Nat) :
    KeepsE s.sameBut (quantElem x k r row0 col0 tid e i) := by
  refine keepsE_ite (keepsE_pure _) (keepsE_guard (keepsE_countActive _) (keepsE_guard (keepsE_noteFlags _ _ _ _ _) ?_))
  exact keepsE_bind keepsE_get fun v => keepsE_ite
    (keepsE_bind (keepsE_modify _) fun _ => readsE_writeBlock x k e tid _ _ _)
    (keepsE_bind (keepsE_modify _) fun _ => keepsE_pure _)

theorem readsE_evalStore (x : Strip) (k : Sink) (r : Res) : KeepsE s.sameBut (evalStore x k r) := by
  refine keepsE_foldlM (fun acc i => ?_) _ _
  dsimp only
  split
  · exact keepsE_bind (readsE_quantElem x k r _ _ _ _ i) fun _ => keepsE_pure _
  · exact keepsE_bind (keepsE_ite (keepsE_bind (keepsE_countActive _) fun _ => readsE_storeElem x k r _ i) (keepsE_pure _)) fun _ =>
      keepsE_bind (readsE_tailAfter x k _) fun _ => keepsE_pure _

theorem readsE_lateBlocks (x : Strip) (k : Sink) (e : Nat) : KeepsE s.sameBut (lateBlocks x k e) := by
  unfold lateBlocks
  split
  · exact keepsE_bind keepsE_get fun v => keepsE_bind (keepsE_modify _) fun _ =>
      keepsE_foldlM (fun acc b => keepsE_bind (readsE_writeBlock x k e _ _ _ _) fun _ => keepsE_pure _) _ _
  · exact keepsE_pure _

theorem readsE_lateWrites (x : Strip) (k : Sink) : KeepsE s.sameBut (lateWrites x k) := by
  refine keepsE_ite (keepsE_bind ?_ fun _ => keepsE_bind (readsE_lateBlocks x k _) fun _ => keepsE_pure _) (keepsE_pure _)
  split
  · exact keepsE_pure _
  · exact readsE_tailWrites x k _ _

/-! ### Folds -/

theorem readsE_contributesLater (x : Strip) (k : Sink) (stop : Nat) : KeepsE s.sameBut (contributesLater x k stop) :=
  keepsE_ite (keepsE_pure _) (keepsE_bind keepsE_get fun _ => keepsE_bind (keepsE_lift (reads_evalAhead _ _ _)) fun _ => keepsE_pure _)

theorem readsE_loneNan (x : Strip) (k : Sink) (t : Ty) (before : Option Nat) (cs : List (Nat × Option Nat)) (stop : Nat)
    (sum : Option Nat) : KeepsE s.sameBut (loneNan x k t before cs stop sum) := by
  unfold loneNan
  split
  · exact keepsE_ite (keepsE_bind (readsE_contributesLater x k stop) fun _ =>
      keepsE_ite (keepsE_bind (keepsE_noteFlags _ _ _ _ _) fun _ => keepsE_pure _) (keepsE_pure _)) (keepsE_pure _)
  · exact keepsE_pure _

theorem keepsE_foldSum {P : State → Prop} (k : Sink) (t : Ty) (acc : Option Nat) (els : List (Nat × Nat)) :
    KeepsE P (foldSum k t acc els) :=
  keepsE_foldlM (fun _ _ => keepsE_bind (keepsE_noteFlags _ _ _ _ _) fun _ => keepsE_pure _) _ _

theorem keepsE_foldTree {P : State → Prop} (x : Strip) (k : Sink) (t : Ty) (acc : Option Nat) (cs : List (Nat × Option Nat)) :
    KeepsE P (foldTree x k t acc cs) := by
  unfold foldTree
  dsimp only
  split
  · exact keepsE_pure _
  · exact keepsE_bind (keepsE_foldlM (fun _ _ => keepsE_bind (keepsE_noteFlags _ _ _ _ _) fun _ => keepsE_pure _) _ _) fun _ =>
      keepsE_ite (keepsE_pure _) (keepsE_bind (keepsE_noteFlags _ _ _ _ _) fun _ => keepsE_pure _)

theorem keepsE_foldJoin {P : State → Prop} (k : Sink) (m : Nat) (t : Ty) (acc : Option Nat) (els : List (Nat × Nat)) :
    KeepsE P (foldJoin k m t acc els) :=
  keepsE_foldlM (fun _ _ => keepsE_bind (keepsE_noteFlags _ _ _ _ _) fun _ => keepsE_pure _) _ _

theorem keepsE_putAcc {P : State → Prop} (k : Sink) (row : Nat) (v : Option Nat) : KeepsE P (putAcc k row v) := by
  cases v with
  | none => exact keepsE_pure _
  | some v => exact keepsE_modify _

theorem keepsE_forM {P : State → Prop} {α : Type} (l : List α) {f : α → E PUnit} (h : ∀ a, KeepsE P (f a)) : KeepsE P (l.forM f) := by
  induction l with
  | nil => exact keepsE_pure _
  | cons a r ih => exact keepsE_bind (h a) fun _ => ih

theorem readsE_evalFold (x : Strip) (k : Sink) (r : Res) : KeepsE s.sameBut (evalFold x k r) := by
  refine keepsE_bind (keepsE_forM _ fun _ => keepsE_countActive _) fun _ => keepsE_bind keepsE_get fun v => ?_
  split
  · refine keepsE_ite (keepsE_bind (keepsE_ite (keepsE_foldSum _ _ _ _) (keepsE_foldTree _ _ _ _ _)) fun _ =>
      keepsE_bind (readsE_loneNan _ _ _ _ _ _ _) fun _ => keepsE_putAcc _ _ _) (keepsE_ite ?_ (keepsE_ite (keepsE_putAcc _ _ _)
        (keepsE_bind (keepsE_foldJoin _ _ _ _ _) fun _ => keepsE_putAcc _ _ _)))
    split
    · exact keepsE_putAcc _ _ _
    · exact keepsE_pure _
  · exact keepsE_forM _ fun row => keepsE_ite (keepsE_bind (keepsE_foldJoin _ _ _ _ _) fun _ => keepsE_putAcc _ _ _)
      (keepsE_bind (keepsE_foldSum _ _ _ _) fun _ => keepsE_bind (readsE_loneNan _ _ _ _ _ _ _) fun _ => keepsE_putAcc _ _ _)
  · exact keepsE_pure _

theorem readsE_evalSink (x : Strip) (k : Sink) (r : Res) : KeepsE s.sameBut (evalSink x k r) := by
  unfold evalSink
  split
  · exact keepsE_bind (readsE_evalFold x k r) fun _ => keepsE_pure _
  · exact keepsE_bind (readsE_evalFold x k r) fun _ => keepsE_pure _
  · exact keepsE_bind (readsE_evalStore x k r) fun _ => keepsE_bind (readsE_lateWrites x k) fun _ => keepsE_pure _

/-! ### Chunks -/

theorem readsE_drawnLater (x : Strip) (c : Unsound) : KeepsE s.sameBut (drawnLater x c) := by
  unfold drawnLater
  split
  · exact keepsE_pure _
  · split
    · refine keepsE_ite (keepsE_pure _) ?_
      split
      · exact keepsE_pure _
      · exact keepsE_bind keepsE_get fun _ => keepsE_bind (keepsE_lift (reads_evalAhead _ _ _)) fun _ => keepsE_pure _
    · exact keepsE_pure _

theorem readsE_failsStill (x : Strip) (c : Unsound) : KeepsE s.sameBut (failsStill x c) := by
  unfold failsStill
  split
  · exact keepsE_pure _
  · split
    · exact keepsE_bind (readsE_chunkFor x _ _ _ _ _) fun _ => keepsE_bind keepsE_get fun _ => keepsE_pure _
    · exact keepsE_pure _

theorem keepsE_filterM {P : State → Prop} {α : Type} {f : α → E Bool} (h : ∀ a, KeepsE P (f a)) (l : List α) :
    KeepsE P (l.filterM f) := by
  have haux : ∀ (l acc : List α), KeepsE P (List.filterAuxM f l acc) := by
    intro l
    induction l with
    | nil => exact fun acc => keepsE_pure acc
    | cons a r ih => exact fun acc => keepsE_bind (h a) fun b => ih (cond b (a :: acc) acc)
  exact keepsE_bind (haux l []) fun _ => keepsE_pure _

theorem readsE_chunkChecks (x : Strip) : KeepsE s.sameBut (chunkChecks x) :=
  keepsE_bind keepsE_get fun _ => keepsE_filterM (fun c => keepsE_bind (readsE_drawnLater x c) fun _ =>
    keepsE_bind (readsE_failsStill x c) fun _ => keepsE_guard (keepsE_noteFault _ _ _ _ _ _) (keepsE_pure _)) _

end Sinks

end Sys2Proof.Machine
end

section
/-!
How a pass starts and is checked (R71, R144, R152, R159, R162, R168), and what one strip of it does (R161, R166, R167, R250).
-/

namespace Sys2Proof.Machine

/-! ### Meanings that went through -/

theorem ok_of_bind {α β : Type} {m : M α} {f : α → M β} {s u : State} {b : β} (h : (m >>= f) s = (.ok b, u)) :
    ∃ a t, m s = (.ok a, t) ∧ f a t = (.ok b, u) := by
  rw [bind_apply] at h
  split at h
  next a t ht => exact ⟨a, t, ht, h⟩
  next => cases h

theorem Keeps.of_ok {α : Type} {P : State → Prop} {m : M α} (hm : Keeps P m) {s t : State} {a : α} (hs : P s)
    (h : m s = (.ok a, t)) : P t := by
  have hp := hm s hs
  rwa [h] at hp

theorem runE_of_ok {m : M Unit} {s t : State} (h : m s = (.ok (), t)) : runE m s = .next t := by
  unfold runE
  rw [h]

theorem runE_of_error {m : M Unit} {s t : State} {e : Stop} (h : m s = (.error e, t)) : runE m s = .next (s.afterWait t) := by
  unfold runE
  rw [h]

/-- What asks nothing but that the strand is as it was. -/
theorem lax_st (s : State) : Lax fun t => t.st = s.st where
  mem _ h := h
  sys _ h := h
  host _ h := h
  toll _ h := h
  free _ h := h
  cluster _ _ _ h := h

/-! ### The checks -/

/-- A pass at its checks, with their fault. -/
def Pass.judged (p : Pass) (f : Option PFault) : Pass := { p with fault := f, faulted := p.faulted || f.isSome, checked := f.isNone }

/-- A pass as its checks begin: they are made from the element that is next. -/
def Pass.rebased (p : Pass) : Pass := { p with base := p.next }

/-- A trim is to some elements: at element 0 the access is a true fault (R71). -/
theorem ffTrim_pos {x : Strip} {parts : List Partial} {fuel : Nat} {k : Option Nat} (hk : ∀ m, k = some m → 0 < m) {s t : State}
    {r : Option Nat} (h : ffTrim x parts fuel k s = (.ok r, t)) : ∀ m, r = some m → 0 < m := by
  induction fuel generalizing x k s with
  | zero =>
    obtain rfl : k = r := by injection (congrArg Prod.fst h)
    exact hk
  | succ fuel ih =>
    unfold ffTrim at h
    obtain ⟨_, u, -, h⟩ := ok_of_bind h
    obtain ⟨ks, v, -, h⟩ := ok_of_bind h
    dsimp only at h
    split at h
    · obtain rfl : k = r := by injection (congrArg Prod.fst h)
      exact hk
    · next a rest =>
      split at h
      · obtain rfl : k = r := by injection (congrArg Prod.fst h)
        exact hk
      · next hm =>
        have hpos : ∀ m, some (rest.foldl min a) = some m → 0 < m := by
          rintro m ⟨⟩
          omega
        split at h
        · obtain rfl : some (rest.foldl min a) = r := by injection (congrArg Prod.fst h)
          exact hpos
        · exact ih hpos h

/-- The strip of a pass that its fault-only-first loads trim: all that is left of it. -/
def Pass.restStrip (s : State) (p : Pass) : Strip := ⟨s.st, p, p.next, p.elems, p.elems, laneArray (s.laneTable s.st)⟩

/-- What the checks of a pass find: how its fault-only-first loads trim it. -/
def trimOf (s : State) (p : Pass) : M (Option Nat) :=
  if (ffLoads p).isEmpty then pure none else ffTrim (p.restStrip s) p.parts (p.elems + 1) none

/-- What the checks of a pass leave, once its trim is found. -/
def trimmed (i : Nat) (p : Pass) (df : Option PFault) (t0 : Strand) (trim : Option Nat) (t : State) : State :=
  let q := match trim with | none => p | some k => p.trim k
  let st := match trim with | none => t.st | some k => t.st.trim p k
  { t with st := st.setPass i (q.judged (wholeFault t0 q df)) }

theorem checkPass_eq (i : Nat) (p : Pass) (df : Option PFault) (s : State) :
    checkPass i p df s = (trimOf s p.rebased >>= fun trim => modify (trimmed i p.rebased df s.st trim)) s := by
  unfold checkPass
  rw [bind_get]
  rfl

/-- The checks of a pass without a fault-only-first load. -/
theorem checkPass_untrimmed {p : Pass} (i : Nat) (df : Option PFault) (s : State) (h : ffLoads p = []) :
    checkPass i p df s = (.ok (), s.setPass i (p.rebased.judged (wholeFault s.st p.rebased df))) := by
  have hnone : trimOf s p.rebased = pure none := if_pos (by rw [show ffLoads p.rebased = [] from h]; rfl)
  rw [checkPass_eq, hnone]
  rfl

theorem trimOf_pos {s t u : State} {p : Pass} {r : Option Nat} (h : trimOf s p t = (.ok r, u)) : ∀ k, r = some k → 0 < k := by
  unfold trimOf at h
  split at h
  · obtain rfl : none = r := by injection (congrArg Prod.fst h)
    exact nofun
  · exact ffTrim_pos (k := none) nofun h

theorem keeps_trimOf (s : State) (p : Pass) {P : State → Prop} (hP : Lax P) : Keeps P (trimOf s p) :=
  keeps_ite (keeps_pure _) (keeps_ffTrim hP _ _ _ _)

/-- What the checks of a pass do: they leave its shape, or trim it to some elements, and judge it. -/
theorem checkPass_ok {i : Nat} {p : Pass} {df : Option PFault} {s u : State} (h : checkPass i p df s = (.ok (), u)) :
    ∃ f, u.st = s.st.setPass i (p.rebased.judged f) ∨ ∃ k, 0 < k ∧
      u.st = (s.st.trim p.rebased k).setPass i ((p.rebased.trim k).judged f) := by
  rw [checkPass_eq] at h
  obtain ⟨trim, t, htrim, hu⟩ := ok_of_bind h
  have hst : t.st = s.st := (keeps_trimOf s _ (lax_st s)).of_ok rfl htrim
  obtain rfl : trimmed i p.rebased df s.st trim t = u := congrArg Prod.snd hu
  unfold trimmed
  rw [hst]
  cases trim with
  | none => exact ⟨_, .inl rfl⟩
  | some k => exact ⟨_, .inr ⟨k, trimOf_pos htrim k rfl, rfl⟩⟩

/-! ### A strip -/

/-- The strip that a pass runs next (R155). -/
def Pass.nextStrip (s : State) (p : Pass) : Strip :=
  let lanes := laneArray (s.laneTable s.st)
  ⟨s.st, p, p.next, min p.elems (p.next + max 1 lanes.size * p.stripLen), p.elems, lanes⟩

/-- What a strip evaluates: its nodes, its sinks, and the chunks that it drew on. -/
def stripWork (x : Strip) : E (List (Array (List Wr) × List Wr) × List Unsound) := do
  let r ← evalNodes x (fun _ => true) x.p.nodes
  let cols ← x.p.sinks.mapM fun k => evalSink x k r
  let left ← chunkChecks x
  pure (cols, left)

/-- What each sink wrote in a strip. -/
def Strip.wrote (x : Strip) (cols : List (Array (List Wr) × List Wr)) : List (Nat × List Wr) :=
  (x.p.sinks.zip cols).map fun q => (q.1.id, q.2.2 ++ q.2.1.toList.flatten)

/-- A pass once its strip is committed (R161). -/
def Strip.committed (x : Strip) (left : List Unsound) (v : Ev) (cover : List Cover) : Pass :=
  { x.p with
    next := x.hi
    late := false
    cover := cover
    unsound := left
    strips := x.p.strips + 1
    parts := v.parts
    stats := joinStats x.p.stats v.stats
    flags := v.fl.foldl (fun a f => a ||| f.2.2) x.p.flags }

/-- The state once a strip is committed whose writes have been performed. -/
def Strip.commit (i : Nat) (x : Strip) (cols : List (Array (List Wr) × List Wr)) (left : List Unsound) (v : Ev) (s : State) : State :=
  let a := s.coverAll x.t.cluster (x.wrote cols) x.p.cover
  a.1.setPass i (x.committed left v a.2)

/-- How a strip without a fault ends: with its writes, and with what they cover. -/
def commitStrip (i : Nat) (x : Strip) (cols : List (Array (List Wr) × List Wr)) (left : List Unsound) (v : Ev) : M Unit := do
  (cols.flatMap Prod.snd).forM Wr.perform
  let _ ← performAll (x.hi - x.lo) (cols.map Prod.fst)
  modify (x.commit i cols left v)

/-- A strip that met a fault: it counts, and nothing of it is committed. -/
def Pass.struck (p : Pass) (f : PFault) : Pass :=
  { p with fault := some f, strips := p.strips + 1, replayed := true, faulted := true }

/-- How a strip ends. -/
def endStrip (i : Nat) (x : Strip) (r : (List (Array (List Wr) × List Wr) × List Unsound) × Ev) : M Unit :=
  match blamed r.2 with
  | some f => modify fun s => s.setPass i (x.p.struck f)
  | none => commitStrip i x r.1.1 r.1.2 r.2

theorem runStrip_eq (i : Nat) (p : Pass) (s : State) :
    runStrip i p s = (stripWork (p.nextStrip s) (Ev.start p.parts) >>= endStrip i (p.nextStrip s)) s := by
  unfold runStrip
  rw [bind_get]
  rfl

theorem okE_of_bind {α β : Type} {m : E α} {f : α → E β} {v w : Ev} {s u : State} {b : β} (h : (m >>= f) v s = (.ok (b, w), u)) :
    ∃ a v1 t, m v s = (.ok (a, v1), t) ∧ f a v1 t = (.ok (b, w), u) := by
  obtain ⟨⟨a, v1⟩, t, hm, hf⟩ := ok_of_bind (m := m v) (f := fun r => f r.1 r.2) h
  exact ⟨a, v1, t, hm, hf⟩

/-- The three parts of what a strip evaluates. -/
theorem stripWork_ok {x : Strip} {v v3 : Ev} {s s3 : State} {cols : List (Array (List Wr) × List Wr)} {left : List Unsound}
    (h : stripWork x v s = (.ok ((cols, left), v3), s3)) :
    ∃ r v1 s1 v2 s2, evalNodes x (fun _ => true) x.p.nodes v s = (.ok (r, v1), s1) ∧
      (x.p.sinks.mapM fun k => evalSink x k r) v1 s1 = (.ok (cols, v2), s2) ∧ chunkChecks x v2 s2 = (.ok (left, v3), s3) := by
  obtain ⟨r, v1, s1, hnodes, h⟩ := okE_of_bind h
  obtain ⟨cols', v2, s2, hsinks, h⟩ := okE_of_bind h
  obtain ⟨left', v3', s3', hchunks, h⟩ := okE_of_bind h
  cases h
  exact ⟨r, v1, s1, v2, s2, hnodes, hsinks, hchunks⟩

theorem keepsE_mapM {P : State → Prop} {α β : Type} (l : List α) {f : α → E β} (h : ∀ a, KeepsE P (f a)) : KeepsE P (l.mapM f) := by
  induction l with
  | nil => rw [List.mapM_nil]; exact keepsE_pure _
  | cons a r ih =>
    rw [List.mapM_cons]
    exact keepsE_bind (h a) fun _ => keepsE_bind ih fun _ => keepsE_pure _

theorem readsE_stripWork (s : State) (x : Strip) : KeepsE s.sameBut (stripWork x) :=
  keepsE_bind (readsE_evalNodes x _ _) fun r => keepsE_bind (keepsE_mapM _ fun k => readsE_evalSink x k r) fun _ =>
    keepsE_bind (readsE_chunkChecks x) fun _ => keepsE_pure _

theorem laneArray_size (tab : List (Nat × Nat × Nat)) : (laneArray tab).size = (tab.map fun x => x.2.2).sum := by
  simp [laneArray, List.length_flatMap]

/-- The flags raised at an element by the nodes of a kind are those that one of them raised there. -/
theorem flagsAt_getLsbD (v : Ev) (e : Nat) (which : Nat → Bool) (i : Nat) :
    (v.flagsAt e which).getLsbD i = true ↔ ∃ y ∈ v.fl, y.1 = e ∧ which y.2.1 = true ∧ y.2.2.getLsbD i = true := by
  have hfold : ∀ (l : List (Nat × Nat × FFlags)) (z : FFlags),
      (l.foldl (fun a q => a ||| q.2.2) z).getLsbD i = true ↔ z.getLsbD i = true ∨ ∃ y ∈ l, y.2.2.getLsbD i = true := by
    intro l
    induction l with
    | nil => simp
    | cons y r ih =>
      intro z
      rw [List.foldl_cons, ih]
      simp [or_assoc]
  unfold Ev.flagsAt
  rw [hfold]
  simp [flNone, and_assoc]

/-! ### The writes of a strip -/

section Writes

variable {P : State → Prop} (hP : Lax P)
include hP

theorem keeps_peekLoc (w : Who) (l : Loc) (n : Nat) : Keeps P (peekLoc w l n) := by
  cases l with
  | hbm pa ten => exact fun s hs => hP.onlyMem (onlyMem_cluRead s w.cluster ten pa n) hs
  | win key => exact keeps_bind keeps_get fun _ => keeps_pure _
  | host pa => exact keeps_bind keeps_get fun _ => keeps_pure _
  | peer d pa => exact keeps_bind keeps_get fun _ => keeps_pure _

theorem keeps_perform (x : Wr) : Keeps P x.perform := by
  cases x with
  | bytes w l bs => exact keeps_writeLoc hP w l bs
  | nib w l k v =>
    have hloc := fun l => keeps_bind (keeps_peekLoc hP w l 1) fun b =>
      keeps_writeLoc hP w l [mergeNibbles (k + 1) (BitVec.ofNat 8 (v % 16 * 16 ^ k)) (b.headD 0)]
    cases l with
    | hbm pa ten => exact keeps_onlyMem hP fun s => (onlyMem_fillLine s w.cluster ten (pa / 64)).setCache _ _
    | _ => exact hloc _
  | add w l t v =>
    have hloc := fun l => keeps_bind (keeps_peekLoc hP w l (szOf t)) fun m =>
      keeps_writeLoc hP w l (leBytes (szOf t) (addOf t (leNat m) v))
    cases l with
    | hbm pa ten => exact keeps_onlyMem hP fun s => (onlyMem_flushLine s _ _).trans (onlyMem_devWrite _ _ _ _)
    | win key => exact keeps_modify fun s hs => hP.mem _ hs
    | _ => exact hloc _

theorem keeps_performAll (n : Nat) (cols : List (Array (List Wr))) : Keeps P (performAll n cols) := by
  have hfree : Keeps P takeFree := fun s hs => hP.free (s.free + 1) hs
  exact keeps_bind (keeps_ite (keeps_bind hfree fun _ => keeps_pure _) (keeps_pure _)) fun _ =>
    keeps_bind (keeps_forM _ fun x => keeps_perform hP x) fun _ => keeps_pure _

end Writes

/-! ### What a strip's writes cover -/

/-- The strand, the system, and the bytes of the windows, of the host and of peers are as before. -/
def State.sameOutside (s t : State) : Prop :=
  t.st = s.st ∧ t.sys = s.sys ∧ t.mem.win = s.mem.win ∧ t.mem.hostMem = s.mem.hostMem ∧ t.mem.peerMem = s.mem.peerMem

theorem sameOutside_mend {s t : State} (h : s.sameOutside t) (c : Nat) (g : Granule) : s.sameOutside (t.mend c g) := by
  cases g with
  | word w => exact h
  | line ln =>
    obtain ⟨_, _, _, _, _, _, heq⟩ := (onlyData_cleanLines t c fun x => x == ln).setCache c
      (((t.cleanLines c fun x => x == ln).cache c).map fun l => if l.tag = ln then { l with poison := false } else l)
    unfold State.mend
    dsimp only
    rw [heq]
    obtain ⟨hst, hsys, hwin, hhost, hpeer⟩ := h
    exact ⟨hst, hsys, hwin, hhost, hpeer⟩

theorem sameOutside_cover {s t : State} (h : s.sameOutside t) (c sink : Nat) (cov : List (Nat × Nat × Nat)) (old : List Cover) :
    s.sameOutside (t.cover c sink cov old).1 := by
  refine foldl_keeps (fun a : State × List Cover => s.sameOutside a.1) (t.badGranules c) _ (fun a g ha => ?_) (t, old) h
  dsimp only
  split
  · exact ha
  · split
    · exact sameOutside_mend ha c g
    · exact ha

theorem sameOutside_coverAll (s : State) (c : Nat) (wrote : List (Nat × List Wr)) (old : List Cover) :
    s.sameOutside (s.coverAll c wrote old).1 :=
  foldl_keeps (fun a : State × List Cover => s.sameOutside a.1) wrote _ (fun a _ ha => sameOutside_cover ha c _ _ a.2) (s, old)
    ⟨rfl, rfl, rfl, rfl, rfl⟩

/-- Where nothing is poisoned, nothing is mended. -/
theorem coverAll_clean {s : State} {c : Nat} (h : s.badGranules c = []) (wrote : List (Nat × List Wr)) (old : List Cover) :
    (s.coverAll c wrote old).1 = s := by
  refine foldl_keeps (fun a : State × List Cover => a.1 = s) wrote _ (fun a q ha => ?_) (s, old) rfl
  unfold State.cover
  rw [ha, h]
  rfl

theorem commit_eq (i : Nat) (x : Strip) (cols : List (Array (List Wr) × List Wr)) (left : List Unsound) (v : Ev) (s : State) :
    ∃ cover, (x.commit i cols left v s).st = s.st.setPass i (x.committed left v cover) ∧
      (x.commit i cols left v s).mem.win = s.mem.win ∧ (x.commit i cols left v s).mem.hostMem = s.mem.hostMem ∧
      (x.commit i cols left v s).mem.peerMem = s.mem.peerMem ∧ (x.commit i cols left v s).sys = s.sys ∧
      (s.badGranules x.t.cluster = [] → (x.commit i cols left v s).mem = s.mem) := by
  obtain ⟨hst, hsys, hwin, hhost, hpeer⟩ := sameOutside_coverAll s x.t.cluster (x.wrote cols) x.p.cover
  exact ⟨_, congrArg (fun t : Strand => t.setPass i _) hst, hwin, hhost, hpeer, hsys,
    fun hbad => (congrArg State.mem (coverAll_clean hbad (x.wrote cols) x.p.cover) :)⟩

/-- What a strip without a fault goes through. -/
theorem commitStrip_ok {i : Nat} {x : Strip} {cols : List (Array (List Wr) × List Wr)} {left : List Unsound} {v : Ev} {s u : State}
    (h : commitStrip i x cols left v s = (.ok (), u)) :
    ∃ s4 ws s5, (cols.flatMap Prod.snd).forM Wr.perform s = (.ok (), s4) ∧
      performAll (x.hi - x.lo) (cols.map Prod.fst) s4 = (.ok ws, s5) ∧ s5.st = s.st ∧ u = x.commit i cols left v s5 := by
  obtain ⟨_, s4, hlate, h⟩ := ok_of_bind h
  obtain ⟨ws, s5, hall, h⟩ := ok_of_bind h
  have hst : s5.st = s.st := (keeps_performAll (lax_st s) _ _).of_ok
    ((keeps_forM _ fun x => keeps_perform (lax_st s) x).of_ok rfl hlate) hall
  exact ⟨s4, ws, s5, hlate, hall, hst, (congrArg Prod.snd h).symm⟩

/-- How a strip that goes through ends: with a fault, or with its writes. -/
theorem runStrip_ok {i : Nat} {p : Pass} {s u : State} (h : runStrip i p s = (.ok (), u)) :
    ∃ cols left v s3, stripWork (p.nextStrip s) (Ev.start p.parts) s = (.ok ((cols, left), v), s3) ∧ s.sameBut s3 ∧
      ((∃ f, blamed v = some f ∧ u = s3.setPass i (p.struck f)) ∨
        (v.best = none ∧ commitStrip i (p.nextStrip s) cols left v s3 = (.ok (), u))) := by
  rw [runStrip_eq] at h
  obtain ⟨⟨⟨cols, left⟩, v⟩, s3, hwork, h⟩ := ok_of_bind h
  refine ⟨cols, left, v, s3, hwork, (readsE_stripWork s (p.nextStrip s) (Ev.start p.parts)).of_ok (.refl s) hwork, ?_⟩
  unfold endStrip at h
  cases hb : blamed v with
  | some f =>
    rw [hb] at h
    exact .inl ⟨f, rfl, (congrArg Prod.snd h).symm⟩
  | none =>
    rw [hb] at h
    exact .inr ⟨Option.map_eq_none_iff.1 hb, h⟩

end Sys2Proof.Machine
end

section
/-!
How a pass completes (R113, R153, R161, R212, R214, R219, R261, R304), and the events of passes (O40).
-/

namespace Sys2Proof.Machine

/-! ### What a fold of changes leaves -/

theorem foldl_leaves {σ β γ : Type} {f : σ → β → σ} (g : σ → γ) {l : List β} (h : ∀ s, ∀ b ∈ l, g (f s b) = g s) (s : σ) :
    g (l.foldl f s) = g s :=
  List.foldlRecOn l f (motive := fun t => g t = g s) rfl fun t ht b hb => (h t b hb).trans ht

/-- Where one of the changes sets a value, and each sets it or leaves it, it stands at the end. -/
theorem foldl_sets {σ β γ : Type} {f : σ → β → σ} (g : σ → γ) {v : γ} {l : List β} (h : ∀ s, ∀ b ∈ l, g s = v → g (f s b) = v)
    {b : β} (hb : b ∈ l) (hset : ∀ s, g (f s b) = v) (s : σ) : g (l.foldl f s) = v := by
  induction l generalizing s with
  | nil => exact absurd hb List.not_mem_nil
  | cons c r ih =>
    have hr : ∀ s, ∀ b ∈ r, g s = v → g (f s b) = v := fun s b hb => h s b (List.mem_cons_of_mem _ hb)
    rcases List.mem_cons.1 hb with rfl | hb
    · exact List.foldlRecOn r f (motive := fun t => g t = v) (hset s) fun t ht b hb => hr t b hb ht
    · exact ih hr hb (f s c)

/-! ### The results of a pass -/

theorem Strand.get_set_same (t : Strand) {r : Reg} (v : Word) (hr : r ≠ 0) : (t.set r v).get r = v := by
  have hne : r.val ≠ 0 := fun h => hr (Fin.ext h)
  unfold Strand.get Strand.set
  rw [if_neg hne, if_neg hne]
  exact Vector.getElem_set_self _

theorem Strand.get_set_other (t : Strand) {d r : Reg} (v : Word) (h : d ≠ r) : (t.set d v).get r = t.get r := by
  have hne : d.val ≠ r.val := fun hv => h (Fin.ext hv)
  unfold Strand.get Strand.set
  by_cases hd : d.val = 0
  · rw [if_pos hd]
  · rw [if_neg hd]
    split
    · rfl
    · exact Vector.getElem_set_ne d.isLt r.isLt hne

section Results

variable {p : Pass} {k : Sink}

theorem Strand.set_eq (t : Strand) (r : Reg) (v : Word) : ∃ regs, t.set r v = { t with regs := regs } := by
  unfold Strand.set
  split
  · exact ⟨t.regs, rfl⟩
  · exact ⟨_, rfl⟩

/-- A sink's scalar result taken by the strand. -/
def Strand.takeScalar (p : Pass) (t : Strand) (k : Sink) : Strand := match sinkResult p k with | none => t | some (d, v) => t.set d v

theorem takeScalar_eq (p : Pass) (t : Strand) (k : Sink) : ∃ regs, Strand.takeScalar p t k = { t with regs := regs } := by
  unfold Strand.takeScalar
  split
  · exact ⟨t.regs, rfl⟩
  · exact Strand.set_eq t _ _

/-- The row results come after the scalar, and change nothing else. -/
theorem takeResults_rows_eq (p : Pass) (t : Strand) (k : Sink) : Strand.takeResults p t k =
    match rowValues p k with
    | none => Strand.takeScalar p t k
    | some (slot, vs) => { Strand.takeScalar p t k with rows := aset (Strand.takeScalar p t k).rows slot vs } := rfl

/-- The results of a sink change nothing but registers and row results. -/
theorem takeResults_eq (p : Pass) (t : Strand) (k : Sink) :
    ∃ regs rows, Strand.takeResults p t k = { t with regs := regs, rows := rows } := by
  obtain ⟨regs, hregs⟩ := takeScalar_eq p t k
  rw [takeResults_rows_eq, hregs]
  split
  · exact ⟨regs, t.rows, rfl⟩
  · exact ⟨regs, _, rfl⟩

theorem takeResults_get_eq (t : Strand) (r : Reg) : (Strand.takeResults p t k).get r = (Strand.takeScalar p t k).get r := by
  rw [takeResults_rows_eq]
  split
  · rfl
  · rfl

theorem takeResults_get {d : Reg} {v : Word} (h : sinkResult p k = some (d, v)) (hd : d ≠ 0) (t : Strand) :
    (Strand.takeResults p t k).get d = v := by
  rw [takeResults_get_eq]
  unfold Strand.takeScalar
  rw [h]
  exact Strand.get_set_same t v hd

theorem takeResults_get_other {r : Reg} (h : ∀ v, sinkResult p k ≠ some (r, v)) (t : Strand) :
    (Strand.takeResults p t k).get r = t.get r := by
  rw [takeResults_get_eq]
  unfold Strand.takeScalar
  split
  · rfl
  · next d v hv => exact Strand.get_set_other t v fun hd => h v (hd ▸ hv)

theorem takeResults_row {slot : Nat} {vs : List Nat} (h : rowValues p k = some (slot, vs)) (t : Strand) :
    afind (Strand.takeResults p t k).rows slot = some vs := by
  rw [takeResults_rows_eq, h]
  exact (afind_aset _ slot vs slot).trans (if_pos rfl)

theorem takeResults_row_other {slot : Nat} (h : ∀ vs, rowValues p k ≠ some (slot, vs)) (t : Strand) :
    afind (Strand.takeResults p t k).rows slot = afind t.rows slot := by
  obtain ⟨regs, hregs⟩ := takeScalar_eq p t k
  rw [takeResults_rows_eq, hregs]
  split
  · rfl
  · next slot' vs hvs =>
    refine (afind_aset _ slot' vs slot).trans (if_neg ?_)
    rintro rfl
    exact h vs hvs

end Results

/-- What the sinks of a pass leave in the strand changes nothing but registers and row results. -/
theorem takeAll_eq (p : Pass) (t : Strand) (ks : List Sink) :
    ∃ regs rows, ks.foldl (Strand.takeResults p) t = { t with regs := regs, rows := rows } := by
  refine List.foldlRecOn ks _ (motive := fun u : Strand => ∃ regs rows, u = { t with regs := regs, rows := rows }) ⟨t.regs, t.rows, rfl⟩ ?_
  rintro _ ⟨regs, rows, rfl⟩ k -
  obtain ⟨regs', rows', h⟩ := takeResults_eq p { t with regs := regs, rows := rows } k
  exact ⟨regs', rows', h⟩

/-- QERR at the end of a pass: its errors, unless it has no quantised block or a newer pass has left its own. -/
def Strand.newQerr (t : Strand) (p : Pass) : Word :=
  let newer := t.qerrSerial.any fun k => decide (p.serial < k) && !t.passes.any fun q => q.serial == k
  if p.sinks.any Sink.isVstc && !newer then qerrOf p else t.sr.qerr

theorem finish_eq (t : Strand) (p : Pass) : t.finish p =
    ({ p.sinks.foldl (Strand.takeResults p) t with
        passes := t.passes.filter fun q => q.serial != p.serial
        sr := { (p.sinks.foldl (Strand.takeResults p) t).sr with
          qerr := t.newQerr p
          fpflags := (p.sinks.foldl (Strand.takeResults p) t).sr.fpflags ||| p.allFlags.setWidth 64 } } : Strand).reclaim := rfl

/-! ### The flags and the trap of Canon -/

theorem isSnan_isNan {v : FVal} (h : v.isSnan = true) : v.isNan = true := by
  cases v with
  | nan s => rfl
  | inf n => cases h
  | num n m e s => cases h

/-- The flag of Canon: NV for a signalling NaN. -/
theorem canon_flags (t : Ty) (x : Nat) :
    (canon t x).2 = match tyFmt t with
      | none => 0
      | some f => if (decodeF f x).isSnan then flNV else 0 := by
  unfold canon
  cases tyFmt t with
  | none => rfl
  | some f =>
    by_cases hs : (decodeF f x).isSnan = true
    · simp [hs, isSnan_isNan hs]
    · by_cases hn : (decodeF f x).isNan = true
      · simp [hs, hn, flNone]
      · simp [hs, hn, flNone]

theorem trapping_iff (fpctl : Word) (z : FFlags) : trapping fpctl z = true ↔ fpctl.toNat / 16 % 32 &&& z.toNat ≠ 0 := by
  unfold trapping trapMask
  rw [bne_iff_ne, ne_eq, ← BitVec.toNat_inj, BitVec.toNat_and, BitVec.toNat_ofNat]
  rfl

/-- The flag of Canon for what a sink has summed in a row. -/
def rowCanon (p : Pass) (k : Sink) (row : Nat) : FFlags :=
  match accOf (partOf p.parts k.id) row with
  | none => flNone
  | some v => (canon (p.wpTy (k.data.headD 0)) v).2

/-- A sum's flag is that of its row, or those of its rows. -/
theorem sinkCanon_eq (p : Pass) (k : Sink) : sinkCanon p k = match k.op with
    | .red m _ => if m ≤ 1 then rowCanon p k 0 else 0
    | .rowred false _ _ => (List.range p.vrows).foldl (fun a r => a ||| rowCanon p k r) 0
    | _ => 0 := by
  unfold sinkCanon
  rfl

/-! ### The events -/

section Events

variable {s : State} {p : Pass} {rest : List Pass} (hruns : s.runs s.st = true)
include hruns

theorem exec_passStart (hpass : s.st.passes = p :: rest) (hst : p.st = .waiting) : exec .passStart s = runE (startWaiting 0 p) s := by
  show execPassStart s = _
  unfold execPassStart
  rw [hpass]
  dsimp only
  rw [hruns, hst]
  rfl

theorem exec_stripCommit {k : Nat} (hpass : s.st.passes[k]? = some p) (hst : p.st = .running) (hfault : p.fault = none)
    (hturn : p.checked = false ∨ p.remains = true) : exec (.stripCommit k) s = runE (stripTurn k p) s := by
  have hdone : p.done = false := by
    unfold Pass.done
    rcases hturn with h | h <;> simp [h]
  show execStripCommit k s = _
  unfold execStripCommit
  rw [hpass]
  dsimp only
  rw [hruns, hst, hfault, hdone]
  rfl

theorem exec_passComplete (hpass : s.st.passes = p :: rest) (hst : p.st = .running) (hfault : p.fault = none)
    (hchecked : p.checked = true) (hleft : p.remains = false) : exec .passComplete s = runE (completePass p) s := by
  have hdone : p.done = true := by simp [Pass.done, hst, hfault, hchecked, hleft]
  show execPassComplete s = _
  unfold execPassComplete
  rw [hpass]
  dsimp only
  rw [hruns, hdone]
  rfl

end Events

/-- A waiting pass whose descriptors have not been read starts unchecked. -/
theorem startWaiting_unread {i : Nat} {p : Pass} (hfault : p.fault = none) (hdescs : p.descs = [])
    (hnode : ∃ x ∈ p.nodes, (x.tensor p.asked).isSome = true) :
    startWaiting i p = modify fun s => s.setPass i { p with st := .running, checked := false } := by
  unfold startWaiting
  rw [hfault, hdescs, List.any_eq_true.2 hnode]
  rfl

theorem startWaiting_read {i : Nat} {p : Pass}
    (h : ¬ (p.fault = none ∧ p.descs = [] ∧ ∃ x ∈ p.nodes, (x.tensor p.asked).isSome = true)) :
    startWaiting i p = checkPass i { p with st := .running, fault := none } p.fault := by
  refine if_neg fun hc => h ?_
  simp only [Bool.and_eq_true, Option.isNone_iff_eq_none, List.isEmpty_iff, List.any_eq_true] at hc
  exact ⟨hc.1.1, hc.1.2, hc.2⟩

theorem setPass_head {s : State} {p : Pass} {rest : List Pass} (h : s.st.passes = p :: rest) (q : Pass) :
    s.setPass 0 q = { s with st := { s.st with passes := q :: rest } } := by
  unfold State.setPass Strand.setPass
  rw [h]
  rfl

/-- The turn of a pass that is not checked: it reads its descriptors and is checked. -/
theorem stripTurn_unchecked {k : Nat} {p : Pass} (h : p.checked = false) (s : State) :
    stripTurn k p s = (readDescs s.st p >>= fun r => checkPass k r.1 r.2) s := by
  have hopen : stripTurn k p = openPass k p := if_pos (by rw [h]; rfl)
  rw [hopen]
  unfold openPass
  rw [bind_get]

theorem stripTurn_checked {k : Nat} {p : Pass} (h : p.checked = true) (hleft : p.remains = true) : stripTurn k p = runStrip k p := by
  unfold stripTurn
  rw [h, hleft]
  rfl

/-! ### The trap at the end of a pass, and its results -/

theorem lateNan_found {p : Pass} {a b : List Sink} {k : Sink} (hsinks : p.sinks = a ++ k :: b)
    (hbefore : ∀ j ∈ a, trapping j.fpctl (sinkCanon p j) = false) (hk : trapping k.fpctl (sinkCanon p k) = true) :
    lateNan p = some ⟨p.next, k.id, 0x0D, (sinkCanon p k).toNat, 0, k.pc, sinkCanon p k⟩ := by
  unfold lateNan
  rw [hsinks, List.find?_append, List.find?_eq_none.2 fun j hj => by rw [hbefore j hj]; decide,
    List.find?_cons_of_pos (p := fun k => trapping k.fpctl (sinkCanon p k)) hk]
  rfl

theorem lateNan_none {p : Pass} (h : ∀ k ∈ p.sinks, trapping k.fpctl (sinkCanon p k) = false) : lateNan p = none := by
  unfold lateNan
  rw [List.find?_eq_none.2 fun k hk => by rw [h k hk]; decide]
  rfl

theorem completePass_trap {p : Pass} {f : PFault} (h : lateNan p = some f) : completePass p = modify fun s =>
    { s with st := { s.st with
      passes := s.st.passes.map fun q => if q.serial = p.serial then { q with fault := some f, faulted := true } else q } } := by
  unfold completePass
  rw [h]

theorem completePass_done {p : Pass} {s u : State} (h : lateNan p = none) (hmarks : writeWaymarks p s = (.ok (), u)) :
    completePass p s = (.ok (), { u with st := u.st.finish p }) := by
  unfold completePass
  rw [h]
  exact bind_of_ok hmarks

/-- With no room for Waymark records, none is written. -/
theorem writeWaymarks_off {p : Pass} {s : State} (h : s.st.sr.wmsize.toNat % 2 ^ 32 = 0) : writeWaymarks p s = (.ok (), s) := by
  unfold writeWaymarks
  rw [bind_get]
  dsimp only
  rw [h]
  cases s.ctx? s.st.ctx with
  | none => rfl
  | some c => rfl

section Finish

variable (t : Strand) (p : Pass)

theorem finish_passes : (t.finish p).passes = t.passes.filter fun q => q.serial ≠ p.serial := by
  show t.passes.filter (fun q => q.serial != p.serial) = _
  exact List.filter_congr fun q _ => Bool.eq_iff_iff.2 (by simp)

/-- What the end of a pass leaves as it was. -/
theorem finish_leaves : (t.finish p).pc = t.pc ∧ (t.finish p).vnames = t.vnames ∧ (t.finish p).queue = t.queue := by
  obtain ⟨regs, rows, h⟩ := takeAll_eq p t p.sinks
  rw [finish_eq, h]
  exact ⟨rfl, rfl, rfl⟩

theorem finish_fpflags : (t.finish p).sr.fpflags = t.sr.fpflags ||| p.allFlags.setWidth 64 := by
  obtain ⟨regs, rows, h⟩ := takeAll_eq p t p.sinks
  rw [finish_eq, h]
  rfl

theorem finish_qerr : (t.finish p).sr.qerr = t.newQerr p := rfl

theorem finish_get (r : Reg) : (t.finish p).get r = (p.sinks.foldl (Strand.takeResults p) t).get r := rfl

theorem finish_rows : (t.finish p).rows = (p.sinks.foldl (Strand.takeResults p) t).rows := rfl

end Finish

/-! ### A pass starts and takes its turn -/

section Turns

variable {s : State} {p : Pass} {rest : List Pass} (hruns : s.runs s.st = true)
include hruns

theorem passStart_unread (hpass : s.st.passes = p :: rest) (hst : p.st = .waiting) (hf : p.fault = none) (hd : p.descs = [])
    (hn : ∃ x ∈ p.nodes, (x.tensor p.asked).isSome = true) :
    exec .passStart s = .next { s with st := { s.st with passes := { p with st := .running, checked := false } :: rest } } := by
  rw [exec_passStart hruns hpass hst, startWaiting_unread hf hd hn]
  exact congrArg Host.Outcome.next (setPass_head hpass _)

theorem passStart_checked (hpass : s.st.passes = p :: rest) (hst : p.st = .waiting)
    (hread : ¬ (p.fault = none ∧ p.descs = [] ∧ ∃ x ∈ p.nodes, (x.tensor p.asked).isSome = true)) {u : State}
    (hu : checkPass 0 { p with st := .running, fault := none } p.fault s = (.ok (), u)) : exec .passStart s = .next u := by
  rw [exec_passStart hruns hpass hst, startWaiting_read hread]
  exact runE_of_ok hu

omit hruns in
/-- A pass whose checks find nothing. -/
theorem judged_none (q : Pass) (hfault : q.fault = none) : q.judged none = { q with checked := true } := by
  simp only [Pass.judged, Option.isSome_none, Bool.or_false, Option.isNone_none, hfault]

omit hruns in
theorem judged_some (q : Pass) (f : PFault) : q.judged (some f) = { q with fault := some f, faulted := true, checked := false } := by
  unfold Pass.judged
  rw [Option.isSome_some, Bool.or_true]
  rfl

theorem passStart_clean (hpass : s.st.passes = p :: rest) (hst : p.st = .waiting)
    (hread : ¬ (p.fault = none ∧ p.descs = [] ∧ ∃ x ∈ p.nodes, (x.tensor p.asked).isSome = true)) (hff : ffLoads p = [])
    (hwhole : wholeFault s.st { p with st := .running, fault := none, base := p.next } p.fault = none) :
    exec .passStart s = .next { s with st := { s.st with
      passes := { p with st := .running, fault := none, base := p.next, checked := true } :: rest } } := by
  rw [passStart_checked hruns hpass hst hread (checkPass_untrimmed (p := { p with st := .running, fault := none }) 0 p.fault s hff),
    setPass_head hpass]
  have hjudged : (({ p with st := .running, fault := none } : Pass).rebased.judged
      (wholeFault s.st ({ p with st := .running, fault := none } : Pass).rebased p.fault)) =
      { p with st := .running, fault := none, base := p.next, checked := true } :=
    (congrArg _ hwhole).trans (judged_none _ rfl)
  rw [hjudged]

/-- The turn of a running pass. -/
theorem stripCommit_turn {k : Nat} (hpass : s.st.passes[k]? = some p) (hst : p.st = .running) (hf : p.fault = none)
    (hturn : p.checked = false ∨ p.remains = true) : exec (.stripCommit k) s = runE (if p.checked then runStrip k p else do
      let (q, df) ← readDescs s.st p
      checkPass k q df) s := by
  rw [exec_stripCommit hruns hpass hst hf hturn]
  unfold runE
  cases hch : p.checked with
  | false => rw [stripTurn_unchecked hch]; rfl
  | true => rw [stripTurn_checked hch (hturn.resolve_left (by simp [hch]))]; rfl

/-- The checks of a pass that is not checked find a fault. -/
theorem stripCommit_faults {k : Nat} (hpass : s.st.passes[k]? = some p) (hst : p.st = .running) (hf : p.fault = none)
    (hch : p.checked = false) {q : Pass} {df : Option PFault} {u : State} (hdescs : readDescs s.st p s = (.ok (q, df), u))
    {f : PFault} (hff : ffLoads q = []) (hwhole : wholeFault s.st { q with base := q.next } df = some f) :
    exec (.stripCommit k) s = .next { u with st := { u.st with
      passes := u.st.passes.set k { q with base := q.next, fault := some f, faulted := true, checked := false } } } := by
  have hu : u.st = s.st := (keeps_readDescs (lax_st s) s.st p).of_ok rfl hdescs
  have hjudged : q.rebased.judged (wholeFault u.st q.rebased df) =
      { q with base := q.next, fault := some f, faulted := true, checked := false } := by
    rw [hu]
    exact (congrArg _ hwhole).trans (judged_some _ f)
  rw [exec_stripCommit hruns hpass hst hf (.inl hch)]
  refine runE_of_ok ?_
  rw [stripTurn_unchecked hch, bind_of_ok hdescs, checkPass_untrimmed k df u hff, hjudged]
  rfl

end Turns

/-- What the checks of a pass leave of it: they trim it to some elements, or leave its shape. -/
theorem checkPass_leaves {k : Nat} {p : Pass} {df : Option PFault} {s u : State} (h : checkPass k p df s = (.ok (), u)) :
    ∃ q, u.st.passes = s.st.passes.set k q ∧ q.base = p.next ∧ q.next = p.next ∧ q.parts = p.parts ∧ q.flags = p.flags ∧
      (q.checked = true ↔ q.fault = none) ∧ u.st.regs = s.st.regs ∧
      ((q.vl = p.vl ∧ q.vrows = p.vrows ∧ u.st.sr = s.st.sr) ∨
        (0 < q.vl ∧ q.vrows = 1 ∧ q.trimmed = true ∧ u.st.sr = { s.st.sr with vl := q.vl } ∧ ∀ w ∈ q.wps, w.vl = q.vl ∧ w.vrows = 1)) := by
  obtain ⟨f, hst | ⟨m, hm, hst⟩⟩ := checkPass_ok h
  · rw [hst]
    exact ⟨_, rfl, rfl, rfl, rfl, rfl, Option.isNone_iff_eq_none, rfl, .inl ⟨rfl, rfl, rfl⟩⟩
  · rw [hst]
    refine ⟨_, rfl, rfl, rfl, rfl, rfl, Option.isNone_iff_eq_none, rfl, .inr ⟨hm, rfl, rfl, rfl, fun w hw => ?_⟩⟩
    obtain ⟨v, -, rfl⟩ := List.mem_map.1 hw
    exact ⟨rfl, rfl⟩

/-! ### A strip that goes through -/

/-- The flags of a fault's element that nodes of a kind raised, in the bits of a detail. -/
def Ev.raised (v : Ev) (e : Nat) (of_ : Nat → Prop) (z : FFlags) : Prop :=
  ∀ i : Nat, z.getLsbD i = true ↔ ∃ y ∈ v.fl, y.1 = e ∧ of_ y.2.1 ∧ y.2.2.getLsbD i = true

/-- The fault of a strip is the one that wins, and a trap's is told with the flags of its element (R167, R297). -/
theorem blamed_fault {v : Ev} {f : PFault} (h : v.best = some f) :
    ∃ g, blamed v = some g ∧ (f.cause ≠ 0x0D → g = f) ∧ (f.cause = 0x0D →
      ∃ z z' : FFlags, g = { f with detail := z.toNat, flags := z' } ∧ v.raised f.elem (fun n => n = f.node) z ∧
        v.raised f.elem (fun n => n ≤ f.node) z') := by
  refine ⟨_, congrArg (Option.map _) h, fun hne => if_neg hne, fun heq => ⟨_, _, if_pos heq, fun i => ?_, fun i => ?_⟩⟩
  · simpa using flagsAt_getLsbD v f.elem (fun n => n == f.node) i
  · simpa using flagsAt_getLsbD v f.elem (fun n => decide (n ≤ f.node)) i

section Strips

variable {k : Nat} {p : Pass} {s u s3 : State}

/-- A strip with a fault counts, and leaves the pass but for its fault, and the memory as its evaluation left it. -/
theorem struck_leaves {f : PFault} (h3 : s.sameBut s3) (hu : u = s3.setPass k (p.struck f)) :
    u.st = s.st.setPass k (p.struck f) ∧ u.mem = s3.mem ∧ u.sys = s3.sys ∧ u.mem.win = s.mem.win ∧ u.mem.hostMem = s.mem.hostMem ∧
      u.mem.peerMem = s.mem.peerMem := by
  obtain ⟨hst, -, -, -, -, -, hwin, -, hhost, hpeer, -⟩ := h3
  rw [hu]
  exact ⟨congrArg (fun t : Strand => t.setPass k _) hst, rfl, rfl, hwin, hhost, hpeer⟩

/-- A strip that commits performs the writes of its sinks, and counts. -/
theorem committed_leaves {x : Strip} {cols : List (Array (List Wr) × List Wr)} {left : List Unsound} {v : Ev} (h3 : s.sameBut s3)
    (hu : commitStrip k x cols left v s3 = (.ok (), u)) :
    ∃ cover s4 ws s5, u.st = s.st.setPass k (x.committed left v cover) ∧ (cols.flatMap Prod.snd).forM Wr.perform s3 = (.ok (), s4) ∧
      performAll (x.hi - x.lo) (cols.map Prod.fst) s4 = (.ok ws, s5) ∧ u.mem.win = s5.mem.win ∧ u.mem.hostMem = s5.mem.hostMem ∧
      u.mem.peerMem = s5.mem.peerMem ∧ u.sys = s5.sys ∧ (s5.badGranules x.t.cluster = [] → u.mem = s5.mem) := by
  obtain ⟨s4, ws, s5, hlate, hall, h5, rfl⟩ := commitStrip_ok hu
  obtain ⟨cover, hst, hwin, hhost, hpeer, hsys, hclean⟩ := commit_eq k x cols left v s5
  exact ⟨cover, s4, ws, s5, hst.trans (congrArg (fun t : Strand => t.setPass k _) (h5.trans h3.1)), hlate, hall, hwin, hhost, hpeer,
    hsys, hclean⟩

end Strips

/-- The end of the range of a pass's next strip (R155). -/
theorem nextStrip_hi (s : State) (p : Pass) :
    (p.nextStrip s).hi = min p.elems (p.next + max 1 (s.liveLanes s.st) * p.stripLen) := by
  unfold State.liveLanes
  rw [← laneArray_size]
  rfl

/-- What a strip that goes through does: it has no fault and commits all of its elements, or it has the fault that wins and commits none. -/
theorem runStrip_leaves {k : Nat} {p : Pass} {s u : State} (hf : p.fault = none) (hu : runStrip k p s = (.ok (), u)) :
    ∃ q, u.st.passes = s.st.passes.set k q ∧ u.st.regs = s.st.regs ∧ u.st.sr = s.st.sr ∧ q.strips = p.strips + 1 ∧
      (q.fault = none → q.next = min p.elems (p.next + max 1 (s.liveLanes s.st) * p.stripLen) ∧ q.late = false) ∧
      (q.fault ≠ none → q.next = p.next ∧ q.parts = p.parts ∧ q.flags = p.flags ∧ u.mem.win = s.mem.win ∧
        u.mem.hostMem = s.mem.hostMem ∧ u.mem.peerMem = s.mem.peerMem) ∧
      ∃ r v1 s1 cols v2 s2 left v3 s3,
        evalNodes (p.nextStrip s) (fun _ => true) p.nodes (Ev.start p.parts) s = (.ok (r, v1), s1) ∧
        (p.sinks.mapM fun k => evalSink (p.nextStrip s) k r) v1 s1 = (.ok (cols, v2), s2) ∧
        chunkChecks (p.nextStrip s) v2 s2 = (.ok (left, v3), s3) ∧
        (v3.best = none → q.fault = none ∧ q.parts = v3.parts ∧ q.unsound = left ∧
          q.flags = v3.fl.foldl (fun a y => a ||| y.2.2) p.flags ∧
          ∃ s4 ws s5, (cols.flatMap Prod.snd).forM Wr.perform s3 = (.ok (), s4) ∧
            performAll ((p.nextStrip s).hi - p.next) (cols.map Prod.fst) s4 = (.ok ws, s5) ∧
            u.mem.win = s5.mem.win ∧ u.mem.hostMem = s5.mem.hostMem ∧ u.mem.peerMem = s5.mem.peerMem ∧ u.sys = s5.sys ∧
            (s5.badGranules s.st.cluster = [] → u.mem = s5.mem)) ∧
        ∀ f, v3.best = some f → u.mem = s3.mem ∧ u.sys = s3.sys ∧ (f.cause ≠ 0x0D → q.fault = some f) ∧
          (f.cause = 0x0D → ∃ z z' : FFlags, q.fault = some { f with detail := z.toNat, flags := z' } ∧
            v3.raised f.elem (fun n => n = f.node) z ∧ v3.raised f.elem (fun n => n ≤ f.node) z') := by
  obtain ⟨cols, left, v3, s3, hwork, h3, hend⟩ := runStrip_ok hu
  obtain ⟨r, v1, s1, v2, s2, hnodes, hsinks, hchunks⟩ := stripWork_ok hwork
  rcases hend with ⟨g, hg, hu⟩ | ⟨hbest, hu⟩
  · obtain ⟨hst, hmem, hsys, hwin, hhost, hpeer⟩ := struck_leaves h3 hu
    refine ⟨p.struck g, by rw [hst]; rfl, by rw [hst]; rfl, by rw [hst]; rfl, rfl, nofun, fun _ => ⟨rfl, rfl, rfl, hwin, hhost, hpeer⟩,
      r, v1, s1, cols, v2, s2, left, v3, s3, hnodes, hsinks, hchunks, fun hbest => ?_, fun f hbest => ?_⟩
    · rw [blamed, hbest] at hg
      cases hg
    · obtain ⟨g', hg', hother, htrap⟩ := blamed_fault hbest
      obtain rfl : g' = g := Option.some_inj.1 (hg'.symm.trans hg)
      refine ⟨hmem, hsys, fun hc => congrArg some (hother hc), fun hc => ?_⟩
      obtain ⟨z, z', hz, hraised⟩ := htrap hc
      exact ⟨z, z', congrArg some hz, hraised⟩
  · obtain ⟨cover, s4, ws, s5, hst, hlate, hall, hwrites⟩ := committed_leaves h3 hu
    refine ⟨(p.nextStrip s).committed left v3 cover, by rw [hst]; rfl, by rw [hst]; rfl, by rw [hst]; rfl, rfl,
      fun _ => ⟨nextStrip_hi s p, rfl⟩, fun h => absurd hf h, r, v1, s1, cols, v2, s2, left, v3, s3, hnodes, hsinks, hchunks,
      fun _ => ⟨hf, rfl, rfl, rfl, s4, ws, s5, hlate, hall, hwrites⟩, fun f hsome => ?_⟩
    rw [hbest] at hsome
    cases hsome

/-! ### A pass that completes -/

/-- The oldest pass is the one that a trap at its end stops, where no other has its number. -/
theorem map_faulted {p : Pass} {rest : List Pass} (hother : ∀ q ∈ rest, q.serial ≠ p.serial) (f : PFault) :
    (p :: rest).map (fun q => if q.serial = p.serial then { q with fault := some f, faulted := true } else q) =
      { p with fault := some f, faulted := true } :: rest := by
  rw [List.map_cons, if_pos rfl]
  exact congrArg _ ((List.map_congr_left (g := id) fun q hq => if_neg (hother q hq)).trans (List.map_id rest))

section Completion

variable {s : State} {p : Pass} {rest : List Pass} (hruns : s.runs s.st = true) (hpass : s.st.passes = p :: rest) (hst : p.st = .running)
  (hf : p.fault = none) (hch : p.checked = true) (hleft : p.remains = false)
include hruns hpass hst hf hch hleft

/-- A trap of Canon that shows itself only at the end stops the pass past its last strip. -/
theorem passComplete_trap {a b : List Sink} {k : Sink} (hsinks : p.sinks = a ++ k :: b)
    (hbefore : ∀ j ∈ a, trapping j.fpctl (sinkCanon p j) = false) (hk : trapping k.fpctl (sinkCanon p k) = true)
    (hother : ∀ q ∈ rest, q.serial ≠ p.serial) :
    exec .passComplete s = .next { s with st := { s.st with
      passes := { p with
        fault := some ⟨p.next, k.id, 0x0D, (sinkCanon p k).toNat, 0, k.pc, sinkCanon p k⟩, faulted := true } :: rest } } := by
  rw [exec_passComplete hruns hpass hst hf hch hleft, completePass_trap (lateNan_found hsinks hbefore hk)]
  refine runE_of_ok ?_
  rw [← map_faulted hother, ← hpass]
  rfl

theorem passComplete_done {u : State} (hquiet : ∀ k ∈ p.sinks, trapping k.fpctl (sinkCanon p k) = false)
    (hmarks : writeWaymarks p s = (.ok (), u)) : exec .passComplete s = .next { u with st := u.st.finish p } := by
  rw [exec_passComplete hruns hpass hst hf hch hleft]
  exact runE_of_ok (completePass_done (lateNan_none hquiet) hmarks)

end Completion

section Finished

variable (t : Strand) (p : Pass)

/-- A register that no sink names is as it was. -/
theorem finish_get_other {r : Reg} (h : ∀ k ∈ p.sinks, ∀ v, sinkResult p k ≠ some (r, v)) : (t.finish p).get r = t.get r :=
  foldl_leaves (fun t : Strand => t.get r) (fun t k hk => takeResults_get_other (h k hk) t) t

/-- A register that one sink names takes its result. -/
theorem finish_get_result {k : Sink} (hk : k ∈ p.sinks) {d : Reg} {v : Word} (hv : sinkResult p k = some (d, v)) (hd : d ≠ 0)
    (hone : ∀ j ∈ p.sinks, ∀ w, sinkResult p j = some (d, w) → j = k) : (t.finish p).get d = v := by
  refine foldl_sets (fun t : Strand => t.get d) (fun t j hj ht => ?_) hk (fun t => takeResults_get hv hd t) t
  by_cases hjk : j = k
  · exact hjk ▸ takeResults_get hv hd t
  · exact (takeResults_get_other (fun w hw => hjk (hone j hj w hw)) t).trans ht

theorem finish_row_other {slot : Nat} (h : ∀ k ∈ p.sinks, ∀ vs, rowValues p k ≠ some (slot, vs)) :
    afind (t.finish p).rows slot = afind t.rows slot :=
  foldl_leaves (fun t : Strand => afind t.rows slot) (fun t k hk => takeResults_row_other (h k hk) t) t

theorem finish_row_result {k : Sink} (hk : k ∈ p.sinks) {slot : Nat} {vs : List Nat} (hv : rowValues p k = some (slot, vs))
    (hone : ∀ j ∈ p.sinks, ∀ ws, rowValues p j = some (slot, ws) → j = k) : afind (t.finish p).rows slot = some vs := by
  refine foldl_sets (fun t : Strand => afind t.rows slot) (fun t j hj ht => ?_) hk (fun t => takeResults_row hv t) t
  by_cases hjk : j = k
  · exact hjk ▸ takeResults_row hv t
  · exact (takeResults_row_other (fun w hw => hjk (hone j hj w hw)) t).trans ht

/-- QERR is left by a pass without a quantised block. -/
theorem finish_qerr_other (h : ∀ k ∈ p.sinks, k.isVstc = false) : (t.finish p).sr.qerr = t.sr.qerr := by
  rw [finish_qerr]
  unfold Strand.newQerr
  rw [List.any_eq_false.2 fun k hk => by rw [h k hk]; decide]
  rfl

/-- The newest pass with quantised blocks leaves their errors in QERR. -/
theorem finish_qerr_own (h : ∃ k ∈ p.sinks, k.isVstc = true) (hserial : t.qerrSerial = some p.serial) :
    (t.finish p).sr.qerr = qerrOf p := by
  rw [finish_qerr]
  unfold Strand.newQerr
  rw [List.any_eq_true.2 h, hserial]
  simp

end Finished

/-! ### The obligation -/

/-- Settles O40: each event of a pass is its turn, its checks, a strip or its completion, by what each of these does. -/
theorem passEvents : Obligations.PassEvents := by
  intro s hruns
  refine ⟨fun p rest hpass hst => ⟨fun ⟨hf, hd, hn⟩ => passStart_unread hruns hpass hst hf hd hn,
      fun hread => ⟨fun u hu => passStart_checked hruns hpass hst hread hu, passStart_clean hruns hpass hst hread⟩⟩,
    fun k p hpass hst hf hturn u => ⟨fun hu => ?_, fun e he => ?_⟩,
    fun k p hpass hst hf hch q df u hdescs f => stripCommit_faults hruns hpass hst hf hch hdescs,
    fun k p df u _ hu => checkPass_leaves hu, fun k p u _ hf hu => runStrip_leaves hf hu, fun p rest hpass hst hf hch hleft => ?_⟩
  · exact (stripCommit_turn hruns hpass hst hf hturn).trans (runE_of_ok hu)
  · exact (stripCommit_turn hruns hpass hst hf hturn).trans (runE_of_error he)
  · intro sum last traps
    have hsum : ∀ k row, sum k row = rowCanon p k row := by
      intro k row
      simp only [sum, rowCanon]
      cases accOf (partOf p.parts k.id) row with
      | none => rfl
      | some v => exact (canon_flags _ v).symm
    have hlast : ∀ k, last k = sinkCanon p k := by
      intro k
      have hrows := sinkCanon_eq p k
      rw [← funext fun row => hsum k row] at hrows
      exact hrows.symm
    have htraps : ∀ k, traps k ↔ trapping k.fpctl (sinkCanon p k) = true := fun k => by
      rw [trapping_iff, ← hlast]
    have hquiet : ∀ k, ¬ traps k → trapping k.fpctl (sinkCanon p k) = false := fun k hk =>
      Bool.eq_false_iff.2 fun h => hk ((htraps k).2 h)
    have hflags : p.sinks.foldl (fun a k => a ||| last k) p.flags = p.allFlags := by
      rw [funext hlast]
      rfl
    refine ⟨writeWaymarks_off, fun a k b hsinks ha hk hother => ?_, fun hnone u hmarks => ?_⟩
    · rw [hlast]
      exact passComplete_trap hruns hpass hst hf hch hleft hsinks (fun j hj => hquiet j (ha j hj)) ((htraps k).1 hk) hother
    · obtain ⟨hpc, hvnames, hqueue⟩ := finish_leaves u.st p
      refine ⟨_, passComplete_done hruns hpass hst hf hch hleft (fun k hk => hquiet k (hnone k hk)) hmarks, finish_passes u.st p, hpc,
        hvnames, hqueue, ?_, fun r => finish_get_other u.st p, fun k hk d v hv hd => finish_get_result u.st p hk hv hd,
        fun k hk slot vs hv => finish_row_result u.st p hk hv, fun slot => finish_row_other u.st p, finish_qerr_other u.st p,
        finish_qerr_own u.st p, rfl, rfl, rfl⟩
      rw [hflags]
      exact finish_fpflags u.st p

end Sys2Proof.Machine
end
